-- ==== Sys2Proof/Word.lean ====
section
/-!
DEFINITION. The word types of the KT9 (R11): a byte is 8 bits, a word 64 bits. Little-endian assembly and
bit-field helpers stand in Machine/Bits.lean.
-/
namespace Sys2Proof

/-- A byte (R11). -/
abbrev Byte := BitVec 8
/-- A half word, as H16 values and 2-byte record fields use (R56). -/
abbrev W16 := BitVec 16
/-- A 32-bit word, as F32 and I32 values use (R56). -/
abbrev W32 := BitVec 32
/-- A word: 64 bits, the unit of SECDED protection and of scalar registers (R11). -/
abbrev W64 := BitVec 64
/-- A tile instruction: 128 bits (R314). -/
abbrev W128 := BitVec 128

end Sys2Proof
end

