-- ==== Sys2Proof/Machine/Bits.lean ====
section
/-!
DEFINITION. Bit fields, sign extension and little-endian byte order (R12, R13), and the sparse tables in which
the state holds its arrays.
-/
namespace Sys2Proof.Machine

/-- The field `[hi:lo]` of a number (R12), as a number. -/
def fld (w hi lo : Nat) : Nat := (w >>> lo) % 2 ^ (hi + 1 - lo)

/-- Bit `k` of a number. -/
def bitN (w k : Nat) : Bool := (w >>> k) % 2 == 1

/-- 1 or 0. -/
def b2n (b : Bool) : Nat := if b then 1 else 0

/-- A number of `n` bits read as two's complement. -/
def signed (n w : Nat) : Int := if w % 2 ^ n < 2 ^ (n - 1) then (w % 2 ^ n : Nat) else (w % 2 ^ n : Nat) - (2 ^ n : Nat)

/-- The two's complement code of an integer in `n` bits. -/
def unsigned (n : Nat) (i : Int) : Nat := (i % (2 ^ n : Nat)).toNat

/-- The low `n` bytes of a number, least significant first (R12). -/
def leBytes : Nat → Nat → List Byte
  | 0, _ => []
  | n + 1, w => BitVec.ofNat 8 w :: leBytes n (w / 256)

/-- The number whose bytes, least significant first, are given (R12). -/
def ofLe : List Byte → Nat
  | [] => 0
  | b :: t => b.toNat + 256 * ofLe t

/-- `n` bytes from `off` on, bytes past the end read as zero. -/
def slice (l : List Byte) (off n : Nat) : List Byte :=
  let t := (l.drop off).take n
  t ++ List.replicate (n - t.length) 0#8

/-- The little-endian number of `n` bytes at `off`. -/
def leAt (l : List Byte) (off n : Nat) : Nat := ofLe (slice l off n)

/-- Bytes in the order that a standard of the wire fixes: most significant first (R12). -/
def beBytes (n w : Nat) : List Byte := (leBytes n w).reverse

/-- The number at an offset in network byte order. -/
def beAt (l : List Byte) (off n : Nat) : Nat := ofLe (slice l off n).reverse

/-- Overwrite bytes of a list from `off` on; the list grows where the bytes run past its end. -/
def patch (l : List Byte) (off : Nat) (bs : List Byte) : List Byte :=
  slice l 0 off ++ bs ++ l.drop (off + bs.length)

/-- A sparse table: keys with values, an absent key holding the table's default. -/
abbrev Tab (α : Type) := List (Nat × α)

/-- The value at a key. -/
def tabGet {α : Type} (d : α) : Tab α → Nat → α
  | [], _ => d
  | (a, v) :: t, k => if a = k then v else tabGet d t k

/-- The value at a key, where the table lists it. -/
def tabFind {α : Type} : Tab α → Nat → Option α
  | [], _ => none
  | (a, v) :: t, k => if a = k then some v else tabFind t k

/-- Insert or replace, keeping the keys rising. -/
def tabSet {α : Type} : Tab α → Nat → α → Tab α
  | [], k, v => [(k, v)]
  | (a, w) :: t, k, v =>
    if a = k then (k, v) :: t
    else if k < a then (k, v) :: (a, w) :: t
    else (a, w) :: tabSet t k v

/-- Remove a key, wherever the table lists it. -/
def tabDel {α : Type} : Tab α → Nat → Tab α
  | [], _ => []
  | (a, w) :: t, k => if a = k then tabDel t k else (a, w) :: tabDel t k

/-- Write in canonical form: the default's own value removes the entry. -/
def tabPut {α : Type} [DecidableEq α] (d : α) (t : Tab α) (k : Nat) (v : α) : Tab α :=
  if v = d then tabDel t k else tabSet t k v

/-- The dense table of a function on the numbers below `n`, without the entries that equal the default. -/
def tabOf {α : Type} [DecidableEq α] (d : α) (n : Nat) (f : Nat → α) : Tab α :=
  (List.range n).filterMap fun k => let v := f k; if v = d then none else some (k, v)

/-- The canonical form: keys strictly rising and no entry equal to the default. -/
def tabWf {α : Type} [DecidableEq α] (d : α) : Tab α → Bool
  | [] => true
  | [(_, v)] => decide (v ≠ d)
  | (a, v) :: (b, w) :: t => decide (v ≠ d) && decide (a < b) && tabWf d ((b, w) :: t)

/-- The greatest common bound used for counters that stop at their width's maximum. -/
def satAdd (max a b : Nat) : Nat := if a + b > max then max else a + b

/-- The greater of two integers. -/
def imax (a b : Int) : Int := if a ≤ b then b else a

/-- The lesser of two integers. -/
def imin (a b : Int) : Int := if a ≤ b then a else b

/-- An integer held to a closed range. -/
def clampInt (lo hi x : Int) : Int := if x < lo then lo else if hi < x then hi else x

end Sys2Proof.Machine
end

