-- ==== Sys2Proof/Machine/FabricTypes.lean ====
section
/-!
DEFINITION. The state of the optical fabric (spec/12_optical_fabric.md): Ilric packets, lanes, send and receive contexts,
operations and exchange-engine posts; and of the error and event rings (R753, R845).
-/
namespace Sys2Proof.Machine

/-- A device of the fabric: HALF in bit 17, DEVICE below (R512). -/
abbrev DevId := Nat

/-- An Ilric packet (R512). LENGTH is the payload's length. -/
structure Packet where
  op : Nat
  flags : Nat := 0
  cls : Nat := 3
  part : Nat := 0
  src : DevId := 0
  epoch : Nat := 0
  psn : Nat := 0
  addr : Nat := 0
  txTime : Nat := 0
  job : Nat := 0
  aux : Nat := 0
  payload : List (BitVec 8) := []
  deriving DecidableEq, Repr

/-- A packet in flight to a destination (R523, R529): when and on which plane it last went, and its retransmissions. -/
structure SentPkt where
  pkt : Packet
  opid : Nat
  sentAt : Nat
  plane : Nat
  retx : Nat := 0
  rnrAt : Option Nat := none
  deriving DecidableEq, Repr

/-- A send context (R521, R525, R526, R537). -/
structure SendCtx where
  epoch : Nat
  nextPsn : Nat := 0
  waiting : List (Nat × Packet) := []
  out : List SentPkt := []
  w : Rat
  f : Rat := 0
  m : Rat := 0
  alpha : Rat := 0
  lastPlane : Option Nat := none
  excl : List (Nat × Nat) := []
  idleSince : Nat := 0
  deriving DecidableEq, Repr

/-- A receive context (R527, R528, R530). `got` lists the PSNs from CUM on that have been received;
`lane` is the lane of the latest arrival. -/
structure RecvCtx where
  epoch : Nat
  cum : Nat := 0
  got : List Nat := []
  newCnt : Nat := 0
  lateCnt : Nat := 0
  unacked : Nat := 0
  firstUnacked : Nat := 0
  lastTx : Nat := 0
  lastArrival : Nat := 0
  lane : Nat := 0
  deriving DecidableEq, Repr

/-- The states of a lane (R536, R554). -/
inductive LaneState where
  | down | up | out | retired
  deriving DecidableEq, Repr

/-- The encoding of a lane state (R554). -/
def LaneState.code : LaneState → Nat
  | .down => 0 | .up => 1 | .out => 2 | .retired => 3

/-- A lane: its LANE_STATUS (R554), the spine counter (R524), the times of its latest misplaned frames (R506), when its
alignment began (R536), when it went down, and how often its loopback failed (R833): `test` says that one is to run, `testAt` when
the last one ran. -/
structure LaneSt where
  state : LaneState := .down
  laserLow : Bool := false
  miscabled : Bool := false
  flap : Bool := false
  fecUncorr : Nat := 0
  pauseRx : Nat := 0
  misplane : Nat := 0
  spine : Nat := 0
  misTimes : List Nat := []
  badFcs : Nat := 0
  downAt : Nat := 0
  fenced : Bool := false
  failures : Nat := 0
  test : Bool := false
  testAt : Nat := 0
  deriving DecidableEq, Repr

/-- The laser inputs of an engine: power in hundredths of a dBm, and which input feeds the control lane (R499). -/
structure Engine where
  la : Int := 0
  lb : Int := 0
  ctrlOnB : Bool := false
  deriving DecidableEq, Repr

/-- Who asked for an operation at another device, and takes its outcome (R520). -/
inductive Origin where
  /-- item `i` of slot `q` of cluster `c` -/
  | item (c q i : Nat)
  /-- a SIGNAL of cluster `c` -/
  | signal (c : Nat)
  /-- post number `id` of the exchange engine -/
  | post (id : Nat)
  /-- the state-stream engine -/
  | stream
  /-- Nganor -/
  | nganor
  /-- this device as responder -/
  | respond
  deriving DecidableEq, Repr

/-- An operation under way to another device: how many of its packets are not yet acknowledged, and bytes still to
return. -/
structure FabOp where
  opid : Nat
  dest : DevId
  origin : Origin
  left : Nat
  toReturn : Nat := 0
  status : Nat := 0
  deriving DecidableEq, Repr

/-- The exchange descriptor's fields (R541), with the KIND of the instruction. -/
structure PostDesc where
  kind : Nat
  format : Nat := 0
  rmode : Bool := false
  verify : Bool := false
  partL : Nat := 0
  partR : Nat := 0
  aop : Nat := 0
  count : Nat := 0
  loc : Nat := 0
  remote : Nat := 0
  group : Nat := 0
  operand : Nat := 0
  operand2 : Nat := 0
  collId : Nat := 0
  shard : Nat := 0
  res : Nat := 0
  flagsRes : Nat := 0
  deriving DecidableEq, Repr

/-- A collective under way (R545, R546): the members, this device's index, its round, and the bytes that have arrived and
are still to be taken: the sender's index, their offset in the buffer, and they. -/
structure Coll where
  members : List Nat := []
  me : Nat := 0
  round : Nat := 0
  got : List (Nat × Nat × List (BitVec 8)) := []
  deriving DecidableEq, Repr

/-- A post that the exchange engine holds (R540): owner 0–255 a cluster, 256 the state-stream engine, 257 Nganor. -/
structure Post where
  id : Nat
  owner : Nat
  desc : PostDesc
  ev : Option Nat := none
  coll : Option Coll := none
  /-- the window's device and the address there, once translated (R282) -/
  dev : DevId := 0
  raddr : Nat := 0
  deriving DecidableEq, Repr

/-- A frame waiting in a lane's transmit queues (R532): class 0 RESP, 1 MGMT, 2 HUDDLE, 3 DATA; its VID (R504). -/
structure TxFrame where
  lane : Nat
  cls : Nat
  dest : DevId
  vid : Nat
  pkt : Packet
  deriving DecidableEq, Repr

/-- The fabric block (R552 to R555) and the Ilric and exchange engines. Contexts are keyed by destination or source; the
control-lane ones add 2 ^ 18. -/
structure Fabric where
  fabricId : Nat := 0
  half : Nat := 0
  device : Nat := 0
  vlanBase : Nat := 1
  etype : Nat := 0x88B5
  dMark : Nat := 0x1770
  wInit : Nat := 0x40
  wMax : Nat := 0x1000
  lanes : Tab LaneSt := []
  engines : Tab Engine := []
  xeSat : Bool := false
  xeNan : Bool := false
  xeOvf : Bool := false
  xeFtz : Bool := false
  xePad : Bool := false
  retxCnt : Nat := 0
  giveup : Nat := 0
  rnrCnt : Nat := 0
  ctxFull : Nat := 0
  stale : Nat := 0
  other : Nat := 0
  denied : Nat := 0
  epoch : Nat := 0
  send : Tab SendCtx := []
  recv : Tab RecvCtx := []
  blocked : List (Nat × Nat × Packet) := []
  opidNext : Nat := 0
  ops : List FabOp := []
  postNext : Nat := 0
  posts : List Post := []
  tx : List TxFrame := []
  sent : List TxFrame := []
  rx : List (Nat × List (BitVec 8)) := []
  /-- control messages handed to Nganor: sender and payload (R513) -/
  ctrl : List (DevId × List (BitVec 8)) := []
  deriving DecidableEq, Repr

/-- An error record (R845); SEQ is its place in the count of records. -/
structure ErrRec where
  seq : Nat
  tick : Nat
  step : Nat
  serviceMin : Nat
  source : Nat
  severity : Nat
  action : Nat
  flags : Nat
  code : Nat
  cluster : Nat
  unit : Nat
  addr : Nat
  info0 : Nat
  info1 : Nat
  deriving DecidableEq, Repr

/-- An event record (R754). -/
structure EventRec where
  seq : Nat
  tick : Nat
  cls : Nat
  code : Nat
  unit : Nat
  data : Nat
  deriving DecidableEq, Repr

end Sys2Proof.Machine
end

