-- ==== Sys2Proof/Machine/PowerTypes.lean ====
section
/-!
DEFINITION. The state of power delivery and the save (spec/15_power_delivery.md), of the operating points
(spec/16_operating_points.md), of the clocks (spec/17_clocking.md) and of thermal control (spec/18_thermal.md).
-/
namespace Sys2Proof.Machine

/-- The modes of a cluster-slot domain (R636). -/
inductive SlotMode where
  | off | retain | on
  deriving DecidableEq, Repr

/-- The codes of MODE (R654). -/
def SlotMode.code : SlotMode → Nat
  | .off => 0 | .retain => 1 | .on => 2

/-- A cluster-slot domain: SLOT_PWR (R654), the operating step its frequency stands at and the one whose voltage is its
setpoint (R630), whether a voltage transition runs (R629) or was begun and its count deferred, the regulator's output, its
latest domain reading (R632), boost (R634) and stretching (R635). Voltages are in mV. -/
structure SlotPwr where
  mode : SlotMode := .off
  calOk : Bool := false
  calSensors : Nat := 0
  boosts : Nat := 0
  stretched : Nat := 0
  freq : Nat := 7
  volt : Nat := 7
  moving : Bool := false
  nextFreq : Option Nat := none
  synthAt : Nat := 0
  gated : Bool := false
  output : Nat := 0
  reading : Nat := 0
  boosting : Bool := false
  boostAt : Nat := 0
  rearmAt : Nat := 0
  stretching : Bool := false
  droopHigh : Bool := false
  deriving DecidableEq, Repr

/-- How far the save has come (R644). -/
inductive SavePhase where
  | none | clocks | flush | handover | saved
  deriving DecidableEq, Repr

/-- The last-gasp record's fields as Nganor writes them (R647). -/
structure Gasp where
  seq : Nat := 0
  cause : Nat := 0
  flags : Nat := 0
  tick : Nat := 0
  step : Nat := 0
  committed : Nat := 0
  acked : Nat := 0
  unsent : Nat := 0
  sent : Nat := 0
  lastSent : Nat := 2 ^ 64 - 1
  lastAcked : Nat := 2 ^ 64 - 1
  flushUs : Nat := 0
  vinT0 : Nat := 0
  vinEnd : Nat := 0
  stepT0 : Nat := 0
  phase : Nat := 0
  twin : Nat := 0
  errors : List ErrRec := []
  deriving DecidableEq, Repr

/-- The power block (R652, R653), the slot domains, the signals of the board and the save. -/
structure PwrSt where
  vinMv : Nat := 0
  alert : Bool := false
  alertSeen : Bool := false
  vinFail : Bool := false
  droopHigh : Bool := false
  ovSeen : Bool := false
  pkgW : Nat := 0
  alertCount : Nat := 0
  failGlitch : Nat := 0
  raiseLate : Nat := 0
  slots : Tab SlotPwr := []
  vinOff : Bool := false
  alertHold : Bool := false
  save : SavePhase := .none
  saveAt : Nat := 0
  gasp : Gasp := {}
  flush : List Nat := []
  flashBusy : Bool := false
  abandonAt : Nat := 0
  deriving DecidableEq, Repr

/-- An entry of the power table (R690). -/
structure PwrEnt where
  pMeas : Nat := 0x7D0
  stepMeas : Nat := 0
  deflt : Bool := true
  busy : Nat := 0x3E8
  dur : Nat := 0
  deriving DecidableEq, Repr

/-- The operating-point block (R686 to R690), the demand of each protection loop (R669), the hysteresis wait (R671),
keep-warm (R681 to R685; its energies and `stepUsed`, `stepEnergy` in µJ), the samples of PKG_W, newest first, and the measurement of
the running phase (R662). -/
structure OppSt where
  requested : Nat := 7
  ceil : Nat := 0
  effective : Nat := 7
  afford : Nat := 7
  alertDem : Bool := false
  capDem : Bool := false
  droopDem : Bool := false
  thermDem : Bool := false
  hyst : Bool := false
  paced : Bool := false
  defaults : Bool := true
  kwActive : Bool := false
  kwLimit : Bool := false
  cfg : Nat := 0x5A000A0320C807D0
  kwCfg : Nat := 0x1400
  tgtW : Nat := 0
  limitW : Nat := 0
  pIdle : Nat := 0
  stepPeak : Nat := 0
  capEvents : Nat := 0
  droopEvents : Nat := 0
  bandHigh : Nat := 0
  bandLow : Nat := 0
  kwUj : Nat := 0
  kwLast : Nat := 0
  table : Tab PwrEnt := []
  alertStep : Nat := 0
  capStep : Nat := 0
  droopStep : Nat := 0
  thermStep : Nat := 0
  coolStep : Nat := 0
  thermBase : Nat := 0
  coolDem : Bool := false
  hystAt : Nat := 0
  oneStep : Bool := false
  idleMeasured : Bool := false
  peakNow : Nat := 0
  peakBefore : Nat := 0
  samples : List Nat := []
  kwPower : Nat := 0
  kwStep : Nat := 0
  kwEvent : Bool := false
  kwEventUsed : Nat := 0
  stepEnergy : Nat := 0
  stepUsed : Nat := 0
  phaseSum : Nat := 0
  phaseN : Nat := 0
  phaseStep : Nat := 7
  phaseClean : Bool := false
  phaseFrom : Nat := 0
  phaseBusy : Nat := 0
  phaseCyc : Nat := 0
  deriving DecidableEq, Repr

/-- The states of the reference PLL (R696). -/
inductive PllState where
  | free | locked | holdover | switching
  deriving DecidableEq, Repr

/-- The codes of PLL (R717). -/
def PllState.code : PllState → Nat
  | .free => 0 | .locked => 1 | .holdover => 2 | .switching => 3

/-- The states of a reference source (R694). -/
inductive SrcState where
  | lost | qualifying | qualified | failed
  deriving DecidableEq, Repr

/-- The codes of STATE_A, STATE_B and STATE_F (R717). -/
def SrcState.code : SrcState → Nat
  | .lost => 0 | .qualifying => 1 | .qualified => 2 | .failed => 3

/-- A reference source: its state, its consecutive good windows (R694), and its REF_MON (R718). -/
structure SrcSt where
  state : SrcState := .lost
  good : Nat := 0
  jitter : Nat := 0
  duty : Nat := 0
  tested : Bool := false
  pass : Bool := false
  freq : Int := 0
  deriving DecidableEq, Repr

/-- The clock block (R715 to R719); `cfgUsed` is REF_CFG as it acts (R701), `recheck` says that the choice of source is to be made
anew (R701, R704), `testing` that recovery runs the test (R703). -/
structure ClockSt where
  selected : Nat := 3
  pll : PllState := .free
  a : SrcSt := {}
  b : SrcSt := {}
  f : SrcSt := {}
  revertPending : Bool := false
  holdoverSeen : Bool := false
  testFail : Bool := false
  holdAt : Nat := 0
  cfg : Nat := 0x124
  cfgUsed : Nat := 0x124
  switches : Nat := 0
  losses : Nat := 0
  changeLate : Nat := 0
  genUnlock : Nat := 0
  recheck : Bool := false
  testing : Bool := false
  deriving DecidableEq, Repr

/-- The states of the heat balance (R737). -/
inductive HbState where
  | ok | waiting | coolantFault | sensorFault
  deriving DecidableEq, Repr

/-- The codes of HB (R737). -/
def HbState.code : HbState → Nat
  | .ok => 0 | .waiting => 1 | .coolantFault => 2 | .sensorFault => 3

/-- The forecast record (R730). -/
structure Forecast where
  tick : Nat := 0
  step : Nat := 0
  flags : Nat := 0
  flow : Nat := 0
  tj : Nat := 0
  w : List Nat := []
  deriving DecidableEq, Repr

/-- The thermal block (R734 to R737), the coolant fields in use with the time of the record that gave each (R726), and
the histories of R727 (in 1e-6 W, and mW) and R732 (in 1e-4 °C), newest first. Temperatures of Tj are in 0.1 °C, of the coolant in 0.01 °C. -/
structure ThermSt where
  tj : Nat := 0
  throttle : Bool := false
  hot100 : Bool := false
  tjOver : Bool := false
  tripSeen : Bool := false
  tripped : Bool := false
  rampHold : Bool := false
  holdUp : Bool := false
  holdDown : Bool := false
  coolDem : Bool := false
  tjMax : Nat := 0
  cfg : Nat := 0x1050F02B5
  qCool : Nat := 0
  stale : Bool := false
  hb : HbState := .waiting
  hbSeen : Bool := false
  usingDefaults : Bool := true
  coolW : Nat := 0x7D0
  flowHint : Nat := 0x5DC
  throttles : Nat := 0
  staleEvents : Nat := 0
  hbFaults : Nat := 0
  rampHolds : Nat := 0
  inlet : Option (Int × Nat) := none
  outlet : Option (Int × Nat) := none
  flow : Option (Int × Nat) := none
  hbGood : Nat := 0
  hbBad : Nat := 0
  seqs : List Nat := []
  heat : List Int := []
  watts : List Nat := []
  secSum : Nat := 0
  secN : Nat := 0
  overAt : Nat := 0
  tjSum : Nat := 0
  tjN : Nat := 0
  tjMeans : List Nat := []
  forecast : Forecast := {}
  deriving DecidableEq, Repr

end Sys2Proof.Machine
end

