-- ==== Sys2Proof/Machine/MgmtTypes.lean ====
section
/-!
DEFINITION. The state of the mailboxes and event cursors (spec/19_mailboxes.md), of boot (spec/21_boot.md) and of
reliability: records, repair record, counts (spec/22_reliability.md).
-/
namespace Sys2Proof.Machine

/-- The states of a mailbox (R743). -/
inductive MbState where
  | idle | busy | done
  deriving DecidableEq, Repr

/-- The codes of STATE (R756). -/
def MbState.code : MbState → Nat
  | .idle => 0 | .busy => 1 | .done => 2

/-- The owner of a mailbox (R746). -/
inductive Owner where
  /-- the source IPv4 address and UDP port -/
  | udp (ip port : Nat)
  /-- HALF and DEVICE of a station -/
  | station (dev : DevId)
  /-- a logical cluster -/
  | cluster (c : Nat)
  deriving DecidableEq, Repr

/-- The command that a BUSY mailbox runs (R740, R748): its header's fields and body, when it rang, the arrival asked for
(R745), and its response once decided: STATUS, DETAIL, MORE and body. -/
structure Cmd where
  op : Nat
  tag : Nat := 0
  seq : Nat := 0
  body : List (BitVec 8) := []
  at_ : Nat := 0
  ev : Option (Nat × Nat) := none
  decided : Bool := false
  answer : Option (Nat × Nat × Bool × List (BitVec 8)) := none
  deriving DecidableEq, Repr

/-- A mailbox (R739, R746, R753, R756). `held` is the SEQUENCE of the response held; `cursor` the last event passed and
`acked` the last acknowledged; `ending` says that the owner goes once a BUSY command is done (R746). A byte
that a buffer does not list is a free value, drawn at `reqBase` and `rspBase` (R743, R744). -/
structure Mailbox where
  state : MbState := .idle
  req : Tab (BitVec 8) := []
  rsp : Tab (BitVec 8) := []
  reqBase : Nat := 0
  rspBase : Nat := 0
  abort : Nat := 0
  seqLo : Nat := 0
  tag : Nat := 0
  held : Nat := 0
  lastStatus : Nat := 0
  owner : Option Owner := none
  heard : Nat := 0
  mask : Nat := 0
  cursor : Nat := 0
  acked : Nat := 0
  pushAt : Nat := 0
  cmd : Option Cmd := none
  ending : Bool := false
  deriving DecidableEq, Repr

/-- A frame that Nganor sends to an owner or over the management port (R751): mailbox, KIND, OFFSET, ARG, data. -/
structure MbFrame where
  mbox : Nat
  kind : Nat
  offset : Nat := 0
  arg : Nat := 0
  to_ : Option Owner := none
  data : List (BitVec 8) := []
  deriving DecidableEq, Repr

/-- The mailboxes with the rotation of R748 and the frames that Nganor has sent. -/
structure MbSt where
  boxes : Tab Mailbox := []
  last : Nat := 0
  sent : List MbFrame := []
  deriving DecidableEq, Repr

/-- The rings of events (R753) and of error records (R846), newest first. -/
structure LogSt where
  events : List EventRec := []
  eventSeq : Nat := 0
  errs : List ErrRec := []
  errSeq : Nat := 0
  inSecond : Nat := 0
  dropped : Nat := 0
  droppedNow : Nat := 0
  deriving DecidableEq, Repr

/-- Boot (R799 to R824): BOOT_STATUS, the pins, the running image, the write position of FW_WRITE (R790), the board
configuration record in use (R815), the watchdog resets of R800, what is still
to be programmed into the flash (R790), since when the stage runs, and whether its work is done.
SYS_RESET_N is asserted as VAUX rises (R797). -/
structure BootSt where
  stage : Nat := 0
  cause : Nat := 0
  source : Nat := 0
  slot : Nat := 0
  fallback : Bool := false
  lastGasp : Bool := false
  bcrValid : Bool := false
  bistRan : Bool := false
  bootSel : Nat := 0
  announceMs : Nat := 0
  pinReset : Bool := true
  resetAt : Nat := 0
  nganor : Bool := false
  version : Nat := 0
  secVersion : Nat := 0
  rollback : Nat := 0
  fwNext : Option Nat := none
  bcr : List (BitVec 8) := []
  tftp : List (BitVec 8) := []
  wdog : List Nat := []
  writing : List (Nat × List (BitVec 8)) := []
  stageAt : Nat := 0
  ready : Bool := false
  deriving DecidableEq, Repr

/-- A unit entry of the repair record (R838), keyed by the unit's identifier. -/
structure RepUnit where
  state : Nat
  cause : Nat
  logical : Nat
  since : Nat
  deriving DecidableEq, Repr

/-- A repair entry (R838). -/
structure RepEnt where
  array : Nat
  row : Nat
  since : Nat
  deriving DecidableEq, Repr

/-- A history entry (R830, R838). -/
structure HistEnt where
  unit : Nat
  event : Nat
  count : Nat
  first : Nat
  boot : Nat
  deriving DecidableEq, Repr

/-- Reliability (R830, R838, R850): the record as Nganor holds it, the copy that governs, counts. `applied` is the number
of repair entries that this boot applied. -/
structure RasSt where
  units : Tab RepUnit := []
  repairs : List RepEnt := []
  applied : Nat := 0
  hist : List HistEnt := []
  gen : Nat := 0
  copy : Nat := 0
  fresh : Bool := false
  writeFail : Bool := false
  serviceMin : Nat := 0
  boots : Nat := 0
  dirty : Bool := false
  writtenAt : Nat := 0
  deriving DecidableEq, Repr

end Sys2Proof.Machine
end

