-- ==== Sys2Proof/Machine/Flags.lean ====
section
/-!
DEFINITION. The arithmetic event flags of R89 as one sticky bit set, and the rounding modes of R85 and R86.
-/
namespace Sys2Proof.Machine

/-- The events of ARITH_FLAGS (R89): bit 0 SAT, 1 NAN_GEN, 2 F_OVF, 3 FTZ, 4 ACC_OVF. -/
abbrev Flags := BitVec 5

/-- No event. -/
def noFlags : Flags := 0#5
/-- SAT: a conversion to an integer format saturated or converted NaN to 0 (R88, R89). -/
def flagSat : Flags := 1#5
/-- NAN_GEN: NaN from inputs none of which is NaN (R80). -/
def flagNanGen : Flags := 2#5
/-- F_OVF: a finite result overflowed to infinity (R81). -/
def flagOvf : Flags := 4#5
/-- FTZ: a non-zero H16 result was flushed to +0 (R78). -/
def flagFtz : Flags := 8#5
/-- ACC_OVF: a wide accumulator saturated (R143). -/
def flagAccOvf : Flags := 16#5

/-- A rounding: to nearest with ties to even (R85), or stochastic with the 16-bit draw `r` (R86). -/
inductive Mode where
  | rne
  | sr (r : Nat)
  deriving DecidableEq, Repr

end Sys2Proof.Machine
end

