-- ==== Sys2Proof/Machine/Num.lean ====
section
/-!
DEFINITION. The number formats and arithmetic rules of spec/02_number_formats.md: exact values, F32 and H16
encodings, the two roundings, saturation, comparison, and the exact operations every unit rounds once.
-/
namespace Sys2Proof.Machine

/-- An exact value: NaN, an infinity of a sign, or `m * 2 ^ e`. -/
inductive FVal where
  | nan
  | inf (neg : Bool)
  | fin (m e : Int)
  deriving DecidableEq, Repr

/-- Zero. -/
def FVal.zero : FVal := .fin 0 0

/-- An integer as an exact value. -/
def FVal.ofInt (i : Int) : FVal := .fin i 0

/-- `m * 2 ^ k` of an integer, for `k` at least 0. -/
def shlInt (m : Int) (k : Nat) : Int := m * (2 ^ k : Nat)

/-- R85, R86: a magnitude `m / 2 ^ sh` rounded to an integer under a mode. -/
def roundMag (mode : Mode) (m sh : Nat) : Nat :=
  let lo := m >>> sh
  let rem := m % 2 ^ sh
  match mode with
  | .rne => if 2 * rem > 2 ^ sh ∨ (2 * rem = 2 ^ sh ∧ lo % 2 = 1) then lo + 1 else lo
  | .sr r => if r + (rem * 65536) >>> sh ≥ 65536 then lo + 1 else lo

/-- R85, R86 item 2: an exact value `m * 2 ^ e` rounded to an integer. -/
def roundInt (mode : Mode) (m e : Int) : Int :=
  if 0 ≤ e then shlInt m e.toNat else
    let k := (-e).toNat
    let lo := m / (2 ^ k : Nat)
    let rem := (m % (2 ^ k : Nat)).toNat
    match mode with
    | .rne => if 2 * rem > 2 ^ k ∨ (2 * rem = 2 ^ k ∧ lo % 2 = 1) then lo + 1 else lo
    | .sr r => if r + (rem * 65536) >>> k ≥ 65536 then lo + 1 else lo

/-- R73: the value of an F32 encoding; a negative zero reads as zero (R79). -/
def decF32 (w : Nat) : FVal :=
  let s := bitN w 31
  let e := fld w 30 23
  let f := fld w 22 0
  let sg : Nat → Int := fun m => if s then -(m : Int) else m
  if e = 255 then (if f = 0 then .inf s else .nan)
  else if e = 0 then (if f = 0 then .zero else .fin (sg f) (-149))
  else .fin (sg (f + 2 ^ 23)) ((e : Int) - 150)

/-- R72: the value of an H16 encoding; subnormals read as +0 (R78). -/
def decH16 (w : Nat) : FVal :=
  let s := bitN w 15
  let e := fld w 14 7
  let f := fld w 6 0
  if e = 255 then (if f = 0 then .inf s else .nan)
  else if e = 0 then .zero
  else .fin (if s then -((f + 128 : Nat) : Int) else (f + 128 : Nat)) ((e : Int) - 134)

/-- R73, R77, R81, R86: an exact value rounded into F32, with the events that sets. -/
def encF32 (mode : Mode) : FVal → Nat × Flags
  | .nan => (0x7FC00000, noFlags)
  | .inf s => (if s then 0xFF800000 else 0x7F800000, noFlags)
  | .fin m e =>
    let a := m.natAbs
    if a = 0 then (0, noFlags) else
      let q0 := imax (e + Nat.log2 a + 1 - 24) (-149)
      let sig0 := if q0 ≤ e then a <<< (e - q0).toNat else roundMag mode a (q0 - e).toNat
      let (sig, q) := if sig0 = 2 ^ 24 then (2 ^ 23, q0 + 1) else (sig0, q0)
      let sb := if m < 0 then 2 ^ 31 else 0
      if sig = 0 then (0, noFlags)
      else if sig < 2 ^ 23 then (sb + sig, noFlags)
      else if q + 150 ≥ 255 then (sb + 0x7F800000, flagOvf)
      else (sb + (q + 150).toNat * 2 ^ 23 + (sig - 2 ^ 23), noFlags)

/-- R72, R78, R81, R86: an exact value rounded into H16, with the events that sets. -/
def encH16 (mode : Mode) : FVal → Nat × Flags
  | .nan => (0x7FC0, noFlags)
  | .inf s => (if s then 0xFF80 else 0x7F80, noFlags)
  | .fin m e =>
    let a := m.natAbs
    if a = 0 then (0, noFlags) else
      let q0 := e + Nat.log2 a + 1 - 8
      let sig0 := if q0 ≤ e then a <<< (e - q0).toNat else roundMag mode a (q0 - e).toNat
      let (sig, q) := if sig0 = 256 then (128, q0 + 1) else (sig0, q0)
      let sb := if m < 0 then 2 ^ 15 else 0
      if q + 134 < 1 then (0, flagFtz)
      else if q + 134 ≥ 255 then (sb + 0x7F80, flagOvf)
      else (sb + (q + 134).toNat * 128 + (sig - 128), noFlags)

/-- R88: an exact value rounded and saturated into the integers from `lo` to `hi`. -/
def toIntSat (mode : Mode) (lo hi : Int) : FVal → Int × Flags
  | .nan => (0, flagSat)
  | .inf s => (if s then lo else hi, flagSat)
  | .fin m e =>
    let x := roundInt mode m e
    if x < lo then (lo, flagSat) else if hi < x then (hi, flagSat) else (x, noFlags)

/-- The exact negation. -/
def FVal.neg : FVal → FVal
  | .nan => .nan
  | .inf s => .inf (!s)
  | .fin m e => .fin (-m) e

/-- The magnitude. -/
def FVal.abs : FVal → FVal
  | .nan => .nan
  | .inf _ => .inf false
  | .fin m e => .fin m.natAbs e

/-- The exact sum of two finite values. -/
def addFin (m e n f : Int) : FVal :=
  let k := imin e f
  .fin (shlInt m (e - k).toNat + shlInt n (f - k).toNat) k

/-- R80: exact addition. -/
def FVal.add : FVal → FVal → FVal × Flags
  | .nan, _ => (.nan, noFlags)
  | _, .nan => (.nan, noFlags)
  | .inf s, .inf t => if s = t then (.inf s, noFlags) else (.nan, flagNanGen)
  | .inf s, .fin _ _ => (.inf s, noFlags)
  | .fin _ _, .inf t => (.inf t, noFlags)
  | .fin m e, .fin n f => (addFin m e n f, noFlags)

/-- R80: exact multiplication. -/
def FVal.mul : FVal → FVal → FVal × Flags
  | .nan, _ => (.nan, noFlags)
  | _, .nan => (.nan, noFlags)
  | .inf s, .inf t => (.inf (s != t), noFlags)
  | .inf s, .fin n _ => if n = 0 then (.nan, flagNanGen) else (.inf (s != decide (n < 0)), noFlags)
  | .fin m _, .inf t => if m = 0 then (.nan, flagNanGen) else (.inf (t != decide (m < 0)), noFlags)
  | .fin m e, .fin n f => (.fin (m * n) (e + f), noFlags)

/-- R75, R80: the exact value of a × b + c; a NaN input propagates without an event. -/
def FVal.fma (a b c : FVal) : FVal × Flags :=
  if a = .nan ∨ b = .nan ∨ c = .nan then (.nan, noFlags) else
    let (p, f1) := a.mul b
    if f1 ≠ noFlags then (.nan, f1) else p.add c

/-- A value times a power of two. -/
def FVal.scale (k : Int) : FVal → FVal
  | .fin m e => .fin m (e + k)
  | v => v

/-- R83: the order of two values, none where it is unordered. -/
def FVal.cmp : FVal → FVal → Option Ordering
  | .nan, _ => none
  | _, .nan => none
  | .inf s, .inf t => some (if s = t then .eq else if s then .lt else .gt)
  | .inf s, .fin _ _ => some (if s then .lt else .gt)
  | .fin _ _, .inf t => some (if t then .gt else .lt)
  | .fin m e, .fin n f =>
    let k := imin e f
    let a := shlInt m (e - k).toNat
    let b := shlInt n (f - k).toNat
    some (if a < b then .lt else if a = b then .eq else .gt)

/-- The six predicates of R83: 0 EQ, 1 NE, 2 LT, 3 LE, 4 GT, 5 GE. -/
inductive Pred where
  | eq | ne | lt | le | gt | ge
  deriving DecidableEq, Repr

/-- R83: a predicate on two values. -/
def Pred.holds (p : Pred) (a b : FVal) : Bool :=
  match p, a.cmp b with
  | .ne, none => true
  | _, none => false
  | .eq, some o => o == .eq
  | .ne, some o => o != .eq
  | .lt, some o => o == .lt
  | .le, some o => o != .gt
  | .gt, some o => o == .gt
  | .ge, some o => o != .lt

/-- R84: the greater operand, NaN where either is NaN. -/
def FVal.max (a b : FVal) : FVal :=
  match a.cmp b with
  | none => .nan
  | some .lt => b
  | some _ => a

/-- R84: the lesser operand, NaN where either is NaN. -/
def FVal.min (a b : FVal) : FVal :=
  match a.cmp b with
  | none => .nan
  | some .gt => b
  | some _ => a

/-- R66, R71: the index into the grid's 15 levels that a G4 code other than 0x8 selects. -/
def gridIndex (code : Nat) : Nat := (signed 4 code + 7).toNat

/-- R64: the scale of a block with E8 byte `E` applied to a decoded value; 0xFF makes every element +0. -/
def e8Scale (E : Nat) (v : FVal) : FVal := if E = 255 then .zero else v.scale ((E : Int) - 127)

/-- The ranges of the integer formats (R56), by width and signedness. -/
def intLo (sgn : Bool) (bits : Nat) : Int := if sgn then -(2 ^ (bits - 1) : Nat) else 0
/-- The greatest value of an integer format (R56). -/
def intHi (sgn : Bool) (bits : Nat) : Int := if sgn then (2 ^ (bits - 1) : Nat) - 1 else (2 ^ bits : Nat) - 1

end Sys2Proof.Machine
end

