-- ==== Sys2Proof/Machine/Pods.lean ====
section
/-!
DEFINITION. Pods (spec/03_pods.md): the tensor descriptor and its checks, the placement of elements, the header
and escape area, side-list segments, and the deterministic decode of malformed pods.
-/
namespace Sys2Proof.Machine

/-- The pod formats, in the order of their codes (R116, R198). -/
inductive Fmt where
  | s4 | u4 | g4 | s8 | u8
  deriving DecidableEq, Repr

/-- The format a FORMAT code names; 5 and above are reserved (R116). -/
def fmtOf : Nat → Option Fmt
  | 0 => some .s4 | 1 => some .u4 | 2 => some .g4 | 3 => some .s8 | 4 => some .u8 | _ => none

/-- The FORMAT code of a format (R116). -/
def Fmt.code : Fmt → Nat
  | .s4 => 0 | .u4 => 1 | .g4 => 2 | .s8 => 3 | .u8 => 4

/-- Is it a 4-bit pod kind (R100)? -/
def Fmt.narrow4 : Fmt → Bool
  | .s4 => true | .u4 => true | .g4 => true | _ => false

/-- Rows per pod (R100). -/
def Fmt.podRows (f : Fmt) : Nat := if f.narrow4 then 4 else 2
/-- Elements per pod (R100). -/
def Fmt.podElems (f : Fmt) : Nat := if f.narrow4 then 512 else 256
/-- Pods per full tile (R118). -/
def Fmt.tilePods (f : Fmt) : Nat := if f.narrow4 then 32 else 64

/-- The integer value of a code of a format other than the G4 escape (R56, R71). -/
def Fmt.value (f : Fmt) (grid : List Int) (code : Nat) : Int :=
  match f with
  | .s4 => signed 4 code
  | .u4 => (code % 16 : Nat)
  | .g4 => if code = 8 then 0 else grid.getD (gridIndex code) 0
  | .s8 => signed 8 code
  | .u8 => (code % 256 : Nat)

/-- The default bell grid (R232). -/
def bellGrid : List Int := [-127, -95, -73, -56, -40, -26, -13, 0, 13, 26, 40, 56, 73, 95, 127]

/-- The 15 levels of a 16-byte grid record (R116). -/
def gridOf (rec : List Byte) : List Int := (slice rec 0 15).map fun b => signed 8 b.toNat

/-- A tensor descriptor (R116). -/
structure TensorDesc where
  fmt : Fmt
  wideAxis : Bool
  wideCount : Nat
  rows : Nat
  cols : Nat
  podBase : Nat
  gridAddr : Nat
  sideBase : Nat
  sideSectors : Nat
  wideList : Nat
  wideBase : Nat
  deriving DecidableEq, Repr

/-- The fields of a 64-byte descriptor, none where FORMAT is reserved (R116). -/
def tensorOf (b : List Byte) : Option TensorDesc :=
  (fmtOf (leAt b 0 1)).map fun f =>
    { fmt := f, wideAxis := bitN (leAt b 1 1) 0, wideCount := leAt b 2 1, rows := leAt b 4 4, cols := leAt b 8 4
      podBase := leAt b 0x10 8, gridAddr := leAt b 0x18 8, sideBase := leAt b 0x20 8, sideSectors := leAt b 0x28 4
      wideList := leAt b 0x30 8, wideBase := leAt b 0x38 8 }

/-- R117: the reserved fields of a descriptor are zero. -/
def tensorResZero (b : List Byte) : Bool :=
  leAt b 1 1 / 2 == 0 && leAt b 3 1 == 0 && leAt b 0xC 4 == 0 && leAt b 0x2C 4 == 0

/-- Do the entries of a list rise strictly? -/
def rising : List Nat → Bool
  | [] => true
  | [_] => true
  | a :: b :: t => decide (a < b) && rising (b :: t)

/-- Row groups of a tensor (R118). -/
def TensorDesc.groups (d : TensorDesc) : Nat := (d.rows + d.fmt.podRows - 1) / d.fmt.podRows
/-- Column panels (R118). -/
def TensorDesc.panels (d : TensorDesc) : Nat := (d.cols + 127) / 128
/-- Row groups per full tile row (R118). -/
def TensorDesc.tileGroups (d : TensorDesc) : Nat := 128 / d.fmt.podRows
/-- Tile rows: ceil(ROWS / 128). -/
def TensorDesc.tileRows (d : TensorDesc) : Nat := (d.rows + 127) / 128
/-- Row groups that exist in tile row `t` (R118). -/
def TensorDesc.groupsIn (d : TensorDesc) (t : Nat) : Nat := min d.tileGroups (d.groups - t * d.tileGroups)

/-- R118: the first pod index of tile (t, j). -/
def TensorDesc.tilePod (d : TensorDesc) (t j : Nat) : Nat :=
  t * d.tileGroups * d.panels + j * d.groupsIn t

/-- R118: pod index and position of element (r, c). -/
def TensorDesc.place (d : TensorDesc) (r c : Nat) : Nat × Nat :=
  let h := d.fmt.podRows
  let i := r / h
  let t := i / d.tileGroups
  (d.tilePod t (c / 128) + i % d.tileGroups, (r % h) * 128 + c % 128)

/-- The tensor row and column of the first element of pod `k`: the inverse of R118. -/
def TensorDesc.podOrigin (d : TensorDesc) (k : Nat) : Nat × Nat :=
  let per := d.tileGroups * d.panels
  let t := if per = 0 then 0 else k / per
  let n := d.groupsIn t
  let rem := k - t * per
  if n = 0 then (0, 0) else ((t * d.tileGroups + rem % n) * d.fmt.podRows, (rem / n) * 128)

/-- R119: is tensor position (r, c) padding? -/
def TensorDesc.isPad (d : TensorDesc) (r c : Nat) : Bool := decide (d.rows ≤ r) || decide (d.cols ≤ c)

/-- R120: the number of the wide channel that (r, c) belongs to, if any. -/
def TensorDesc.wideOf (d : TensorDesc) (wide : List Nat) (r c : Nat) : Option Nat :=
  let x := if d.wideAxis then c else r
  (List.range wide.length).find? fun w => wide.getD w 0 == x

/-- R122: the device address of the side-tensor element of wide channel `w` for tensor position (r, c). -/
def TensorDesc.wideAddr (d : TensorDesc) (w r c : Nat) : Nat :=
  let l := if d.wideAxis then d.rows else d.cols
  d.wideBase + 128 * ((l + 63) / 64) * w + 2 * (if d.wideAxis then r else c)

/-- Are there padding positions in the tensor's pods (R119)? -/
def TensorDesc.hasPad (d : TensorDesc) : Bool :=
  decide (d.groups * d.fmt.podRows ≠ d.rows) || decide (d.panels * 128 ≠ d.cols)

/-- R117: the descriptor is valid, given the channel list and the grid that it names; `inHbm` says whether an
address lies in HBM. -/
def tensorValid (b : List Byte) (wide : List Nat) (grid : List Int) (inHbm : Nat → Bool) : Bool :=
  match tensorOf b with
  | none => false
  | some d =>
    let g4 := d.fmt == .g4
    tensorResZero b
    && (g4 || (d.gridAddr == 0 && d.sideBase == 0 && d.sideSectors == 0))
    && (d.wideCount != 0 || (d.wideList == 0 && d.wideBase == 0))
    && decide (1 ≤ d.rows) && decide (1 ≤ d.cols) && decide (d.wideCount ≤ 64)
    && d.podBase % 32 == 0 && decide (d.podBase < 2 ^ 48) && (!(inHbm d.podBase) || d.podBase % 288 == 0)
    && d.sideBase % 32 == 0 && decide (d.sideSectors ≤ 2 ^ 25) && d.wideBase % 128 == 0 && d.gridAddr % 16 == 0
    && rising wide && wide.all (fun x => decide (x < (if d.wideAxis then d.cols else d.rows)))
    && (!g4 || !(d.hasPad || d.wideCount != 0) || grid.getD 7 0 == 0)

/-- The code at position `p` of a pod (R102). -/
def podCode (f : Fmt) (pod : List Byte) (p : Nat) : Nat :=
  if f.narrow4 then
    let b := (pod.getD (32 + p / 2) 0#8).toNat
    if p % 2 = 0 then b % 16 else b / 16
  else (pod.getD (32 + p) 0#8).toNat

/-- The E8 exponent of block `b` (R103, R104). -/
def podExp (pod : List Byte) (b : Nat) : Nat := (pod.getD b 0#8).toNat

/-- The conditions of POD_STATUS (R124): bit 0 PAD_NZ, 1 ESC_FORM, 2 ESC_ORPHAN, 3 ESC_STRAY, 4 SIDE_MISMATCH,
5 SIDE_FULL. -/
abbrev PodFlags := BitVec 6

/-- What a reader makes of a pod (R115): codes, exponents, the escapes that apply, and the conditions met. -/
structure PodDec where
  codes : List Nat
  exps : List Nat
  escs : List (Nat × Nat)
  flags : PodFlags
  deriving DecidableEq, Repr

/-- A condition as a bit of POD_STATUS. -/
def podFlag (k : Nat) (b : Bool) : PodFlags := if b then BitVec.ofNat 6 (2 ^ k) else 0#6

/-- R107: header entry `k` of the 128-bit ESCAPE value. -/
def escEntry (v k : Nat) : Nat × Nat := (fld v (11 + 25 * k) (3 + 25 * k), fld v (27 + 25 * k) (12 + 25 * k))

/-- The SIDE_INDEX of an overflow-form pod (R108), none where the pod has no segment. -/
def podSideIndex (f : Fmt) (pod : List Byte) : Option Nat :=
  let v := leAt pod 0x10 16
  if f = .g4 ∧ fld v 2 0 = 7 then some (fld v 127 103) else none

/-- R111: the sectors of a segment with COUNT entries. -/
def segSectors (count : Nat) : Nat := (8 + 4 * count + 31) / 32

/-- R111: entry `k` of a segment. -/
def segEntry (seg : List Byte) (k : Nat) : Nat × Nat :=
  let e := leAt seg (8 + 4 * k) 4
  (fld e 8 0, fld e 31 16)

/-- The first entry for each position, in order. -/
def firstPerPos : List (Nat × Nat) → List Nat → List (Nat × Nat)
  | [], _ => []
  | e :: t, seen => if seen.contains e.1 then firstPerPos t seen else e :: firstPerPos t (e.1 :: seen)

/-- R115: decode a pod of index `k`. `isPad` and `isWide` say which positions are padding or wide; `seg` is the
segment that its SIDE_INDEX names, empty where it has none. -/
def decodePod (d : TensorDesc) (k : Nat) (pod : List Byte) (isPad isWide : Nat → Bool) (seg : List Byte) : PodDec :=
  let f := d.fmt
  let n := f.podElems
  let codes := (List.range n).map (podCode f pod)
  let exps := (List.range (n / 32)).map (podExp pod)
  let ffBlock := fun p => exps.getD (p / 32) 255 == 255
  let padCode := (List.range n).any fun p =>
    let c := codes.getD p 0
    c != 0 && ((isPad p || isWide p) || (ffBlock p && !(f == .g4 && c == 8)))
  if f ≠ .g4 then
    let hdr := if f.narrow4 then leAt pod 0x10 16 != 0 else leAt pod 8 24 != 0
    { codes := codes, exps := exps, escs := [], flags := podFlag 0 (padCode || hdr) }
  else
    let v := leAt pod 0x10 16
    let cnt := fld v 2 0
    let hdrN := if cnt = 7 then 4 else if cnt = 6 then 0 else cnt
    let hdrEs := (List.range hdrN).map (escEntry v)
    let unused := decide (cnt ≤ 5) && v >>> (3 + 25 * cnt) != 0
    let segCount := leAt seg 4 2
    let mism := cnt == 7 && (leAt seg 0 4 != k || decide (508 < segCount)
      || decide (d.sideSectors < fld v 127 103 + segSectors segCount))
    let useSeg := cnt == 7 && !mism
    let segEs := if useSeg then (List.range segCount).map (segEntry seg) else []
    let segPad := useSeg && (leAt seg 6 2 != 0
      || (List.range segCount).any (fun i => fld (leAt seg (8 + 4 * i) 4) 15 9 != 0)
      || (slice seg (8 + 4 * segCount) (32 * segSectors segCount - (8 + 4 * segCount))).any (· != 0#8))
    let all := hdrEs ++ segEs
    let good := firstPerPos (all.filter fun e => codes.getD e.1 0 == 8) []
    let stray := all.any (fun e => codes.getD e.1 0 != 8) || !(rising (all.map (·.1)))
    let orphan := (List.range n).any fun p =>
      codes.getD p 0 == 8 && !(ffBlock p) && !(good.any fun e => e.1 == p)
    { codes := codes, exps := exps, escs := good
      flags := podFlag 0 (padCode || unused || segPad) ||| podFlag 1 (cnt == 6)
        ||| podFlag 2 (orphan || cnt == 6 || mism) ||| podFlag 3 stray ||| podFlag 4 mism }

/-- R107: the 128-bit ESCAPE value of up to five entries, or of four and a SIDE_INDEX. -/
def escArea (es : List (Nat × Nat)) (side : Option Nat) : Nat :=
  let ent := fun (l : List (Nat × Nat)) =>
    ((List.range l.length).map fun k => (l.getD k (0, 0)).1 * 2 ^ (3 + 25 * k) + (l.getD k (0, 0)).2 * 2 ^ (12 + 25 * k)).sum
  match side with
  | none => (es.take 5).length + ent (es.take 5)
  | some i => 7 + ent (es.take 4) + i * 2 ^ 103

/-- R103, R104: the 288 bytes of a pod. -/
def encodePod (f : Fmt) (codes exps : List Nat) (escs : List (Nat × Nat)) (side : Option Nat) : List Byte :=
  let body := if f.narrow4 then
      (List.range 256).map fun i => BitVec.ofNat 8 (codes.getD (2 * i) 0 % 16 + 16 * (codes.getD (2 * i + 1) 0 % 16))
    else (List.range 256).map fun i => BitVec.ofNat 8 (codes.getD i 0)
  let scale := (List.range (f.podElems / 32)).map fun b => BitVec.ofNat 8 (exps.getD b 255)
  let hdr := if f.narrow4 then scale ++ leBytes 16 (if f = .g4 then escArea escs side else 0)
    else scale ++ List.replicate 24 0#8
  hdr ++ body

/-- R111: the bytes of a side-list segment, padded to whole sectors. -/
def encodeSegment (podIndex : Nat) (es : List (Nat × Nat)) : List Byte :=
  let raw := leBytes 4 podIndex ++ leBytes 2 es.length ++ [0#8, 0#8]
    ++ (es.map fun e => leBytes 4 (e.1 + e.2 * 65536)).flatten
  raw ++ List.replicate (32 * segSectors es.length - raw.length) 0#8

end Sys2Proof.Machine
end

