-- ==== Sys2Proof/Machine/Quant.lean ====
section
/-!
DEFINITION. How PACK quantises (spec/03_pods.md R106, spec/06_quantisation.md): block exponents, the grid rule, the
choice of escapes, and the codes of one block of 32 elements.
-/
namespace Sys2Proof.Machine

/-- The coding limit Q of a format (R106). -/
def Fmt.limit (f : Fmt) (grid : List Int) : Nat :=
  match f with
  | .s4 => 7 | .u4 => 15 | .s8 => 127 | .u8 => 255
  | .g4 => (grid.take 15).foldl (fun q l => max q l.natAbs) 0

/-- R106 step 4: 127 + ceil(log2(m / Q)) clamped to 0..254, for `m = a * 2 ^ e` above 0 and `Q` above 0. -/
def chooseExp (a : Nat) (e : Int) (q : Nat) : Nat :=
  let n := e + Nat.log2 a - Nat.log2 q
  let fits := match (FVal.fin a e).cmp (.fin q n) with | some .gt => false | _ => true
  (clampInt 0 254 (127 + (if fits then n else n + 1))).toNat

/-- Is `|y - a|` below `|y - b|`, with ties to the smaller magnitude (R223)? `y` is finite. -/
def gridNearer (y : FVal) (a b : Int) : Bool :=
  let dist := fun l => ((y.add (.ofInt (-l))).1).abs
  match (dist a).cmp (dist b) with
  | some .lt => true
  | some .eq => decide (a.natAbs < b.natAbs)
  | _ => false

/-- R223: the index of the entry that the grid rule chooses for a finite value. -/
def gridChoose (grid : List Int) (y : FVal) : Nat :=
  (List.range 15).foldl (fun k i => if gridNearer y (grid.getD i 0) (grid.getD k 0) then i else k) 0

/-- The lowest index of the largest (or smallest) entry of a grid (R226). -/
def gridExtreme (grid : List Int) (largest : Bool) : Nat :=
  (List.range 15).foldl (fun k i =>
    let a := grid.getD i 0
    let b := grid.getD k 0
    if (if largest then b < a else a < b) then i else k) 0

/-- The 4-bit code of grid index `k`: `k - 7` as two's complement (R71). -/
def gridCodeOf (k : Nat) : Nat := unsigned 4 ((k : Int) - 7)

/-- R223, R225, R226: the code of a value under the grid rule. -/
def gridCode (grid : List Int) (y : FVal) : Nat × Flags :=
  match y with
  | .nan => (0, flagSat)
  | .inf s => (gridCodeOf (gridExtreme grid (!s)), flagSat)
  | .fin m e =>
    let hi := grid.getD (gridExtreme grid true) 0
    let lo := grid.getD (gridExtreme grid false) 0
    let out := Pred.gt.holds (.fin m e) (.ofInt hi) || Pred.lt.holds (.fin m e) (.ofInt lo)
    (gridCodeOf (gridChoose grid y), if out then flagSat else noFlags)

/-- R93 regrid: a G4 code under one grid coded under another; an escape stays (R225, R227). -/
def regrid (src dst : List Int) (code : Nat) : Nat × Flags :=
  if code = 8 ∨ src = dst then (code, noFlags) else gridCode dst (.ofInt (Fmt.g4.value src code))

/-- R92, R93: the code of an exact value in a format; for G4 the grid rule. -/
def codeOf (f : Fmt) (grid : List Int) (mode : Mode) (y : FVal) : Nat × Flags :=
  match f with
  | .g4 => gridCode grid y
  | .s4 => let (i, fl) := toIntSat mode (-8) 7 y; (unsigned 4 i, fl)
  | .u4 => let (i, fl) := toIntSat mode 0 15 y; (unsigned 4 i, fl)
  | .s8 => let (i, fl) := toIntSat mode (-128) 127 y; (unsigned 8 i, fl)
  | .u8 => let (i, fl) := toIntSat mode 0 255 y; (unsigned 8 i, fl)

/-- One element as PACK sees it: a value to code, or a position that it codes as 0x0 (R119, R121). -/
inductive PackElem where
  | coded (x : FVal)
  | none
  deriving DecidableEq, Repr

/-- The magnitude of a finite element (R106, R229): none for NaN, infinities and uncoded positions. -/
def PackElem.mag : PackElem → Option FVal
  | .coded (.fin m e) => some (.fin m.natAbs e)
  | _ => Option.none

/-- Insert a candidate, greater magnitudes first, equal ones in order of position. -/
def insertCand (c : Nat × FVal) : List (Nat × FVal) → List (Nat × FVal)
  | [] => [c]
  | d :: t => if Pred.gt.holds c.2 d.2 then c :: d :: t else d :: insertCand c t

/-- R229 steps 1, 2: the candidates of a block, ranked. -/
def candidates (es : List PackElem) : List (Nat × FVal) :=
  (List.range es.length).foldl (fun acc i =>
    match (es.getD i .none).mag with
    | some v => insertCand (i, v) acc
    | none => acc) []

/-- The ratio of ESC_RATIO (R228). -/
def escRatio (r : Nat) : Nat := [2, 3, 4, 6, 8, 12, 16, 32].getD r 2

/-- R229 steps 3, 4: the positions in the block that are escaped. -/
def chooseEsc (rho : Nat) : Nat → List (Nat × FVal) → List Nat
  | 0, _ => []
  | _ + 1, [] => []
  | n + 1, (p, a) :: t =>
    let b := match t with | [] => FVal.zero | (_, v) :: _ => v
    let rb := (b.mul (.ofInt rho)).1
    if Pred.gt.holds a rb && Pred.gt.holds b .zero then p :: chooseEsc rho n t else []

/-- The plan of a block: its exponent and the positions within it that R229 escapes. -/
structure BlockPlan where
  exp : Nat
  escs : List Nat
  deriving DecidableEq, Repr

/-- R106, R229, R878: the plan of a block. -/
def planBlock (f : Fmt) (grid : List Int) (escMax ratio : Nat) (es : List PackElem) : BlockPlan :=
  let escs := if f = .g4 then chooseEsc (escRatio ratio) escMax (candidates es) else []
  let m := (List.range es.length).foldl (fun acc i =>
    if escs.contains i then acc else
      match (es.getD i .none).mag with | some v => acc.max v | none => acc) FVal.zero
  let q := f.limit grid
  match m with
  | .fin a e => if a = 0 ∨ q = 0 then { exp := 255, escs := [] }
                else { exp := chooseExp a.natAbs e q, escs := escs }
  | _ => { exp := 255, escs := [] }

/-- The codes of a block under its plan (R106 steps 3 and 5, R230, R231): `keep` are the escapes that are stored,
`modes` gives the rounding of each element. The second part lists the stored escapes with their H16 values. -/
def codeBlock (f : Fmt) (grid : List Int) (plan : BlockPlan) (keep : List Nat) (mode : Nat → Mode)
    (es : List PackElem) : List Nat × List (Nat × Nat) × Flags :=
  (List.range es.length).foldr (fun i (acc : List Nat × List (Nat × Nat) × Flags) =>
    let (cs, xs, fl) := acc
    match es.getD i .none with
    | .none => (0 :: cs, xs, fl)
    | .coded x =>
      if plan.exp = 255 then
        let sat := match x with | .fin _ _ => noFlags | _ => flagSat
        (0 :: cs, xs, fl ||| sat)
      else
        let y := x.scale (127 - (plan.exp : Int))
        if keep.contains i then
          let (h, hf) := encH16 .rne y
          (8 :: cs, (i, h) :: xs, fl ||| hf)
        else
          let (c, cf) := codeOf f grid (mode i) y
          (c :: cs, xs, fl ||| cf)) ([], [], noFlags)

end Sys2Proof.Machine
end

