-- ==== Sys2Proof/Machine/ClusterTypes.lean ====
section
/-!
DEFINITION. The state of one logical cluster (spec/07_cluster_programming.md R257 and the registers of its CSR window),
with the work its units hold. Every structure is plain data; a table lists what differs from its default.
-/
namespace Sys2Proof.Machine

/-- The operand tag of a tile register (R133). `fmt` none is FORMAT NONE (R258). Block exponents are keyed by
`row * 8 + element column / 32`, line exponents by `slab * 128 + index`; an absent one is 0xFF. -/
structure Tag where
  fmt : Option Fmt := none
  exps : Tab Nat := []
  lines : Tab Nat := []
  lineAxis : Bool := false
  grid : List Int := []
  clAddr : Nat := 0
  clCap : Nat := 0
  clCount0 : Nat := 0
  clCount1 : Nat := 0
  deriving DecidableEq, Repr

/-- A tile register: 16 KiB of codes with their tag (R133), and whether it is poisoned as a whole (R485). -/
structure TileReg where
  bytes : Tab Byte := []
  tag : Tag := {}
  poison : Bool := false
  deriving DecidableEq, Repr

/-- An accumulator set (R152): wide values and the correction plane (F32 codes), keyed by `128 * i + j`. -/
structure AccSet where
  w : Tab Int := []
  c : Tab Nat := []
  xref : Int := 0
  sat : Bool := false
  poison : Bool := false
  deriving DecidableEq, Repr

/-- A lookup table (R204, R205): F32 codes. -/
structure Lut where
  invStep : Nat := 0
  offset : Nat := 0
  edgeLo : Bool := false
  edgeHi : Bool := false
  t : Tab Nat := []
  d : Tab Nat := []
  poison : Bool := false
  deriving DecidableEq, Repr

/-- A rescale table (R238, R239): an entry is the 64-bit word of S and B. -/
structure Rt where
  channels : Nat := 0
  ent : Tab Nat := []
  addr : Nat := 0
  poison : Bool := false
  deriving DecidableEq, Repr

/-- How far a write to a register has come (R355). -/
inductive WStat where
  | none | issued | done
  deriving DecidableEq, Repr

/-- A refill visit of an outstanding MMA (R354): its register, first K-step, and the writes matched to it. `need1`
says that the visit also waits for a slab 1 write once the first write filled slab 0 only. -/
structure Refill where
  reg : Nat
  start : Nat
  covers1 : Bool
  w0 : WStat := .none
  half : Bool := false
  w1 : WStat := .none
  deriving DecidableEq, Repr

/-- An issued MMA (R127, R350): its instruction word, address, K-steps made, register entries whose correction cycles
have run, narrow sums and current shifts of its cells, and its refill visits. `seq` is its place in the issue order; `held`
says that a Pour issued earlier has still to read its set (R155), and `poison` that its K-steps so far met a poisoned
register. -/
structure MmaRun where
  w : Nat
  pc : Nat
  seq : Nat := 0
  started : Bool := false
  held : Bool := false
  poison : Bool := false
  k : Nat := 0
  corr : Nat := 0
  narrow : Tab Int := []
  shift : Tab Int := []
  stopped : Bool := false
  refills : List Refill := []
  deriving DecidableEq, Repr

/-- An output that a Pour writes after its last stream row, in stage order (R197). -/
inductive PourVec where
  /-- the EMIT vector of a RESCALE (R246) -/
  | emit (addr : Nat) (vals : List Nat)
  /-- the bitmap of a MASK in DRAW mode (R192) -/
  | bitmap (addr : Nat) (bytes : List Byte)
  /-- a REDUCE: its SUB byte, AUX, address and results (R196) -/
  | reduce (sub aux addr : Nat) (vals : List Nat)
  deriving DecidableEq, Repr

/-- One item that a store slot holds: its index, target address, which the request makes one
of device `dev`, bytes, the writes that must be
visible before it (the side-list segment of R112, side-tensor elements of R122), and whether its data is poisoned. -/
structure StoreItem where
  idx : Nat
  addr : Nat
  dev : Nat := 0
  bytes : List Byte
  extra : List (Nat × List Byte) := []
  poison : Bool := false
  sent : Bool := false
  deriving DecidableEq, Repr

/-- What a started Pour will write when it completes: registers, correction-list bytes, items for a store slot, and the
outputs of its stages. -/
structure PourOut where
  regs : List (Nat × TileReg) := []
  lists : List (Nat × List Byte) := []
  slot : Nat := 0
  items : List StoreItem := []
  vecs : List PourVec := []
  poison : Bool := false
  deriving DecidableEq, Repr

/-- A write to a tile register matched to a refill visit (R354): the MMA's place in the issue order, the visit's register and
first K-step, and whether it is the slab 1 write of a pair (R355). -/
structure Fill where
  mma : Nat
  reg : Nat
  start : Nat
  second : Bool
  deriving DecidableEq, Repr

/-- An issued Pour (R175): its instruction word, address, place in the issue order and chain descriptor; the refill visits that
it serves; what it will write once it has started; and whether it issued after a step start that is still to be made (R273). -/
structure PourRun where
  w : Nat
  pc : Nat
  seq : Nat := 0
  fills : List Fill := []
  chain : List Byte
  out : Option PourOut := none
  late : Bool := false
  deriving DecidableEq, Repr

/-- One slab that a tile load delivers (R341): codes by row and byte, block exponents by `row * 4 + block`, its escapes'
correction items by order key, and its wide-channel elements: order key, item without its value, side-tensor address (R343). -/
structure SlabData where
  slab : Nat
  codes : Tab Byte := []
  exps : Tab Nat := []
  items : List (Nat × Nat) := []
  wides : List (Nat × Nat × Nat) := []
  deriving DecidableEq, Repr

/-- What a load-unit instruction does when it completes. -/
inductive LoadOp where
  /-- TLD of pods: register, format, SEL, LINE_AXIS, grid, list address and capacity, the slot's ADDR, slabs, poison -/
  | pods (td : Nat) (fmt : Fmt) (sel : Nat) (axis : Bool) (grid : List Int) (clAddr clCap via : Nat) (slabs : List SlabData)
      (poison : Bool)
  /-- TLD RAW: register, rows, poison -/
  | raw (td : Nat) (bytes : Tab Byte) (poison : Bool)
  | tlm (td addr : Nat)
  | tst (tn addr : Nat)
  | tstSlot (tn slot : Nat)
  | lut (n addr : Nat)
  /-- RTLD: table, record address, CHANNELS read at issue -/
  | rt (n addr channels : Nat)
  deriving DecidableEq, Repr

/-- A load-unit instruction (R262): its word, address and place in the issue order, the refill visits it serves, and what it
does. -/
structure LoadRun where
  w : Nat
  pc : Nat
  seq : Nat := 0
  fills : List Fill := []
  op : LoadOp
  deriving DecidableEq, Repr

/-- The states of a stream slot (R313). -/
inductive SlotState where
  | idle | configured | running | paused | done | fault
  deriving DecidableEq, Repr

/-- The encoding of a slot state in Q_STATUS (R313). -/
def SlotState.code : SlotState → Nat
  | .idle => 0 | .configured => 1 | .running => 2 | .paused => 3 | .done => 4 | .fault => 5

/-- A stream descriptor (R286). -/
structure StreamDesc where
  store : Bool := false
  pod : Bool := false
  fromTst : Bool := false
  modeRes : Nat := 0
  cls : Nat := 0
  part : Nat := 0
  ev : Nat := 0
  evEn : Bool := false
  granule : Nat := 0
  addr : Nat := 0
  f10 : Nat := 0
  f14 : Nat := 0
  stride : Nat := 0
  tRows : Nat := 0
  tCols : Nat := 0
  slA : Nat := 0
  slB : Nat := 0
  ringBase : Nat := 0
  ringItems : Nat := 0
  pfMax : Nat := 0
  pfInit : Nat := 0
  order : Bool := false
  resOk : Bool := true
  deriving DecidableEq, Repr

/-- What became of a fetched item (R292). -/
inductive ItemStat where
  | flying | ready | unfetched
  deriving DecidableEq, Repr

/-- A stream slot (R280, R288, R289, R291): for a load slot `take` is the next item to consume and `fetch` the next to
fetch; for a store slot `posA`, `posB` are the next tile (pod) or the row cursor (dense). -/
structure Slot where
  state : SlotState := .idle
  desc : StreamDesc := {}
  tensor : Option TensorDesc := none
  grid : List Int := []
  gridStale : Bool := false
  wide : List Nat := []
  dist : Nat := 0
  quiet : Nat := 0
  done : Nat := 0
  since : Nat := 0
  take : Nat := 0
  fetch : Nat := 0
  ring : Tab ItemStat := []
  side : List (Nat × Nat × Nat) := []
  sideNext : Nat := 0
  sideWait : Bool := false
  posA : Nat := 0
  posB : Nat := 0
  held : List StoreItem := []
  nextIdx : Nat := 0
  slCursor : Nat := 0
  ending : Bool := false
  deriving DecidableEq, Repr

/-- The sequencer's states (R309). -/
inductive SeqState where
  | idle | running | halting | halted
  deriving DecidableEq, Repr

/-- The encoding of STATE (R309). -/
def SeqState.code : SeqState → Nat
  | .idle => 0 | .running => 1 | .halting => 2 | .halted => 3

/-- What holds issue (R262, R263, R264): a WAIT with counter, threshold, CONSUME and the tick at which it began; a FENCE
mask; a SIGNAL or EXCH whose REL is not yet met; an instruction stalled for a unit place or a hazard (`starved` when its slot
lacks items); a scalar access
that waits for its line. `marks` are the next item of q8 to q11, the next post and the next operation at that point: what
REL waits for lies below them. -/
inductive Hold where
  | none
  | wait (ev thr : Nat) (consume : Bool) (since : Nat)
  | fence (mask : Nat) (marks : List Nat)
  | rel (w : Nat) (marks : List Nat)
  | stall (w : Nat) (starved : Bool)
  | line (w : Nat)
  deriving DecidableEq, Repr

/-- The states of a line in a scalar cache other than I (R464). -/
inductive LineState where
  | shared | exclusive | modified
  deriving DecidableEq, Repr

/-- A line of a scalar cache: 128 bytes, a dirty mask per byte (R467), and the sectors that were poisoned at the fill. -/
structure CacheLine where
  st : LineState
  data : List Byte
  dirty : Tab Bool := []
  bad : Nat := 0
  deriving DecidableEq, Repr

/-- The state of one logical cluster. -/
structure Cluster where
  st : SeqState := .idle
  ended : Bool := false
  fenced : Bool := true
  issued : Nat := 0
  haltReq : Bool := false
  pc : Nat := 0
  hold : Hold := .none
  s : Tab W64 := []
  e : Tab W64 := []
  cause : Nat := 0
  precise : Bool := false
  multi : Bool := false
  fault : Bool := false
  faultSlot : Nat := 0
  faultPc : Nat := 0
  faultAddr : Nat := 0
  kDone : Nat := 0
  mmaPc : Nat := 0
  waitLimit : Nat := 0
  transBase : Nat := 0
  transInv : Bool := false
  transBad : Bool := false
  trans : Tab Nat := []
  arith : Flags := 0#5
  podFlags : PodFlags := 0#6
  podCount : Nat := 0
  podLogged : PodFlags := 0#6
  clFull : Bool := false
  clLogged : Bool := false
  pourFault : Bool := false
  pourStage : Nat := 0
  pourCode : Nat := 0
  seeded : Bool := false
  seedStep : Nat := 0
  rtInv : BitVec 4 := 0#4
  rtInvAt : Tab Nat := []
  rtStale : BitVec 4 := 0#4
  rtLogged : Bool := false
  gridInv : Bool := false
  tiles : Tab TileReg := []
  a0 : AccSet := {}
  a1 : AccSet := {}
  luts : Tab Lut := []
  rts : Tab Rt := []
  gens : Tab W64 := []
  slots : Tab Slot := []
  mma0 : Option MmaRun := none
  mma1 : Option MmaRun := none
  pour0 : Option PourRun := none
  pour1 : Option PourRun := none
  load0 : Option LoadRun := none
  load1 : Option LoadRun := none
  stepStart : Bool := false
  cache : Tab CacheLine := []
  deriving DecidableEq, Repr

end Sys2Proof.Machine
end

