-- ==== Sys2Proof/Machine/StepTypes.lean ====
section
/-!
DEFINITION. The state of training steps (spec/09_training_step.md) and of the state stream (spec/10_state_stream.md):
schedule, shards, verified fetches, norm watch, generations, records, twin binding and twin log.
-/
namespace Sys2Proof.Machine

/-- One step kind of the schedule (R367): its PHASE_MASK and the five PREF bytes. -/
structure StepKind where
  mask : Nat := 0
  pref : List Nat := []
  deriving DecidableEq, Repr

/-- The step schedule (R367). -/
structure Schedule where
  kinds : List StepKind := []
  pattern : List Nat := []
  verdictEv : Nat := 0
  verdictEn : Bool := false
  policy : Nat := 0
  stallMs : Nat := 0
  firstStep : Nat := 0
  deriving DecidableEq, Repr

/-- An entry of the shard table (R379). -/
structure Shard where
  id : Nat
  owner : Nat
  slot : Nat
  slow : Bool
  delay : Nat
  momS8 : Bool
  factored : Bool
  opt : Nat
  bytes : Nat
  image : Nat
  master : Nat
  moment : Nat
  factor : Nat
  pend : Nat
  desc : Nat
  descCount : Nat
  deriving DecidableEq, Repr

/-- The states of a watch input (R408). -/
inductive WatchState where
  | off | learn | armed | tripped
  deriving DecidableEq, Repr

/-- The encoding of STATE in NW_STATE (R408). -/
def WatchState.code : WatchState → Nat
  | .off => 0 | .learn => 1 | .armed => 2 | .tripped => 3

/-- The part of a watch input that the committed copy keeps (R407): state, COUNT, EMA, CLAMP as F32 codes. -/
structure WatchKeep where
  state : WatchState := .off
  count : Nat := 0
  ema : Nat := 0
  clamp : Nat := 0
  obs : Nat := 0
  deriving DecidableEq, Repr

/-- A watch input: its configuration (R402), kept state, BAD and LATE (R408), and the window's posts: whether any was
made, whether any was not finite, and their exact sum in units of 2 ^ -149 (R403). `nanV` marks a watched value that is
NaN, `limit` is L of R404. -/
structure WatchInput where
  mode : Nat := 0
  policy : Nat := 0
  alpha : Nat := 0
  thresh : Nat := 0
  floor : Nat := 0
  keep : WatchKeep := {}
  bad : Bool := false
  late : Bool := false
  posted : Bool := false
  notFinite : Bool := false
  sum : Int := 0
  v : Nat := 0
  nanV : Bool := false
  limit : Nat := 0
  observed : Bool := false
  deriving DecidableEq, Repr

/-- A verified fetch (R393): its post, its shard entry, how often the image was read, since when it waits, and what the record
says: DIGEST, VERSION, IMAGE_ADDR. Stages: 0 the record is being read, 1 it was not valid or stale, 2 the image is being read, 4 the
image matches, 5 three mismatches. -/
structure Fetch where
  post : Nat
  entry : Nat
  stage : Nat := 0
  reads : Nat := 0
  since : Nat := 0
  lastRead : Nat := 0
  digest : Nat := 0
  version : Nat := 0
  addr : Nat := 0
  deriving DecidableEq, Repr

/-- A doorbell whose digest is being formed (R387). -/
structure Doorbell where
  slot : Nat
  cluster : Nat
  ev : Nat
  evEn : Bool
  version : Nat
  deriving DecidableEq, Repr

/-- The step control block (R376) and the step's logic. PHASE is as STEP_STATUS encodes it: 0–4 a phase, 5 verdict
reduction, 6 barrier, 7 no job. -/
structure StepSt where
  phase : Nat := 7
  pref : Nat := 0
  verdict : Nat := 0
  verdictValid : Bool := false
  kind : Nat := 0
  arrived : List Nat := []
  skew : Bool := false
  pubRefused : Bool := false
  number : Nat := 0
  fetchRetry : Nat := 0
  inert : Nat := 0
  valueRepair : Nat := 0
  phaseSince : Nat := 0
  waitSince : Nat := 0
  windowOpen : Bool := false
  expect : Nat := 0
  u : Nat := 0
  rerunStep : Nat := 0
  endAfter : Option Nat := none
  /-- a barrier's contribution has been posted, and the step that the barrier opens -/
  posted : Bool := false
  opens : Option Nat := none
  starting : Bool := false
  pausedAt : Nat := 0
  /-- the latest steps in which UPDATE ran, newest first (R391), and the watch as each step left it (R407) -/
  updated : List Nat := []
  watchPast : List (Nat × Tab WatchKeep) := []
  exportChange : Option Bool := none
  doorbells : List Doorbell := []
  fetches : List Fetch := []
  updateBegun : Bool := false
  faultPending : Bool := false
  /-- failure handling is to begin, whatever FAULT_POLICY says (R375, R409, R570) -/
  failing : Bool := false
  stopReceived : Bool := false
  deriving DecidableEq, Repr

/-- A generation of the delta log (R417). -/
inductive GenState where
  | free | pre | delta
  deriving DecidableEq, Repr

/-- The encoding of a generation's state (R449). -/
def GenState.code : GenState → Nat
  | .free => 0 | .pre => 1 | .delta => 2

/-- A generation: its state, the update step it serves and that step's number, and whether its copy is complete. -/
structure Gen where
  state : GenState := .free
  u : Nat := 0
  step : Nat := 0
  copied : Bool := false
  deriving DecidableEq, Repr

/-- A state-stream record (R420) with its payload; a FULL carries the origin's difference after it (R429). -/
structure Record where
  type : Nat
  region : Nat := 0
  shard : Nat := 0
  step : Nat := 0
  seq : Nat := 0
  origin : Nat := 0
  length : Nat := 0
  offset : Nat := 0
  boff : Nat := 0
  oldDig : Nat := 0
  newDig : Nat := 0
  payload : List (BitVec 8) := []
  diff : List (BitVec 8) := []
  deriving DecidableEq, Repr

/-- An owned region (R415): its shard, kind, device address, padded length and backup-space offset. -/
structure Region where
  shard : Nat
  kind : Nat
  addr : Nat
  bytes : Nat
  boff : Nat
  deriving DecidableEq, Repr

/-- The twin's backup that this device holds (R412), with the origin it serves, the records of R427 and R431, and
the latest committed step that the origin told (R433). -/
structure Binding where
  base : Nat
  bytes : Nat
  tlogBase : Nat
  tlogBytes : Nat
  source : Nat
  tag : Nat := 0
  log : List Record := []
  applied : List Nat := []
  endWait : Option Record := none
  committed : Nat := 0
  deriving DecidableEq, Repr

/-- The state-stream block (R448) and engine. -/
structure StreamSt where
  logBase : Nat := 0
  logBytes : Nat := 0
  twinless : Nat := 0
  exportEn : Bool := false
  exportTag : Nat := 0
  exportDest : Nat := 0
  exportBase : Nat := 0
  exported : Nat := 0
  twin : Nat := 0
  twinDev : Nat := 0
  twinlessRun : Bool := false
  exportOn : Bool := false
  gen0 : Gen := {}
  gen1 : Gen := {}
  stopped : Bool := false
  restoring : Bool := false
  exportLag : Bool := false
  committed : Nat := 0
  acked : Nat := 0
  seq : Nat := 0
  formed : List Record := []
  unsent : List Record := []
  sent : List Record := []
  nakCount : Tab Nat := []
  nakNew : Nat := 0
  nakOld : Nat := 0
  inert : Nat := 0
  twinValue : Nat := 0
  binding : Option Binding := none
  /-- the regions of the backup space (R415), the latest step whose last phase ended, bytes that may now be sent (R424), and
  what was sent that is not acknowledged, by destination -/
  regions : List Region := []
  ended : Nat := 0
  credit : Nat := 0
  msgs : List (DevId × Record) := []
  deriving DecidableEq, Repr

end Sys2Proof.Machine
end

