-- ==== Sys2Proof/Machine/SystemTypes.lean ====
section
/-!
DEFINITION. The state of the memory system (spec/11_memory.md), of the loaded job (spec/20_commands.md R766 to R773) and
of the unit state table (spec/19_mailboxes.md R757).
-/
namespace Sys2Proof.Machine

/-- A line of the memory-side cache (R460): its way, its line number, and a valid and a dirty bit per sector. -/
structure SideLine where
  way : Nat
  tag : Nat
  valid : Nat := 0
  dirty : Nat := 0
  deriving DecidableEq, Repr

/-- A set of a slice (R459, R460): its lines and the 15 bits of the tree. -/
structure SideSet where
  lines : List SideLine := []
  plru : Nat := 0
  deriving DecidableEq, Repr

/-- A directory entry (R464): the line's address, its owner or its sharers. -/
structure DirEntry where
  line : Nat
  owner : Option Nat := none
  sharers : List Nat := []
  deriving DecidableEq, Repr

/-- A request for a line that waits at its home (R465, R466): the requester, whether it needs ownership, and the agent
from which the line has been recalled. -/
structure LineReq where
  line : Nat
  who : Nat
  own : Bool
  recalled : Option Nat := none
  deriving DecidableEq, Repr

/-- A cache slice with its part of the directory; entries are in order of use, most recent first (R468). -/
structure Slice where
  ways : Nat := 0xFFFF
  ce : Nat := 0
  dirEvict : Nat := 0
  ptr : Nat := 0
  dir : List DirEntry := []
  reqs : List LineReq := []
  sets : Tab SideSet := []
  deriving DecidableEq, Repr

/-- A regulated request that a stack holds (R479): its size in sectors. -/
structure StackReq where
  part : Nat
  sectors : Nat
  deriving DecidableEq, Repr

/-- A partition of a stack (R479, R494). Tokens are counted in 1/16 of a sector, the step of CAP × 0.3125; credit in
1/256 of a sector. -/
structure Part where
  min : Nat := 0
  cap : Nat := 256
  burst : Nat := 1024
  sectors : Nat := 0
  tok : Int := 0
  cred : Int := 0
  deriving DecidableEq, Repr

/-- A stack with its controller (R488 to R494); `tok` is the bucket of the stack cap (R489), in 1/16 of a sector. -/
structure Stack where
  temp : Nat := 0
  level : Nat := 0
  refresh2x : Bool := false
  hot : Bool := false
  tempMax : Nat := 0
  lastRead : Nat := 0
  missing : Bool := false
  ce : Nat := 0
  ue : Nat := 0
  classMap : List Nat := [0, 0, 0, 0, 0]
  parts : Tab Part := []
  queue : List StackReq := []
  last1 : Nat := 15
  last2 : Nat := 15
  tok : Int := 0
  deriving DecidableEq, Repr

/-- The memory system (R451 to R495): HBM_TOP and the ACTIVE pseudo-channels in the order of R456, slices, stacks, the
place of the patrol scrub, the units whose error was already logged (R486), and the words once found uncorrectable (R830 event 8). -/
structure MemSt where
  hbmTop : Nat := 0
  channels : List Nat := []
  slices : Tab Slice := []
  stks : Tab Stack := []
  scrub : Nat := 0
  logged : List Nat := []
  found : List Nat := []
  deriving DecidableEq, Repr

/-- A stage (R773): tag, station, range. -/
structure Stage8 where
  num : Nat
  job : Nat
  station : Nat
  base : Nat
  length : Nat
  deriving DecidableEq, Repr

/-- JOB_STATE (R766). -/
inductive JobState where
  | none | staging | loaded | running | paused | halted | stopped | ended
  deriving DecidableEq, Repr

/-- The codes of JOB_STATE (R766). -/
def JobState.code : JobState → Nat
  | .none => 0 | .staging => 1 | .loaded => 2 | .running => 3 | .paused => 4 | .halted => 5 | .stopped => 6 | .ended => 7

/-- The job record (R770) and the copies of the structures that the job load read. -/
structure JobSt where
  state : JobState := .none
  tag : Nat := 0
  seeded : Bool := false
  rank : Nat := 0
  seed : Nat := 0
  scheduleAddr : Nat := 0
  shardAddr : Nat := 0
  watchAddr : Nat := 0
  optAddr : Nat := 0
  rankAddr : Nat := 0
  pubBase : Nat := 0
  transBase : Nat := 0
  streamCfg : Nat := 0
  ingest : Nat := 0
  ingestCount : Nat := 0
  controller : Option Nat := none
  images : Nat := 0
  regCfg : Nat := 0
  waitLimit : Nat := 0
  ranks : List Nat := []
  sched : Schedule := {}
  shards : List Shard := []
  entries : Tab Nat := []
  stages : List Stage8 := []
  started : Bool := false
  deriving DecidableEq, Repr

/-- The states of a retirable unit (R757). -/
inductive UnitState where
  | active | fenced | retired | spare | test
  deriving DecidableEq, Repr

/-- The codes of STATE (R757). -/
def UnitState.code : UnitState → Nat
  | .active => 0 | .fenced => 1 | .retired => 2 | .spare => 3 | .test => 4

/-- The state a code names (R757). -/
def unitStateOf : Nat → Option UnitState
  | 0 => some .active | 1 => some .fenced | 2 => some .retired | 3 => some .spare | 4 => some .test | _ => none

/-- An entry of the unit state table (R757), with the unit's fence bit in the data path (R758). -/
structure UnitEnt where
  state : UnitState := .spare
  pending : Bool := false
  logical : Nat := 0xFFFF
  since : Nat := 0
  fence : Bool := true
  deriving DecidableEq, Repr

/-- The identifier of a unit (R757). -/
def unitId (cls idx : Nat) : Nat := cls * 2 ^ 28 + idx

end Sys2Proof.Machine
end

