-- ==== Sys2Proof/Machine/ServiceTypes.lean ====
section
/-!
DEFINITION. The state of Huddle, the system tick and Relay (spec/13_huddle_and_relay.md) and of the standard interfaces
(spec/14_external_interfaces.md).
-/
namespace Sys2Proof.Machine

/-- An operation block (R558). -/
structure OpBlock where
  seq : Nat
  ops : List Nat := []
  parts : Nat := 0
  effect : Nat := 0
  vals : List Nat := []
  deriving DecidableEq, Repr

/-- An operation in progress at this node (R564): sequence space, whether this device has contributed, the children
that have, the combined block, when H_UP was last sent, and whether contributions differed (R568). -/
structure HudOp where
  sys : Bool
  seq : Nat
  own : Bool := false
  from_ : List Nat := []
  block : OpBlock
  upAt : Option Nat := none
  mismatch : Bool := false
  deriving DecidableEq, Repr

/-- What a SYS operation of Nganor stands for (R566). -/
inductive SysKind where
  | jobStart | stepBarrier | verdict | closing
  deriving DecidableEq, Repr

/-- A post slot (R567, R589). -/
structure PostSlot where
  ops : Nat := 0
  vals : Tab Nat := []
  state : Nat := 0
  mismatch : Bool := false
  seq : Nat := 0
  count : Nat := 0
  ev : Nat := 0
  evEn : Bool := false
  cluster : Nat := 0
  deriving DecidableEq, Repr

/-- A change that waits for a synchronised count (R578, R579): the count and what changes. -/
inductive SyncChange where
  /-- the job ceiling CEIL (R666) -/
  | ceil (p : Nat)
  /-- the effective operating step (R371, R660) -/
  | effective (p : Nat)
  /-- REF_CFG takes effect (R701) -/
  | refCfg (v : Nat)
  /-- a switch of the reference (R700, R704) -/
  | refSwitch
  deriving DecidableEq, Repr

/-- The states of the tick (R575). -/
inductive TickState where
  | free | acquiring | locked | holdover
  deriving DecidableEq, Repr

/-- The codes of TICK_STATUS.STATE (R588). -/
def TickState.code : TickState → Nat
  | .free => 0 | .acquiring => 1 | .locked => 2 | .holdover => 3

/-- The Huddle block (R587): job tree, posts, the system tick's service, Relay. `burst` lists the exchanges of the burst under way
(T1 to T4), `burstLeft` those still to start; `credit` is in 1e-9 W, `mintAcc` in 1e-9 of a token; `nextUp` and `nextDown` are the
grants of this round, `moveUp` and `moveDown` those that move PCEIL, from `moveFrom`, in it (R582). -/
structure HuddleSt where
  treeEpoch : Nat := 0
  levels : Nat := 0
  postBusy : Bool := false
  mismatch : Bool := false
  syncLate : Bool := false
  resends : Nat := 0
  slots : Tab PostSlot := []
  seqProg : Nat := 0
  seqSys : Nat := 0
  ops : List HudOp := []
  doneProg : List OpBlock := []
  doneSys : List OpBlock := []
  sysKinds : List (Nat × SysKind) := []
  seen : List (Nat × Nat × Nat) := []
  changes : List (Nat × SyncChange) := []
  tickState : TickState := .free
  tickRoot : Nat := 0
  tickRoot2 : Nat := 0
  isRoot : Bool := false
  lockLost : Bool := false
  offset : Int := 0
  parent : Nat := 0
  goodBursts : Nat := 0
  burst : List (Nat × Nat × Nat × Nat) := []
  burstAt : Nat := 0
  burstLeft : Nat := 0
  lastReply : Nat := 0
  stepped : Bool := false
  useRoot : Nat := 0
  slew : Int := 0
  slewAcc : Int := 0
  relayMode : Bool := false
  rampRate : Nat := 0x4C
  rampMax : Nat := 0x7D0
  siteRate : Nat := 0
  siteBurst : Nat := 0
  pceil : Nat := 0
  grant : Nat := 0
  fallback : Bool := false
  grantMissed : Bool := false
  credit : Nat := 0
  round : Nat := 0
  demandUp : Nat := 0
  demandDown : Nat := 0
  childUp : List (Nat × Nat) := []
  childDown : List (Nat × Nat) := []
  rotUp : Option Nat := none
  rotDown : Option Nat := none
  mintAcc : Nat := 0
  poolUp : Nat := 0
  poolDown : Nat := 0
  missed : Nat := 0
  levelDone : Bool := false
  gotGrant : Bool := false
  nextUp : Nat := 0
  nextDown : Nat := 0
  moveFrom : Nat := 0
  moveUp : Nat := 0
  moveDown : Nat := 0
  deriving DecidableEq, Repr

/-- The states of a queue pair (R593, R598). -/
inductive QpState where
  | ready | error
  deriving DecidableEq, Repr

/-- A queue pair (R593, R596, R597). -/
structure Qp where
  plane : Nat
  localIp : Nat
  remoteIp : Nat
  remoteMac : Nat
  remoteQpn : Nat
  sqPsn : Nat
  rqPsn : Nat
  dscp : Nat
  ackTimeout : Nat
  retry : Nat
  rnrRetry : Nat
  state : QpState := .ready
  /-- sends not yet acknowledged, oldest first: PSN and payload -/
  out : List (Nat × List (BitVec 8)) := []
  /-- when the oldest of them was last sent, and the tries that are left (R597) -/
  sentAt : Nat := 0
  tries : Nat := 7
  rnrTries : Nat := 7
  /-- occupied receive slots -/
  recvUsed : Nat := 0
  msn : Nat := 0
  cnpAt : Option Nat := none
  /-- a WRITE First whose Middle or Last is still to come: R_Key, next offset, bytes left (R602) -/
  write : Option (Nat × Nat × Nat) := none
  deriving DecidableEq, Repr

/-- A packet that the KT9 sends on a QP: ACK or NAK with its syndrome, CNP, or SEND Only (R592). -/
inductive RoceOut where
  | ack (qpn psn syndrome msn : Nat)
  | cnp (qpn : Nat)
  | send (qpn psn : Nat) (payload : List (BitVec 8))
  deriving DecidableEq, Repr

/-- The ingest block (R606) with the queue pairs. -/
structure IngestSt where
  qps : Tab Qp := []
  gens : Tab Nat := []
  refused : Bool := false
  qpError : Bool := false
  cnpSent : Nat := 0
  stray : Nat := 0
  cnpSeen : Nat := 0
  out : List RoceOut := []
  deriving DecidableEq, Repr

/-- The management port (R607 to R609): addresses, lease, ARP cache (address, MAC, time), echo replies of this second,
frames sent (as descriptions: kind, peer, payload). -/
structure MgmtSt where
  mac : Nat := 0
  ip : Nat := 0
  lease : Option (Nat × Nat) := none
  arp : List (Nat × Nat × Nat) := []
  echoAt : Nat := 0
  echoes : Nat := 0
  sent : List (Nat × Nat × List (BitVec 8)) := []
  deriving DecidableEq, Repr

/-- The coolant record as latched (R612), with the time of the latch. -/
structure Coolant where
  inlet : Int := 0
  outlet : Int := 0
  flow : Nat := 0
  valid : Nat := 0
  seq : Nat := 0
  at_ : Nat := 0
  have_ : Bool := false
  deriving DecidableEq, Repr

/-- The SMBus target (R610 to R612): address, read offset of mailbox 0's response buffer, coolant record, counts, and
the bytes of the last read. -/
structure SmbusSt where
  addr : Nat := 0x4C
  rdptr : Nat := 0
  coolant : Coolant := {}
  coolantOk : Nat := 0
  pecErrors : Nat := 0
  reply : List (BitVec 8) := []
  acked : Bool := true
  deriving DecidableEq, Repr

/-- The PMBus host (R613 to R617): the regulator's address, latest telemetry as raw words by command code, setpoint in
millivolts, failures in a row, and the commands it sent. -/
structure PmbusSt where
  addr : Nat := 0x40
  telemetry : Tab Nat := []
  stale : Bool := false
  lost : Bool := false
  fails : Nat := 0
  voutMode : Nat := 0x14
  setpoint : Nat := 1800
  alert : Bool := false
  sent : List (Nat × Nat) := []
  deriving DecidableEq, Repr

/-- The TAP's instruction (R622). -/
inductive TapInstr where
  | idcode | samplePreload | extest | clamp | highz | unlockChal | unlockResp | debug | bypass
  deriving DecidableEq, Repr

/-- The JTAG TAP (R621, R622) and debug unlock (R812 to R814). -/
structure DebugSt where
  ir : TapInstr := .idcode
  shiftOut : List (BitVec 8) := []
  challenge : Option (List (BitVec 8)) := none
  tries : Nat := 0
  unlocked : Bool := false
  /-- the SCOPE bits that were signed (R813, R814) -/
  scope : Nat := 0
  /-- the boundary-scan cells as last loaded (R621) -/
  cells : List Bool := []
  deriving DecidableEq, Repr

/-- The console (R623): whole lines in the transmit buffer, the lines dropped and sent, and how far the first line is (in 1e-9 byte). -/
structure UartSt where
  lines : List (List (BitVec 8)) := []
  dropped : Nat := 0
  sent : List (List (BitVec 8)) := []
  acc : Nat := 0
  deriving DecidableEq, Repr

end Sys2Proof.Machine
end

