-- ==== Sys2Proof/Machine/Wire.lean ====
section
/-!
DEFINITION. What reaches the block from outside, as the commands carry it: Ethernet frames (R501 to R506), RoCEv2 packets
(R592), management frames (R609), mailbox frames (R751), and the outcomes of the part's own physical checks.
-/
namespace Sys2Proof.Machine

/-- How the check bits of what a step reads came out (R482, R831): no error, a correction, an uncorrectable sector whose
second read delivered, an uncorrectable unit. -/
inductive Ecc where
  | clean | corrected | second | uncorrectable
  deriving DecidableEq, Repr

/-- A received Ethernet frame. MAC addresses are numbers of 48 bits whose most significant octet is octet 0 (R502);
`body` is what follows the EtherType, without the FCS. -/
structure Frame where
  fcsOk : Bool := true
  dst : Nat
  src : Nat
  tagged : Bool := true
  etype : Nat
  body : List (BitVec 8)
  deriving DecidableEq, Repr

/-- A received RoCEv2 packet whose ICRC and checksum passed (R592, R594): lane, addresses, destination QP, PSN, place in
its message (0 First, 1 Middle, 2 Last, 3 Only), RETH, ImmDt, AETH, whether it was marked CE, payload. -/
structure RocePkt where
  lane : Nat
  dstIp : Nat
  srcIp : Nat
  qpn : Nat
  psn : Nat
  place : Nat := 3
  va : Nat := 0
  rkey : Nat := 0
  dmaLen : Nat := 0
  imm : Nat := 0
  syndrome : Nat := 0
  ce : Bool := false
  payload : List (BitVec 8) := []
  deriving DecidableEq, Repr

/-- A frame of the management port (R609): VLAN identifier, size, addresses, whether it asks or answers, payload. -/
structure MgmtFrame where
  vid : Option Nat := none
  size : Nat := 64
  srcMac : Nat
  srcIp : Nat
  dstIp : Nat
  request : Bool := true
  plainIp : Bool := true
  payload : List (BitVec 8) := []
  deriving DecidableEq, Repr

/-- A mailbox frame from an owner (R751) without its KIND; `port` is the mailbox of the UDP port, none over Ilric. -/
structure MbIn where
  src : Owner
  port : Option Nat := none
  version : Nat := 1
  mbox : Nat
  res : Nat := 0
  offset : Nat := 0
  len : Nat := 0
  tag : Nat := 0
  seq : Nat := 0
  arg : Nat := 0
  data : List (BitVec 8) := []
  deriving DecidableEq, Repr

/-- What the loss and frequency monitors found of a source over a 1 ms window (R702): whether an edge was missing for
50 ns, whether edges come as the window ends, and the deviation in ppb. -/
structure WindowResult where
  lost : Bool
  live : Bool
  ppb : Int
  deriving DecidableEq, Repr

/-- What the jitter and duty-cycle test measured of a source (R702, R703): ps peak to peak, duty cycle in 0.1 percent. -/
structure TestResult where
  jitter : BitVec 16
  duty : BitVec 10
  deriving DecidableEq, Repr

/-- A region generator (R705). -/
inductive Generator where
  | slot (k : Fin 288) | slice (k : Fin 24) | mesh (k : Fin 2) | phy (k : Fin 12) | engine (e : Fin 16) | hub
  deriving DecidableEq, Repr

end Sys2Proof.Machine
end

