-- ==== Sys2Proof/Syntax.lean ====
section
/-!
DEFINITION. The commands of the block: one constructor per row of spec/opcode_table.json, in the table's order (R14 to R22,
spec/95_what_each_step_holds.md). A command of a tile instruction carries the logical cluster `c` that issues it and bits
[127:8] of its word; the opcode in bits [7:0] is the command itself (R315). What the part reads from the physical world
(a sensor, a frame, a check) is an operand.
-/
namespace Sys2Proof

/-- The commands. -/
inductive Instr where
  /-- NOP: The sequencer issues a NOP, which does nothing but advance PC (R319). -/
  | nop (c : BitVec 8) (bits : BitVec 120)
  /-- JUMP: The sequencer jumps to a relative or indirect target and writes the link address (R320). -/
  | jump (c : BitVec 8) (bits : BitVec 120)
  /-- BR: The sequencer compares two operands and branches when the condition holds (R319). -/
  | br (c : BitVec 8) (bits : BitVec 120)
  /-- LOOP: The sequencer decrements the loop count register and branches while the result is non-zero (R321). -/
  | loop (c : BitVec 8) (bits : BitVec 120)
  /-- WAIT: The sequencer holds issue until the named event counter reaches its threshold (R271). -/
  | wait (c : BitVec 8) (bits : BitVec 120)
  /-- WAIT_SATISFIED: A held WAIT finds its counter at or above the threshold, optionally subtracts it, and releases
  issue (R324). -/
  | waitSatisfied (c : BitVec 8)
  /-- WAIT_TIMEOUT: A WAIT unsatisfied for longer than WAIT_LIMIT ends in a WAIT_TIMEOUT instruction fault (R272).
  -/
  | waitTimeout (c : BitVec 8)
  /-- SIGNAL: The sequencer posts an add to a counter of a local or remote cluster, after REL and UNITS when set
  (R326). -/
  | signal (c : BitVec 8) (bits : BitVec 120)
  /-- HALT: The HALT instruction halts the cluster and sets ENDED (R322). -/
  | halt (c : BitVec 8) (bits : BitVec 120)
  /-- ALU: The sequencer computes a register-register scalar operation selected by FUNC (R329). -/
  | alu (c : BitVec 8) (bits : BitVec 120)
  /-- ALUI: The sequencer computes a register-immediate scalar operation selected by FUNC (R329). -/
  | alui (c : BitVec 8) (bits : BitVec 120)
  /-- LD: The sequencer performs a scalar load from a device address (R331). -/
  | ld (c : BitVec 8) (bits : BitVec 120) (ecc : Machine.Ecc)
  /-- ST: The sequencer performs a scalar store to a device address (R331). -/
  | st (c : BitVec 8) (bits : BitVec 120)
  /-- EVSET: The sequencer writes a value into an event counter (R334). -/
  | evset (c : BitVec 8) (bits : BitVec 120)
  /-- EVSUB: The sequencer subtracts a value from an event counter (R334). -/
  | evsub (c : BitVec 8) (bits : BitVec 120)
  /-- EVRD: The sequencer reads an event counter into a scalar register (R334). -/
  | evrd (c : BitVec 8) (bits : BitVec 120)
  /-- QCFG: The sequencer reads a stream descriptor into a slot, optionally launching it (R336). -/
  | qcfg (c : BitVec 8) (bits : BitVec 120) (remote : Option (List Byte))
  /-- QGO: The sequencer launches a configured stream slot after checking its descriptors (R336). -/
  | qgo (c : BitVec 8) (bits : BitVec 120) (remote : Option (List Byte))
  /-- QEND: The sequencer ends a stream slot, discarding unconsumed load items or finishing held store items (R337).
  -/
  | qend (c : BitVec 8) (bits : BitVec 120)
  /-- TLD: The load unit fills a tile register from a load slot's pods or raw rows and writes its tag and correction
  list (R339). -/
  | tld (c : BitVec 8) (bits : BitVec 120) (grid : Option (List Byte))
  /-- TLM: The load unit copies 16 KiB from local store into a tile register with tag FORMAT NONE (R347). -/
  | tlm (c : BitVec 8) (bits : BitVec 120)
  /-- TST: The load unit writes a tile register's raw rows to local store or to a dense store slot (R348). -/
  | tst (c : BitVec 8) (bits : BitVec 120)
  /-- LUTLD: The load unit loads a lookup table from its record and forms the differences (R205). -/
  | lutld (c : BitVec 8) (bits : BitVec 120)
  /-- RTLD: The load unit checks a rescale record header and loads the rescale table (R240). -/
  | rtld (c : BitVec 8) (bits : BitVec 120)
  /-- MMA: The matrix array accumulates an integer tile product into accumulator set a0 or a1 (R127). -/
  | mma (c : BitVec 8) (bits : BitVec 120)
  /-- POUR: The vector engine streams a source through a chain of up to eight stages to one destination (R175). -/
  | pour (c : BitVec 8) (bits : BitVec 120)
  /-- EXCH_WRITE: The exchange engine posts a point-to-point WRITE (R542). -/
  | exchWrite (c : BitVec 8) (bits : BitVec 120)
  /-- EXCH_READ: The exchange engine posts a point-to-point READ, or a verified fetch when VERIFY is set (R542). -/
  | exchRead (c : BitVec 8) (bits : BitVec 120)
  /-- EXCH_REDUCE_WRITE: The exchange engine posts a REDUCE_WRITE to a remote address (R542). -/
  | exchReduceWrite (c : BitVec 8) (bits : BitVec 120)
  /-- EXCH_ATOMIC: The exchange engine posts an atomic ADD, FETCH_ADD, SWAP or CAS (R542). -/
  | exchAtomic (c : BitVec 8) (bits : BitVec 120)
  /-- REDUCE_SCATTER: The exchange engine posts a reduce-scatter collective over a group (R546). -/
  | reduceScatter (c : BitVec 8) (bits : BitVec 120)
  /-- ALL_GATHER: The exchange engine posts an all-gather collective over a group (R546). -/
  | allGather (c : BitVec 8) (bits : BitVec 120)
  /-- ALL_TO_ALL: The exchange engine posts an all-to-all collective over a group (R546). -/
  | allToAll (c : BitVec 8) (bits : BitVec 120)
  /-- BROADCAST: The exchange engine posts a broadcast collective from member 0 (R546). -/
  | broadcast (c : BitVec 8) (bits : BitVec 120)
  /-- EXCH_COMPLETE: An exchange-engine post completes and makes its counter arrival (R542). -/
  | exchComplete (post : Nat)
  /-- FENCE: The sequencer holds issue until the named UNITS, REL and ACQ conditions are met (R275). -/
  | fence (c : BitVec 8) (bits : BitVec 120)
  /-- FENCE_COMPLETE: A held FENCE finds its conditions met and releases issue, discarding run-ahead items for ACQ
  (R363). -/
  | fenceComplete (c : BitVec 8)
  /-- UNIT_ENTRY: An instruction stalled at issue for lack of a unit place or for a hazard enters its unit (R263).
  -/
  | unitEntry (c : BitVec 8) (grid : Option (List Byte))
  /-- MMA_START: A queued MMA makes its first K-step once the array and its set and register waits allow (R155). -/
  | mmaStart (c : BitVec 8)
  /-- REFILL_VISIT: An MMA waiting at a refill visit proceeds once the matched write to the register completes
  (R355). -/
  | refillVisit (c : BitVec 8)
  /-- CORRECTION_CYCLES: The vector engine runs the fixed correction cycles for a register that an MMA enters
  (R151). -/
  | correctionCycles (c : BitVec 8)
  /-- MMA_COMPLETE: An MMA makes its final promotion and corrections and its set becomes ready for a drain (R159).
  -/
  | mmaComplete (c : BitVec 8)
  /-- MMA_PROGRESS_STOP: A halted MMA reaches its next K-progress point, promotes and stops (R160). -/
  | mmaProgressStop (c : BitVec 8) (k : BitVec 24)
  /-- POUR_START: An issued Pour reads its first row once the engine is idle and its source is ready (R214). -/
  | pourStart (c : BitVec 8) (grid : Option (List Byte))
  /-- POUR_COMPLETE: A Pour writes its last row and its REDUCE totals and completes (R214). -/
  | pourComplete (c : BitVec 8)
  /-- TILE_LOAD_COMPLETE: A tile load, tile store or table load finishes writing its target and makes its arrival
  (R268). -/
  | tileLoadComplete (c : BitVec 8) (side : Machine.Tab (List Byte))
  /-- STREAM_REQUEST: A running slot issues a request while its fetched items number fewer than its distance (R291).
  -/
  | streamRequest (c : BitVec 8) (q : Fin 12)
  /-- STREAM_ITEM_COMPLETE: A stream item lands in the ring or becomes visible at its destination and may make a
  granule arrival (R296). -/
  | streamItemComplete (c : BitVec 8) (q : Fin 12) (item : Nat) (data : List Byte) (ecc : Machine.Ecc)
  /-- STREAM_REQUEST_FAIL: A running slot's request fails at its destination, so the slot faults and the cluster
  halts (R297). -/
  | streamRequestFail (c : BitVec 8) (q : Fin 12) (item : Nat) (status : BitVec 8)
  /-- SLOT_PAUSED: A halted slot's last in-flight request completes and the slot becomes PAUSED (R299). -/
  | slotPaused (c : BitVec 8) (q : Fin 12)
  /-- CLUSTER_HALTED: A halting cluster finishes its issued Pours, loads and MMA progress and becomes HALTED (R299).
  -/
  | clusterHalted (c : BitVec 8)
  /-- HALT_REQ: A write of 1 to HALT_REQ requests a halt of the cluster (R308). -/
  | haltReq (c : BitVec 8)
  /-- RESUME: A write of 1 to RESUME restarts a HALTED cluster or starts an IDLE one (R301). -/
  | resume (c : BitVec 8)
  /-- EVENT_COUNTER_WRITE: A write to a counter's CSR register sets the counter (R270). -/
  | eventCounterWrite (c : BitVec 8) (e : BitVec 6) (v : W64)
  /-- EV_ADD: A write to a counter's EV_ADD address adds the value written (R268). -/
  | evAdd (c : BitVec 8) (e : BitVec 6) (v : W64)
  /-- TRANS_INV: A write of 1 to TRANS_INV makes the cluster reread its translation entries (R284). -/
  | transInv (c : BitVec 8)
  /-- TRANSLATION_REREAD_COMPLETE: A translation reread finishes, validating entries and setting TRANS_BAD for bad
  ones (R283). -/
  | translationRereadComplete (c : BitVec 8)
  /-- RT_INV: A write of 1 to RT_INV reloads a rescale table from its record address (R254). -/
  | rtInv (c : BitVec 8) (mask : BitVec 4)
  /-- GRID_INV: A write of 1 to GRID_INV makes every active G4 store stream reread its grid record (R252). -/
  | gridInv (c : BitVec 8)
  /-- PHASE_ARRIVE: A cluster writes its arrival for the current phase to PHASE_ARRIVE (R370). -/
  | phaseArrive (c : BitVec 8) (v : W64)
  /-- PUB_DOORBELL: An owner's write to PUB_DOORBELL asks the device to digest and publish a shard, or is refused
  (R386). -/
  | pubDoorbell (c : BitVec 8) (v : W64)
  /-- PUBLICATION_RECORD_WRITE: The slices finish digesting a shard image and the publication record is written
  (R387). -/
  | publicationRecordWrite (slot : Nat)
  /-- VERIFIED_FETCH_RECHECK: A verified fetch rereads an owner's record every 20 µs while it is invalid or stale
  (R393). -/
  | verifiedFetchRecheck (post : Nat)
  /-- VERIFIED_FETCH_DIGEST: A verified fetch finishes its digest and completes, refetches or passes to resolution
  (R393). -/
  | verifiedFetchDigest (post : Nat)
  /-- MISMATCH_RESOLUTION: After the step commits, Nganor compares owner, twin and replica units and repairs or
  pauses (R395). -/
  | mismatchResolution (post : Nat) (owner twin : List Byte)
  /-- STALL: A wait or phase longer than STALL_LIMIT_MS reports a stall and starts failure handling (R375). -/
  | stall
  /-- PREIMAGE_COPY_COMPLETE: The state-stream engine finishes copying owned regions into a PRE generation (R418).
  -/
  | preimageCopyComplete
  /-- DELTA_RECORD: A twin checks and applies a DELTA record, or answers NAK NEW or NAK OLD (R426). -/
  | deltaRecord (r : Machine.Record)
  /-- FULL_RECORD: A twin classifies differences, takes the FULL bytes and checks NEW_DIGEST (R429). -/
  | fullRecord (r : Machine.Record)
  /-- END_RECORD: A twin waits for the step's DELTA records and then sends STEP_ACK (R427). -/
  | endRecord (r : Machine.Record)
  /-- COMMIT_RECORD: A twin discards twin-log records of committed steps (R433). -/
  | commitRecord (r : Machine.Record)
  /-- ROLLBACK_RECORD: A twin XORs out records above the target step and sends STEP_ACK (R436). -/
  | rollbackRecord (r : Machine.Record)
  /-- STEP_ACK: The origin receives STEP_ACK and sets ACKED_STEP (R427). -/
  | stepAck (r : Machine.Record)
  /-- NAK_NEW: The origin receives NAK NEW and resends the record, or a FULL record on the second (R428). -/
  | nakNew (r : Machine.Record)
  /-- NAK_OLD: The origin receives NAK OLD and sends a FULL record at once (R428). -/
  | nakOld (r : Machine.Record)
  /-- FAILURE_HANDLING: A device sends a job stop, halts its clusters, rolls back to COMMITTED_STEP and reports
  STOPPED (R438). -/
  | failureHandling
  /-- TWINLESS: A device finds its twin lost and pauses or continues as TWINLESS says (R413). -/
  | twinless
  /-- EXPORT_LAG: Export traffic falls behind, so the device stops export, logs and reports it (R447). -/
  | exportLag
  /-- COHERENCE_REQUEST: A home slice orders a scalar-cache request for a line by writeback first and rotating
  priority (R465). -/
  | coherenceRequest (slice : Fin 24)
  /-- RECALL_ANSWER: An owner answers a recall after its store and its 16-cycle hold, writing back the line (R466).
  -/
  | recallAnswer (slice : Fin 24) (line : Nat)
  /-- REGULATOR_TOKEN_REFILL: Every nanosecond each partition's cap bucket gains tokens up to BURST (R479). -/
  | regulatorTokenRefill
  /-- REGULATOR_ADMIT: A stack controller able to accept a request admits one partition's oldest request in rotation
  (R479). -/
  | regulatorAdmit (stack : Fin 12)
  /-- PATROL_SCRUB: The patrol scrub reads sectors and rewrites correctable ones within each 24-hour pass (R487). -/
  | patrolScrub (ecc : Machine.Ecc)
  /-- STACK_TEMP_READ: Each millisecond a controller reads its stack temperature and applies refresh and throttle
  levels (R489). -/
  | stackTempRead (stack : Fin 12) (temp : BitVec 8)
  /-- STACK_TEMP_MISSING: With no valid stack reading for 10 ms the controller acts as at 100 °C and logs (R488). -/
  | stackTempMissing (stack : Fin 12)
  /-- LASER_POWER_CHANGE: A laser input crosses 16 or 14 dBm, setting LASER_LOW, taking lanes down or switching the
  control lane (R499). -/
  | laserPowerChange (engine : Fin 16) (onB : Bool) (power : Int)
  /-- LANE_DOWN: A lane loses signal, alignment or FEC and goes DOWN (R536). -/
  | laneDown (lane : Fin 144) (codewords : BitVec 16)
  /-- LANE_UP: A DOWN lane holds alignment for 100 ms without uncorrectable codewords and goes UP (R536). -/
  | laneUp (lane : Fin 144)
  /-- FRAME_RECEIVE: A lane receives an Ethernet frame and checks FCS, PAUSE, plane and EtherType before dispatch
  (R503). -/
  | frameReceive (lane : Fin 144) (f : Machine.Frame)
  /-- WRITE: A destination receives an Ilric WRITE packet and applies it once (R515). -/
  | write (lane : Fin 144) (p : Machine.Packet)
  /-- READ: A destination receives an Ilric READ packet and returns READ_DATA packets (R516). -/
  | read (lane : Fin 144) (p : Machine.Packet)
  /-- REDUCE_WRITE_F32: A destination adds F32 payload elements into memory under RNE (R517). -/
  | reduceWriteF32 (lane : Fin 144) (p : Machine.Packet)
  /-- REDUCE_WRITE_H16: A destination adds H16 payload elements into memory under RNE (R517). -/
  | reduceWriteH16 (lane : Fin 144) (p : Machine.Packet)
  /-- REDUCE_WRITE_I32: A destination adds I32 payload elements into memory with saturation (R517). -/
  | reduceWriteI32 (lane : Fin 144) (p : Machine.Packet)
  /-- ATOMIC_ADD: A destination performs an atomic add, an EV_ADD arrival when aimed at an address (R518). -/
  | atomicAdd (lane : Fin 144) (p : Machine.Packet)
  /-- ATOMIC_FETCH_ADD: A destination performs an atomic fetch-add and returns the old value (R518). -/
  | atomicFetchAdd (lane : Fin 144) (p : Machine.Packet)
  /-- ATOMIC_SWAP: A destination performs an atomic swap and returns the old value (R518). -/
  | atomicSwap (lane : Fin 144) (p : Machine.Packet)
  /-- ATOMIC_CAS: A destination performs an atomic compare-and-swap and returns the old value (R518). -/
  | atomicCas (lane : Fin 144) (p : Machine.Packet)
  /-- READ_DATA: A requester receives READ_DATA and writes it at the return address (R516). -/
  | readData (lane : Fin 144) (p : Machine.Packet)
  /-- ATOMIC_RESULT: A requester receives the old value of an atomic and writes it at LOCAL (R542). -/
  | atomicResult (lane : Fin 144) (p : Machine.Packet)
  /-- STATUS: A requester receives an error STATUS and completes the operation with error (R520). -/
  | status (lane : Fin 144) (p : Machine.Packet)
  /-- COLL_DATA: A member receives collective data and combines it, or refuses it with RNR if not yet posted (R545).
  -/
  | collData (lane : Fin 144) (p : Machine.Packet)
  /-- CTRL: A device receives a control-message fragment for an in-band mailbox (R513). -/
  | ctrl (lane : Fin 144) (p : Machine.Packet)
  /-- ACK: A sender receives an ACK, marks packets received, adjusts its window and may retransmit (R526). -/
  | ack (lane : Fin 144) (p : Machine.Packet)
  /-- ACK_TIMER: A receiver sends an ACK 2 µs after the first unacknowledged arrival (R528). -/
  | ackTimer (src : Nat)
  /-- RETRANSMIT_TIMEOUT: An unacknowledged packet times out and is retransmitted, or the destination is declared
  unreachable (R529). -/
  | retransmitTimeout (dest : Nat) (psn : Nat)
  /-- SEND_CONTEXT_FREE: A send context idle for 100 µs with nothing outstanding is freed (R521). -/
  | sendContextFree (dest : Nat)
  /-- RECEIVE_CONTEXT_FREE: A receive context with no arrival for 4 ms is freed (R530). -/
  | receiveContextFree (src : Nat)
  /-- PLANE_EXCLUSION_EXPIRE: A plane excluded for a destination becomes eligible for a trial after 1 ms (R537). -/
  | planeExclusionExpire (dest : Nat) (plane : Nat)
  /-- H_UP: A node receives a child's contribution and sends H_UP or forms the result when complete (R564). -/
  | hUp (lane : Fin 144) (p : Machine.Packet)
  /-- H_DOWN: A node receives the result of a Huddle operation, completes it locally and passes it on (R564). -/
  | hDown (lane : Fin 144) (p : Machine.Packet)
  /-- H_STOP: A device receives a job stop, forwards it to its tree neighbours and begins failure handling (R570).
  -/
  | hStop (lane : Fin 144) (p : Machine.Packet)
  /-- H_UP_RESEND: A child without H_DOWN 20 µs after its last H_UP sends it again (R565). -/
  | hUpResend (sys : Bool) (seq : W32)
  /-- HP_CTL: A write to HP_CTL posts a program Huddle operation in a slot (R567). -/
  | hpCtl (c : BitVec 8) (slot : Fin 8) (v : W64)
  /-- TICK_SYNC_BURST: Every 1,048,576 ns a device starts its eight T_SYNC exchanges with its parent (R574). -/
  | tickSyncBurst
  /-- T_SYNC: A parent receives T_SYNC and answers with T_REPLY timestamps (R574). -/
  | tSync (lane : Fin 144) (p : Machine.Packet)
  /-- T_REPLY: A child receives T_REPLY, computes its offset and slews its tick (R574). -/
  | tReply (lane : Fin 144) (p : Machine.Packet)
  /-- TICK_PARENT_SILENT: A device whose tick parent is silent for 8 ms enters holdover and changes parent or root
  (R577). -/
  | tickParentSilent
  /-- SYNC_COUNT: At a synchronised count pending step changes, EFFECT results and reference switches take effect
  (R578). -/
  | syncCount
  /-- RELAY_ROUND_START: At each Relay round each device forms its up and down demand (R582). -/
  | relayRoundStart
  /-- RELAY_LEVEL_DEADLINE: At its deadline a node sends R_REQ with its subtree sums, or the root decides the grants
  (R582). -/
  | relayLevelDeadline
  /-- R_REQ: A parent receives a child's Relay demand (R582). -/
  | rReq (lane : Fin 144) (p : Machine.Packet)
  /-- R_GRANT: A node receives a grant, splits it among its children and moves PCEIL (R583). -/
  | rGrant (lane : Fin 144) (p : Machine.Packet)
  /-- INGEST_REQ: A program requests an ingest window, which is sent as WINDOW_REQ or refused (R600). -/
  | ingestReq (c : BitVec 8) (v : W64)
  /-- RDMA_WRITE: The KT9 receives an RDMA WRITE into a requested ingest window, or NAKs it (R602). -/
  | rdmaWrite (p : Machine.RocePkt)
  /-- RDMA_WRITE_WITH_IMMEDIATE: A WRITE with Immediate completes an ingest window: FILLED and an arrival (R603). -/
  | rdmaWriteWithImmediate (p : Machine.RocePkt)
  /-- WINDOW_FAIL: A server's WINDOW_FAIL SEND marks the window FAILED and makes the arrival (R603). -/
  | windowFail (p : Machine.RocePkt)
  /-- ROCE_ACK: The KT9 as requester receives an ACK or NAK, possibly taking the QP into error (R597). -/
  | roceAck (p : Machine.RocePkt)
  /-- CNP: The KT9 receives a CNP and counts it; a CE-marked packet makes it send one (R596). -/
  | cnp (p : Machine.RocePkt)
  /-- INVALID_REQUEST: An unsupported RoCEv2 request is answered with NAK Invalid Request and the QP enters error
  (R592). -/
  | invalidRequest (p : Machine.RocePkt)
  /-- ROCE_ACK_TIMEOUT: A requester's ACK_TIMEOUT expires and it retransmits or exhausts RETRY (R597). -/
  | roceAckTimeout (qpn : Nat)
  /-- ARP: The management port answers or resolves an ARP request (R609). -/
  | arp (f : Machine.MgmtFrame)
  /-- ICMP_ECHO: The management port answers an ICMP echo request within its rate limit (R609). -/
  | icmpEcho (f : Machine.MgmtFrame)
  /-- DHCP_RENEW: At half its lifetime the KT9 renews its DHCP lease (R609). -/
  | dhcpRenew (answer : Option (Nat × Nat))
  /-- TFTP_BOOT: The ROM fetches a firmware image by TFTP and verifies it (R803). -/
  | tftpBoot (image : Option (List Byte))
  /-- MB_WRITE: An SMBus Block Write stores bytes in mailbox 0's request buffer (R611). -/
  | mbWrite (pecOk : Bool) (data : List Byte)
  /-- MB_RDPTR: An SMBus Write Word sets the read offset of mailbox 0's response buffer (R611). -/
  | mbRdptr (pecOk : Bool) (offset : W16)
  /-- MB_READ: An SMBus Block Read returns response bytes and advances the read offset (R611). -/
  | mbRead
  /-- MB_DOORBELL: An SMBus Write Byte of 0x01 rings mailbox 0's doorbell (R611). -/
  | mbDoorbell (pecOk : Bool) (value : Byte)
  /-- MB_STATUS: An SMBus Read Word returns mailbox 0's status word (R611). -/
  | mbStatus
  /-- COOLANT: The tray controller writes the coolant record, latched whole at PEC (R612). -/
  | coolant (pecOk : Bool) (data : List Byte)
  /-- IDENT: An SMBus Block Read returns the device ID, stepping and part code (R611). -/
  | ident
  /-- PMB_ALERT: PMB_ALERT_N asserts and the KT9 reads the regulator status, logs and clears faults (R616). -/
  | pmbAlert (words : List (Nat × Nat))
  /-- PMBUS_POLL: The KT9 polls the regulator's telemetry every 10 ms or 100 ms (R614). -/
  | pmbusPoll (ok : Bool) (words : List (Nat × Nat))
  /-- POWER_GAIN_TRIM: Every 10 ms Nganor trims the PKG_W gain against READ_POUT (R664). -/
  | powerGainTrim (pkgW : W16)
  /-- IDCODE: The TAP selects IDCODE (R622). -/
  | idcode
  /-- SAMPLE_PRELOAD: The TAP selects SAMPLE/PRELOAD on the boundary-scan cells (R622). -/
  | samplePreload (cells : List Bool)
  /-- EXTEST: The TAP drives lands under EXTEST, only while SYS_RESET_N is asserted (R622). -/
  | extest (cells : List Bool)
  /-- CLAMP: The TAP selects CLAMP, only while SYS_RESET_N is asserted (R622). -/
  | clamp
  /-- HIGHZ: The TAP selects HIGHZ, only while SYS_RESET_N is asserted (R622). -/
  | highz
  /-- UNLOCK_CHAL: The TAP shifts out a new debug-unlock challenge (R812). -/
  | unlockChal
  /-- UNLOCK_RESP: The TAP shifts in a signed response that unlocks debug if it verifies (R813). -/
  | unlockResp (response : List Byte)
  /-- DEBUG: The TAP selects DEBUG after a successful unlock (R622). -/
  | debug
  /-- BYPASS: The TAP selects BYPASS (R622). -/
  | bypass
  /-- UART_INFO: In recovery wait the UART line INFO is accepted (R804). -/
  | uartInfo
  /-- UART_BOOT_QSPI: In recovery wait the UART line BOOT QSPI starts a flash boot (R804). -/
  | uartBootQspi
  /-- UART_BOOT_TFTP: In recovery wait the UART line BOOT TFTP starts a TFTP boot (R804). -/
  | uartBootTftp
  /-- UART_REBOOT: In recovery wait the UART line REBOOT resets the device (R804). -/
  | uartReboot
  /-- PWR_ALERT_TAKEN: PWR_ALERT_N asserted for 40 ns drops every ON cluster to P7 in hardware (R640). -/
  | pwrAlertTaken
  /-- PWR_ALERT_RELEASE: PWR_ALERT_N deasserted for 100 µs releases the alert protection (R641). -/
  | pwrAlertRelease
  /-- VIN_FAIL_TAKEN: VIN_FAIL_N asserted for 200 ns starts the save (R644). -/
  | vinFailTaken
  /-- VIN_FAIL_GLITCH: A VIN_FAIL_N pulse shorter than 200 ns advances FAIL_GLITCH only (R643). -/
  | vinFailGlitch
  /-- SAVE_DOMAINS_OFF: Twenty microseconds into the save every cluster domain is off and the flush begins (R644).
  -/
  | saveDomainsOff
  /-- FLUSH_END: The flush ends on acknowledgement, deadline or brownout and the buffer goes to the sequencer
  (R645). -/
  | flushEnd
  /-- LAST_GASP_PROGRAMMED: The always-on sequencer finishes programming the last-gasp record and the device is
  SAVED (R648). -/
  | lastGaspProgrammed
  /-- BROWNOUT: VIN below 1.550 V for 100 ns ends the flush or starts a save without flush (R646). -/
  | brownout
  /-- OVERVOLT: VIN above 1.950 V for 10 µs turns off VIN domains and starts the save (R646). -/
  | overvolt
  /-- VAUX_LOW: VAUX falls below 2.900 V with VIN present and every VIN domain turns off (R876). -/
  | vauxLow
  /-- DROOP_READING: Every 2 ns a slot's domain reading is formed and steers the regulator, boost and stretching
  (R632). -/
  | droopReading (slot : Fin 288) (mv : List Nat)
  /-- BOOST_RELEASE: A boost releases on recovery or after 100 ns and re-arms 300 ns later (R634). -/
  | boostRelease (slot : Fin 288)
  /-- DROOP_HIGH: A slot whose stretched cycles exceed 0.2% over 10 ms sets DROOP_HIGH and is reported (R635). -/
  | droopHigh (slot : Fin 288) (cycles stretched : Nat)
  /-- VOLTAGE_TRANSITION_COMPLETE: A cluster-slot regulator reaches its new target voltage (R629). -/
  | voltageTransitionComplete (slot : Fin 288)
  /-- SLOT_MODE_CHANGE: A slot domain enters RETAIN or wakes to ON from RETAIN or OFF (R637). -/
  | slotModeChange (slot : Fin 288) (on : Bool) (cal : List (Nat × Nat))
  /-- PKG_W_SAMPLE: Every 1 ms PKG_W is sampled and checked against the power band (R678). -/
  | pkgWSample (w : W16)
  /-- CAP_LOOP_CHECK: Each 10 ms average of PKG_W activates, deepens or releases the cap loop (R669). -/
  | capLoopCheck
  /-- HYSTERESIS_EXPIRE: HYST_MS without a lower demand returns the effective step toward the requested step (R671).
  -/
  | hysteresisExpire
  /-- KEEPWARM_ADJUST: Every 1 µs the KT9 adjusts keep-warm power toward PCEIL − BAND_DN within its budget (R681).
  -/
  | keepwarmAdjust (w : W16)
  /-- REF_LOSS: The selected reference is lost and the PLL enters holdover and starts a switch (R697). -/
  | refLoss
  /-- REF_MONITOR_WINDOW: At the end of each 1 ms window each source's loss and frequency result updates its state
  (R694). -/
  | refMonitorWindow (a b f : Machine.WindowResult)
  /-- PLL_SWITCH_COMPLETE: The PLL output stays within 0.01 ppm of the new source for 2 ms and becomes LOCKED
  (R699). -/
  | pllSwitchComplete
  /-- JITTER_TEST_COMPLETE: A 20 ms jitter and duty-cycle test ends and its source passes or becomes FAILED (R704).
  -/
  | jitterTestComplete (a b f : Machine.TestResult)
  /-- GEN_UNLOCK: A region generator loses lock and its unit is fenced, its lanes go down or a device fault follows
  (R710). -/
  | genUnlock (gen : Machine.Generator)
  /-- TJ_SAMPLE: Every 100 µs Tj is read and the thermal loop demands, deepens or releases steps (R723). -/
  | tjSample (tj : BitVec 12)
  /-- THERMTRIP: The analog comparator fires at 110 °C, asserting THERMTRIP_N and turning off VIN domains (R724). -/
  | thermtrip
  /-- COOLANT_EVAL: Every 100 ms the KT9 takes fresh coolant fields or defaults and forms COOL_W (R726). -/
  | coolantEval
  /-- HEAT_BALANCE_CHECK: Every second the KT9 compares coolant heat with package power and updates HB (R727). -/
  | heatBalanceCheck
  /-- RAMP_HOLD_CHECK: Every 100 ms the KT9 compares Tj with 10 s earlier and holds ramps on a 16 °C change (R732).
  -/
  | rampHoldCheck
  /-- FORECAST_FORM: At step opening and every second the KT9 forms its 60 s power forecast (R729). -/
  | forecastForm
  /-- RING: A write of RING to MB_DOORBELL starts a command on a mailbox of 12–15 (R743). -/
  | ring (c : BitVec 8) (v : W64) (m : Fin 16)
  /-- ABORT: A write of ABORT to MB_DOORBELL aborts the named command if before its point (R749). -/
  | abort (c : BitVec 8) (v : W64) (m : Fin 16)
  /-- RELEASE: A write of RELEASE to MB_DOORBELL releases a cluster's mailbox claim (R746). -/
  | release (c : BitVec 8) (v : W64) (m : Fin 16)
  /-- MB_CLAIM: A read of MB_CLAIM returns the owner and claims an unowned mailbox for the reader (R747). -/
  | mbClaim (c : BitVec 8) (m : Fin 16)
  /-- PUT: An owner's PUT frame writes bytes into the request buffer, binding an owner if none (R751). -/
  | put (f : Machine.MbIn)
  /-- RING_FRAME: An owner's RING frame rings the doorbell of mailboxes 1–11 (R743). -/
  | ringFrame (f : Machine.MbIn)
  /-- ABORT_FRAME: An owner's ABORT frame aborts the named command (R749). -/
  | abortFrame (f : Machine.MbIn)
  /-- GET: An owner's GET frame returns response-buffer bytes in a DATA frame (R751). -/
  | get (f : Machine.MbIn)
  /-- STAT: An owner's STAT frame returns MB_STATUS (R751). -/
  | stat (f : Machine.MbIn)
  /-- RELEASE_FRAME: An owner's RELEASE frame unbinds the mailbox (R746). -/
  | releaseFrame (f : Machine.MbIn)
  /-- EVACK: An owner's EVACK acknowledges pushed events up to an EVENT_SEQ (R755). -/
  | evack (f : Machine.MbIn)
  /-- COMMAND_COMPLETE: A command's response is written, the mailbox becomes DONE and completion is delivered
  (R745). -/
  | commandComplete (m : Fin 16)
  /-- COMMAND_BOUND_EXPIRE: A command passes its bound before its serialisation point and completes with TIMEOUT
  (R752). -/
  | commandBoundExpire (m : Fin 16)
  /-- OWNER_IDLE_TIMEOUT: An owner of mailboxes 1–11 silent for 60 s while IDLE or DONE is unbound (R746). -/
  | ownerIdleTimeout (m : Fin 16)
  /-- EVENT_PUSH: Nganor pushes matching events to owners within 10 ms and repeats unacknowledged ones every second
  (R755). -/
  | eventPush (m : Fin 16)
  /-- IDENTIFY: The IDENTIFY command returns the identity record (R768). -/
  | identify (m : Fin 16)
  /-- DEVICE_STATUS: The DEVICE_STATUS command returns stage, job state, step and tick (R767). -/
  | deviceStatus (m : Fin 16)
  /-- JOB_STAGE: The JOB_STAGE command opens a stage range that accepts writes from one station (R773). -/
  | jobStage (m : Fin 16)
  /-- JOB_UNSTAGE: The JOB_UNSTAGE command closes a stage (R769). -/
  | jobUnstage (m : Fin 16)
  /-- JOB_LOAD: The JOB_LOAD command checks the job structures, loads the job and applies every job-load effect
  (R772). -/
  | jobLoad (m : Fin 16) (pIdle : W16)
  /-- JOB_START: The JOB_START command enters the job start barrier for a first start or a resume (R774). -/
  | jobStart (m : Fin 16)
  /-- JOB_STOP_END: JOB_STOP with MODE END ends the job cleanly after LAST_STEP (R775). -/
  | jobStopEnd (m : Fin 16)
  /-- JOB_STOP_ABORT: JOB_STOP with MODE ABORT starts failure handling (R775). -/
  | jobStopAbort (m : Fin 16)
  /-- JOB_PAUSE: The JOB_PAUSE command pauses every device of the job at the end of its phase (R776). -/
  | jobPause (m : Fin 16)
  /-- JOB_RESUME: The JOB_RESUME command resumes a paused or halted job (R776). -/
  | jobResume (m : Fin 16)
  /-- JOB_UNLOAD: The JOB_UNLOAD command resets every cluster, closes stages and sets JOB_STATE NONE (R776). -/
  | jobUnload (m : Fin 16)
  /-- REGULATOR_SET: The REGULATOR_SET command writes a partition's PART_CFG and CLASS_MAP on every stack (R769). -/
  | regulatorSet (m : Fin 16)
  /-- JOB_STATUS: The JOB_STATUS command returns job state, rank and step numbers (R769). -/
  | jobStatus (m : Fin 16)
  /-- REGULATOR_READ: The REGULATOR_READ command returns a stack's regulator configuration and statistics (R769). -/
  | regulatorRead (m : Fin 16)
  /-- STEP_READ: The STEP_READ command returns step status, numbers, EXPECT and U (R777). -/
  | stepRead (m : Fin 16)
  /-- WATCH_READ: The WATCH_READ command returns every norm-watch input's state and value (R777). -/
  | watchRead (m : Fin 16)
  /-- CLUSTER_HALT: The CLUSTER_HALT command writes HALT_REQ of the named clusters (R778). -/
  | clusterHalt (m : Fin 16)
  /-- CLUSTER_RESUME: The CLUSTER_RESUME command writes RESUME of the named clusters (R778). -/
  | clusterResume (m : Fin 16)
  /-- CLUSTER_READ: The CLUSTER_READ command returns a cluster's CSRs and, when halted, its scalar registers (R778).
  -/
  | clusterRead (m : Fin 16)
  /-- POWER_READ: The POWER_READ command returns the power, thermal and clock registers (R779). -/
  | powerRead (m : Fin 16)
  /-- POWER_TABLE: The POWER_TABLE command returns the twenty power-table entries (R779). -/
  | powerTable (m : Fin 16)
  /-- POWER_CONFIG: The POWER_CONFIG command masks a new value into a power, relay, thermal or clock configuration
  register (R780). -/
  | powerConfig (m : Fin 16)
  /-- VIN_SET: The VIN_SET command writes a new VIN setpoint over PMBus (R781). -/
  | vinSet (m : Fin 16) (readVout : Option W16)
  /-- SLOT_READ: The SLOT_READ command returns SLOT_PWR of every slot (R779). -/
  | slotRead (m : Fin 16)
  /-- STACK_READ: The STACK_READ command returns stack status, errors and HBM_INFO (R779). -/
  | stackRead (m : Fin 16)
  /-- TWIN_BIND: The TWIN_BIND command binds a twin backup area and starts the stream when both sides are bound
  (R783). -/
  | twinBind (m : Fin 16)
  /-- TWIN_UNBIND: The TWIN_UNBIND command removes the binding and leaves the device twinless (R783). -/
  | twinUnbind (m : Fin 16)
  /-- RESTORE: The RESTORE command runs rollback, restore, republication and resync for a replacement (R784). -/
  | restore (m : Fin 16) (reply : Option Nat) (records : List Machine.Record)
  /-- EXPORT_SET: The EXPORT_SET command starts or stops snapshot export at the next step opening (R785). -/
  | exportSet (m : Fin 16)
  /-- RANK_UPDATE: The RANK_UPDATE command rewrites the rank table and the translation entries of the old device
  (R785). -/
  | rankUpdate (m : Fin 16)
  /-- STREAM_READ: The STREAM_READ command returns state-stream status and counts (R782). -/
  | streamRead (m : Fin 16)
  /-- UNIT_READ: The UNIT_READ command pages through the unit state table (R786). -/
  | unitRead (m : Fin 16)
  /-- UNIT_SET: The UNIT_SET command changes a unit's state under the fencing handshake (R787). -/
  | unitSet (m : Fin 16) (bringUp : Bool)
  /-- BIST_LOGIC: BIST_RUN kind 1 runs logic BIST of a slot in TEST (R841). -/
  | bistLogic (m : Fin 16) (misr1 misr2 : W64)
  /-- BIST_MEMORY_SLOT: BIST_RUN kind 2 runs memory BIST of a slot's local store (R842). -/
  | bistMemorySlot (m : Fin 16) (misr1 misr2 : W64)
  /-- BIST_MEMORY_WAY: BIST_RUN kind 3 runs memory BIST of a cache way (R842). -/
  | bistMemoryWay (m : Fin 16) (misr1 misr2 : W64) (row : W16)
  /-- BIST_REFERENCE_TEST: BIST_RUN kind 4 runs the reference jitter and duty-cycle test (R788). -/
  | bistReferenceTest (m : Fin 16) (a b f : Machine.TestResult)
  /-- ERROR_READ: The ERROR_READ command pages through the error-record ring (R786). -/
  | errorRead (m : Fin 16)
  /-- LAST_GASP_READ: The LAST_GASP_READ command pages through the archived last-gasp record (R786). -/
  | lastGaspRead (m : Fin 16)
  /-- FW_INFO: The FW_INFO command returns firmware slot versions and ROLLBACK (R789). -/
  | fwInfo (m : Fin 16)
  /-- FW_WRITE: The FW_WRITE command writes image data into the firmware slot that is not running (R790). -/
  | fwWrite (m : Fin 16)
  /-- FW_ACTIVATE: The FW_ACTIVATE command verifies the new image and switches the boot slot (R790). -/
  | fwActivate (m : Fin 16)
  /-- REBOOT: The REBOOT command sends its response and resets the device (R800). -/
  | reboot (m : Fin 16)
  /-- DEBUG_CHALLENGE: The DEBUG_CHALLENGE command forms a new debug-unlock challenge (R812). -/
  | debugChallenge (m : Fin 16)
  /-- DEBUG_RESPONSE: The DEBUG_RESPONSE command verifies a signed response and unlocks debug (R813). -/
  | debugResponse (m : Fin 16)
  /-- COUNTERS: The COUNTERS command returns the fourteen totals since power-up (R792). -/
  | counters (m : Fin 16)
  /-- FORECAST: The FORECAST command returns the forecast record (R791). -/
  | forecast (m : Fin 16)
  /-- EVENT_MASK: The EVENT_MASK command sets a mailbox's event subscription mask (R791). -/
  | eventMask (m : Fin 16)
  /-- EVENT_FETCH: The EVENT_FETCH command returns events from the cursor and moves it past them (R791). -/
  | eventFetch (m : Fin 16)
  /-- FABRIC_CONFIG: The FABRIC_CONFIG command writes FAB_CFG, FAB_TUNE and tick roots and puts the tick in
  ACQUIRING (R793). -/
  | fabricConfig (m : Fin 16)
  /-- FABRIC_READ: The FABRIC_READ command returns fabric, Huddle, tick and lane registers (R793). -/
  | fabricRead (m : Fin 16)
  /-- LANE_SET_OUT: LANE_SET with ACTION OUT takes a lane OUT (R793). -/
  | laneSetOut (m : Fin 16)
  /-- LANE_SET_IN: LANE_SET with ACTION IN takes an OUT lane to DOWN to relink (R793). -/
  | laneSetIn (m : Fin 16)
  /-- QP_CREATE: QP_SET with ACTION CREATE creates a RoCEv2 queue pair (R794). -/
  | qpCreate (m : Fin 16)
  /-- QP_MODIFY: QP_SET with ACTION MODIFY replaces every attribute of a queue pair (R794). -/
  | qpModify (m : Fin 16)
  /-- QP_DESTROY: QP_SET with ACTION DESTROY destroys a queue pair (R794). -/
  | qpDestroy (m : Fin 16)
  /-- QP_RESET: QP_SET with ACTION RESET returns an ERROR queue pair to READY (R794). -/
  | qpReset (m : Fin 16)
  /-- QP_READ: The QP_READ command pages through queue-pair states (R793). -/
  | qpRead (m : Fin 16)
  /-- SYS_RESET_ASSERT: SYS_RESET_N asserted for 1 µs stops clocks, abandons sends and turns off VIN domains (R799).
  -/
  | sysResetAssert
  /-- SYS_RESET_DEASSERT: The deassertion of SYS_RESET_N samples BOOT_SEL and starts the boot ROM (R802). -/
  | sysResetDeassert (bootSel : BitVec 2)
  /-- WATCHDOG_EXPIRE: Nganor fails to refresh the watchdog for 2 s and the device resets (R800). -/
  | watchdogExpire
  /-- REF_WAIT_RETRY: With no qualified reference the ROM writes a UART line each second and keeps trying (R798). -/
  | refWaitRetry
  /-- PLL_FIRST_LOCK: The reference PLL first locks and the region generators start (R696). -/
  | pllFirstLock
  /-- FIRMWARE_VERIFY: The ROM finishes loading and verifying a firmware image and starts Nganor or falls back
  (R810). -/
  | firmwareVerify (cal : List (Nat × Nat))
  /-- HBM_TRAINING_COMPLETE: HBM training of all stacks completes, HBM_INFO is set and scrub starts (R817). -/
  | hbmTrainingComplete (failed : List Nat)
  /-- OPTICAL_STAGE_END: The OPTICAL stage ends when every lane is UP or after 5 s (R818). -/
  | opticalStageEnd
  /-- BIST_STAGE_COMPLETE: The BIST stage finishes testing every slot and cache way (R844). -/
  | bistStageComplete (failed : List (Nat × Nat))
  /-- ANNOUNCE: The device reaches ANNOUNCED and accepts a job (R819). -/
  | announce
  /-- LANE_LOOPBACK: Within 10 ms of a lane going DOWN its engine runs an internal loopback (R833). -/
  | laneLoopback (lane : Fin 144) (pass : Bool)
  /-- LOOPBACK_RETRY: Every 60 s a fenced lane's loopback is run again (R833). -/
  | loopbackRetry (lane : Fin 144) (pass : Bool)
  /-- LOGIC_CHECK: A cluster parity or residue check fails, fencing the slot and halting the cluster (R832). -/
  | logicCheck (c : BitVec 8) (check : W32) (bist : Bool)
  /-- HARDWARE_FENCE: The data path sets a fence bit itself and Nganor resolves the table within 1 ms (R759). -/
  | hardwareFence (unit : W32) (set : Bool)
  /-- REPAIR_RECORD_WRITE: Nganor writes the repair record after a decision, every 60 minutes and at announcement
  (R840). -/
  | repairRecordWrite (ok : Bool)
  /-- ERROR_RATE_WINDOW: At the end of a second in which records were dropped Nganor logs RING_DROP (R846). -/
  | errorRateWindow
  /-- RC_READ: A read of a register with an RC field returns it and clears the covered field (R16). -/
  | rcRead (who : Option (BitVec 8)) (addr : BitVec 48)
  /-- REGISTER_WRITE: A write to a register without its own row sets RW, clears W1C and sets W1S fields (R880). -/
  | registerWrite (who : Option (BitVec 8)) (addr : BitVec 48) (size : Nat) (v : W64)
  /-- UNDECODABLE_INSTRUCTION: The sequencer reaches issue with a reserved opcode, such as a zero word, or with a
  poisoned instruction word, and takes a precise ILLEGAL or POISON fault (R315). -/
  | undecodableInstruction (c : BitVec 8) (word : W128) (poisoned : Bool)
  /-- VAUX_REMOVED: VAUX is removed, which clears RS bits and ends the SAVED and tripped states (R17). -/
  | vauxRemoved
  /-- SOURCE_RESTORE_REQUEST: SOURCE receives the replacement's restore request over the control planes, rolls its
  backup back to TARGET, streams FULL records and later unbinds (R441). -/
  | sourceRestoreRequest (failed : Nat) (replacement : Nat) (target : Nat)
  /-- JOB_PAUSE_NOTICE: A member receives the pause that another member's Nganor spreads over the control planes and
  pauses at the end of its current phase (R776). -/
  | jobPauseNotice
  /-- JOB_RESUME_NOTICE: A member receives the resume that another member's Nganor spreads over the control planes
  and resumes its paused or halted job (R776). -/
  | jobResumeNotice
  /-- ARP_ENTRY_AGE_OUT: A management ARP cache entry reaches 300 s and is aged out (R609). -/
  | arpEntryAgeOut (ip : W32)
  deriving DecidableEq, Repr

end Sys2Proof
end

