-- ==== Sys2Proof/WellFormed.lean ====
section
/-!
DEFINITION. When a command is one that its source can send: the widths that the operand types do not already fix.
-/
namespace Sys2Proof

/-- An Ilric packet in the limits of R512 and R513. -/
def Machine.Packet.wf (p : Machine.Packet) : Bool :=
  decide (p.op < 256 ∧ p.flags < 8 ∧ p.cls < 4 ∧ p.part < 16 ∧ p.src < 2 ^ 18 ∧ p.epoch < 2 ^ 16 ∧ p.psn < 2 ^ 32 ∧
    p.addr < 2 ^ 64 ∧ p.txTime < 2 ^ 32 ∧ p.job < 2 ^ 16 ∧ p.aux < 2 ^ 16 ∧ p.payload.length ≤ 4096)

/-- A state-stream record in the limits of R420 to R422. -/
def Machine.Record.wf (r : Machine.Record) : Bool :=
  decide (r.step < 2 ^ 64 ∧ r.seq < 2 ^ 64 ∧ r.origin < 2 ^ 18 ∧ r.payload.length ≤ 1048576 ∧ r.diff.length ≤ 1048576)

/-- A RoCEv2 packet in the limits of R592. -/
def Machine.RocePkt.wf (p : Machine.RocePkt) : Bool :=
  decide (p.lane < 128 ∧ p.dstIp < 2 ^ 32 ∧ p.srcIp < 2 ^ 32 ∧ p.qpn < 2 ^ 24 ∧ p.psn < 2 ^ 24 ∧ p.place < 4 ∧ p.va < 2 ^ 64 ∧
    p.rkey < 2 ^ 32 ∧ p.dmaLen < 2 ^ 32 ∧ p.imm < 2 ^ 32 ∧ p.syndrome < 256)

/-- A mailbox frame in the widths of R751. -/
def Machine.MbIn.wf (f : Machine.MbIn) : Bool :=
  decide (f.version < 256 ∧ f.mbox < 256 ∧ f.res < 256 ∧ f.offset < 65536 ∧ f.len < 65536 ∧ f.tag < 65536 ∧ f.seq < 65536 ∧
    f.arg < 2 ^ 32 ∧ f.data.length ≤ 1024)

/-- An Ethernet frame of at most 4,200 bytes (R501). -/
def Machine.Frame.wf (f : Machine.Frame) : Bool :=
  decide (f.dst < 2 ^ 48 ∧ f.src < 2 ^ 48 ∧ f.etype < 65536 ∧ f.body.length ≤ 4182)

/-- Well-formed commands. -/
def Instr.wf : Instr → Bool
  | .frameReceive _ f => f.wf
  | .write _ p => p.wf | .read _ p => p.wf | .reduceWriteF32 _ p => p.wf | .reduceWriteH16 _ p => p.wf
  | .reduceWriteI32 _ p => p.wf | .atomicAdd _ p => p.wf | .atomicFetchAdd _ p => p.wf | .atomicSwap _ p => p.wf
  | .atomicCas _ p => p.wf | .readData _ p => p.wf | .atomicResult _ p => p.wf | .status _ p => p.wf
  | .collData _ p => p.wf | .ctrl _ p => p.wf | .ack _ p => p.wf | .hUp _ p => p.wf | .hDown _ p => p.wf
  | .hStop _ p => p.wf | .tSync _ p => p.wf | .tReply _ p => p.wf | .rReq _ p => p.wf | .rGrant _ p => p.wf
  | .deltaRecord r => r.wf | .fullRecord r => r.wf | .endRecord r => r.wf | .commitRecord r => r.wf
  | .rollbackRecord r => r.wf | .stepAck r => r.wf | .nakNew r => r.wf | .nakOld r => r.wf
  | .rdmaWrite p => p.wf | .rdmaWriteWithImmediate p => p.wf | .windowFail p => p.wf | .roceAck p => p.wf | .cnp p => p.wf
  | .invalidRequest p => p.wf
  | .put f => f.wf | .ringFrame f => f.wf | .abortFrame f => f.wf | .get f => f.wf | .stat f => f.wf
  | .releaseFrame f => f.wf | .evack f => f.wf
  | .firmwareVerify cal => cal.all fun c => decide (c.1 < 288 ∧ c.2 ≤ 16)
  | .hbmTrainingComplete failed => failed.all fun k => decide (k < 768)
  | .mbWrite _ d => decide (d.length ≤ 255) | .coolant _ d => decide (d.length ≤ 255)
  | _ => true

end Sys2Proof
end

