-- ==== Sys2Proof/Config.lean ====
section
/-!
DEFINITION. What the spec leaves to the part or leaves open: opaque constants, so that no proof can rest on a value of one
(log entries 2 and 3). Each has no body.
-/
namespace Sys2Proof.Config

/-- The entropy source (R209, R522, R549, R812): the n-th draw, of 64 bits. -/
opaque entropy : Nat → W64

/-- The device ID in fuses (R5). -/
opaque deviceId : W64

/-- The fused part code (R768). -/
opaque partCode : W32

/-- VF[0] to VF[7] in mV (R655). -/
opaque vf : Nat → BitVec 10

/-- The hash of a fused firmware key (R810), by KEY_INDEX, and of a fused debug key (R813), by 4 and 5. -/
opaque keyHash : Nat → BitVec 384

/-- Whether a firmware key's revoke fuse is intact (R810). -/
opaque keyIntact : Nat → Bool

/-- SHA-384 of bytes (R810). -/
opaque sha384 : List Byte → BitVec 384

/-- Whether an ECDSA P-384 signature verifies: public key, digest, r, s (R810, R813). -/
opaque ecdsa : List Byte → BitVec 384 → List Byte → List Byte → Bool

/-- The way or line that a store whose replacement the spec does not state evicts: a free value by draw. -/
opaque victim : Nat → Nat

/-- A value that the spec leaves undefined (R546): a free byte by draw. -/
opaque freeByte : Nat → Byte

/-- The expected BIST signatures of the stepping (R843): 1 logic, 2 local store, 3 cache way. -/
opaque signature : Nat → W64

/-- The factory's retired units in the fuse array (R826), by unit identifier. -/
opaque factoryRetired : Nat → Bool

/-- The factory's map (R827): the logical cluster that a slot carries, where the fuses change the default map. -/
opaque factoryMap : Nat → Option (BitVec 8)

/-- The number of a generator class in GEN_UNLOCK (R847), by its row in R705: the spec gives no numbers. -/
opaque generatorClass : Nat → Nat

/-- VIN at the lands in mV, as the internal monitor samples it (R652), by draw. -/
opaque vinMv : Nat → BitVec 16

/-- The text of a console line (R623, R798, R819): the spec gives none, by draw. -/
opaque uartLine : Nat → List Byte

/-- A byte of a mailbox buffer where the spec leaves it undefined (R743, R744): mailbox, draw, offset in its window. -/
opaque mbByte : Nat → Nat → Nat → Byte

end Sys2Proof.Config
end

