-- ==== Sys2Proof/Machine/State.lean ====
section
/-!
DEFINITION. The state of the block as plain data, the reasons a step may stop, and the state right after reset. The rule
that names each piece, and its reset value, stand with the types of each part and in INVENTORY.md.
-/
namespace Sys2Proof.Machine

/-- The reasons of a fault. There are none: whatever the part meets is a state of the part (a halted cluster, a faulted
slot, a queue pair in error, SAVED), so no command ends the model's run. Nobody raises one; safe. -/
inductive Fault where
  deriving DecidableEq, Repr

/-- The reasons of a refusal. -/
inductive Refusal where
  /-- Raised by the dispatch alone, for a command that has no meaning in the model yet; safe. -/
  | notModelled (mnemonic : String)
  deriving DecidableEq, Repr

/-- The whole state. -/
structure State where
  /-- the commands that wait, first in, first out -/
  pending : List Instr := []
  /-- the model's own clock, in ns (DESIGN CHOICE, log entry 1) -/
  now : Nat := 0
  /-- the system tick (R572) -/
  tick : Nat := 0
  /-- the model's own counter of free values drawn (DESIGN CHOICE, log entry 2) -/
  freeCtr : Nat := 0
  /-- the first draw of the entropy source for the generators since the last reset (R209) -/
  genBase : Nat := 0
  /-- what a register read by RC_READ returned last -/
  readout : Nat := 0
  /-- HBM and local stores by device address (R451, R454), canonical -/
  mem : List Host.Cell := []
  /-- poisoned protection units: the first address of the unit (R482, R483), canonical -/
  poison : Tab Bool := []
  /-- logical clusters 0 to 255 (R257) -/
  clusters : Tab Cluster := []
  memsys : MemSt := {}
  fab : Fabric := {}
  hud : HuddleSt := {}
  ing : IngestSt := {}
  mgmt : MgmtSt := {}
  smb : SmbusSt := {}
  pmb : PmbusSt := {}
  dbg : DebugSt := {}
  uart : UartSt := {}
  job : JobSt := {}
  step : StepSt := {}
  /-- the norm watch's inputs 0 to 63 (R402) -/
  watch : Tab WatchInput := []
  /-- the committed copy of the watch and of u (R407) -/
  watchKept : Tab WatchKeep := []
  ss : StreamSt := {}
  /-- the unit state table by unit identifier (R757) -/
  units : Tab UnitEnt := []
  pwr : PwrSt := {}
  opp : OppSt := {}
  clk : ClockSt := {}
  therm : ThermSt := {}
  mb : MbSt := {}
  log : LogSt := {}
  boot : BootSt := {}
  ras : RasSt := {}
  /-- the board flash by offset; an unlisted byte is erased (R618, R805) -/
  flash : Tab Byte := []
  /-- the fourteen totals since power-up, by their place in R792 -/
  totals : Tab Nat := []
  deriving DecidableEq, Repr

/-- The machine right after reset (R801, R822): every field at its reset value, the queue empty, nothing placed. -/
def State.reset : State := {}

end Sys2Proof.Machine
end

