-- ==== Sys2Proof/Machine/Ops.lean ====
section
/-!
DEFINITION. The named operations over the state that every family uses: logical clusters and their units, the address map
(R451), memory with its poison (R482 to R486), the memory-side cache (R455 to R460), the error and event rings (R753, R846),
arrivals at counters (R267 to R270), and halts and instruction faults (R298 to R306).
-/
namespace Sys2Proof.Machine

/-- The outcome of every command: the part goes on. -/
abbrev Res := Host.Outcome State Fault Refusal

/-! ### Clusters and units -/

/-- The logical cluster `c`. -/
def State.cl (s : State) (c : Nat) : Cluster := tabGet {} s.clusters c

/-- Put a logical cluster back. -/
def State.setCl (s : State) (c : Nat) (k : Cluster) : State := { s with clusters := tabSet s.clusters c k }

/-- Change a logical cluster. -/
def State.modCl (s : State) (c : Nat) (f : Cluster → Cluster) : State := s.setCl c (f (s.cl c))

/-- The entry of a unit (R757). -/
def State.unit (s : State) (u : Nat) : UnitEnt := tabGet { state := .fenced } s.units u

/-- Put the entry of a unit. -/
def State.setUnit (s : State) (u : Nat) (e : UnitEnt) : State := { s with units := tabSet s.units u e }

/-- The slot that carries logical cluster `c` (R33): the slot entry that names it. -/
def State.slotOf (s : State) (c : Nat) : Option Nat :=
  (s.units.find? fun p => decide (p.1 / 2 ^ 28 = 1 ∧ p.2.logical = c ∧ p.2.state ≠ .retired)).map (·.1 % 2 ^ 28)

/-- Logical cluster `c` is absent: no slot carries it (R35). -/
def State.absent (s : State) (c : Nat) : Bool := (s.slotOf c).isNone

/-- The present logical clusters, ascending. -/
def State.present (s : State) : List Nat := (List.range 256).filter fun c => !s.absent c

/-- The cluster clocks run: no save, no trip, no reset has stopped them (R644, R724, R799). -/
def State.clocked (s : State) : Bool := s.pwr.save = .none && !s.therm.tripped && !s.boot.pinReset && !s.pwr.vinOff

/-- A job is running in the sense of R766: RUNNING, PAUSED or HALTED. -/
def State.jobRuns (s : State) : Bool := s.job.state = .running || s.job.state = .paused || s.job.state = .halted

/-- Draw a free value's number. -/
def State.draw (s : State) : Nat × State := (s.freeCtr, { s with freeCtr := s.freeCtr + 1 })

/-- This device as {HALF, DEVICE} (R512). -/
def State.me (s : State) : DevId := s.fab.half * 2 ^ 17 + s.fab.device

/-! ### Rings of events and error records -/

/-- Add an event to the ring of 4,096 (R753, R754). -/
def State.event (s : State) (cls code unit data : Nat) : State :=
  { s with log := { s.log with
      eventSeq := s.log.eventSeq + 1
      events := ({ seq := s.log.eventSeq + 1, tick := s.tick, cls := cls, code := code, unit := unit, data := data : EventRec }
        :: s.log.events).take 4096 } }

/-- What a record says beside its code (R845). -/
structure ErrInfo where
  sev : Nat := 2
  act : Nat := 0
  poison : Bool := false
  permanent : Bool := false
  cluster : Nat := 0xFFFF
  unit : Nat := 0
  addr : Nat := 0
  i0 : Nat := 0
  i1 : Nat := 0
  deriving DecidableEq, Repr

/-- Log an error record (R845, R846): at most 1,000 in a second; the rest is dropped and counted. Every record makes the
event ERROR_RECORD (R795). -/
def State.err (s : State) (source code : Nat) (e : ErrInfo) : State :=
  if s.log.inSecond < 1000 then
    let seq := s.log.errSeq + 1
    let r : ErrRec :=
      { seq := seq, tick := s.tick, step := if s.job.state = .none then 0 else s.step.number, serviceMin := s.ras.serviceMin,
        source := source, severity := e.sev, action := e.act,
        flags := b2n s.jobRuns + 2 * b2n e.poison + 4 * b2n e.permanent,
        code := code, cluster := e.cluster, unit := e.unit, addr := e.addr, info0 := e.i0, info1 := e.i1 }
    State.event { s with log := { s.log with errSeq := seq, errs := (r :: s.log.errs).take 8192, inSecond := s.log.inSecond + 1 } }
      6 1 e.unit seq
  else
    { s with log := { s.log with dropped := satAdd 0xFFFF s.log.dropped 1, droppedNow := s.log.droppedNow + 1 } }

/-- A reserved encoding was written (R22). -/
def State.errReserved (s : State) (addr v : Nat) : State := s.err 0x0A 1 { sev := 0, addr := addr, i0 := v }

/-- Advance one of the totals of R792. -/
def State.total (s : State) (k n : Nat) : State :=
  { s with totals := tabSet s.totals k (satAdd (2 ^ 64 - 1) (tabGet 0 s.totals k) n) }

/-! ### The address map -/

/-- What a device address names (R451). -/
inductive Place where
  | hbm
  | ls (c off : Nat)
  | csr (c off : Nat)
  | cacheCtl (off : Nat)
  | fabric (off : Nat)
  | control (off : Nat)
  | mailbox (m off : Nat)
  | mgmt (off : Nat)
  | unmapped
  deriving DecidableEq, Repr

/-- The local store of logical cluster `c` begins here (R451). -/
def lsBase (c : Nat) : Nat := 0x400000000000 + c * 0x1000000

/-- The row of R451 that an address lies in. -/
def State.place (s : State) (a : Nat) : Place :=
  if a < s.memsys.hbmTop then .hbm
  else if a < 0x400000000000 then .unmapped
  else if a < 0x500000000000 then
    let c := (a - 0x400000000000) / 0x1000000
    let off := (a - 0x400000000000) % 0x1000000
    if decide (c < 256 ∧ off < 0x200000) && !s.absent c then .ls c off else .unmapped
  else if a < 0x600000000000 then
    let c := (a - 0x500000000000) / 0x10000
    if decide (c < 256) && !s.absent c then .csr c ((a - 0x500000000000) % 0x10000) else .unmapped
  else if decide (a < 0x600000400000) then .cacheCtl (a - 0x600000000000)
  else if a < 0x700000000000 then .unmapped
  else if a < 0x780000000000 then .fabric (a - 0x700000000000)
  else if a < 0x7C0000000000 then .control (a - 0x780000000000)
  else if a < 0x7C0000020000 then .mailbox ((a - 0x7C0000000000) / 0x2000) ((a - 0x7C0000000000) % 0x2000)
  else if a < 0x7F0000000000 then .unmapped
  else if a < 0x800000000000 then .mgmt (a - 0x7F0000000000)
  else .unmapped

/-- `n` bytes at `a` lie in HBM, or in one present local store (the rows that streams may read and write). -/
def State.isStore (s : State) (a n : Nat) : Bool :=
  match s.place a with
  | .hbm => decide (a + n ≤ s.memsys.hbmTop)
  | .ls _ off => decide (off + n ≤ 0x200000)
  | _ => false

/-- `n` bytes at `a` lie in HBM. -/
def State.isHbm (s : State) (a n : Nat) : Bool := decide (a + n ≤ s.memsys.hbmTop)

/-! ### Memory -/

/-- One byte; an address that memory does not list reads 0 (log entry 4). -/
def State.byte (s : State) (a : Nat) : Byte := tabGet 0#8 s.mem a

/-- `n` bytes. -/
def State.bytes (s : State) (a n : Nat) : List Byte := (List.range n).map fun i => s.byte (a + i)

/-- Put one byte, keeping the canonical form. -/
def putByte (m : List Host.Cell) (a : Nat) (b : Byte) : List Host.Cell := tabPut 0#8 m a b

/-- Put bytes in ascending order. -/
def putBytes (m : List Host.Cell) (a : Nat) : List Byte → List Host.Cell
  | [] => m
  | b :: t => putBytes (putByte m a b) (a + 1) t

/-- The canonical form of memory. -/
abbrev Memory.wf (m : List Host.Cell) : Bool := tabWf 0#8 m

/-- The protection unit at an address: an HBM sector or a word of a local store (R482). -/
def unitSize (a : Nat) : Nat := if a < 0x400000000000 then 32 else 8

/-- The first addresses of the protection units that `n` bytes at `a` touch. -/
def unitsOf (a n : Nat) : List Nat :=
  let u := unitSize a
  if n = 0 then [] else (List.range ((a + n - 1) / u - a / u + 1)).map fun i => (a / u + i) * u

/-- Whether any unit of `n` bytes at `a` is poisoned. -/
def State.poisoned (s : State) (a n : Nat) : Bool := (unitsOf a n).any fun b => tabGet false s.poison b

/-- The poison of the units that a write touches (R483, R484): poisoned data poisons them; a full overwrite by sound data
clears them; a partial one leaves them as they were. -/
def putPoison (t : Tab Bool) (a n : Nat) (p : Bool) : Tab Bool :=
  (unitsOf a n).foldl (fun t b => if p then tabPut false t b true
    else if decide (a ≤ b ∧ b + unitSize a ≤ a + n) then tabPut false t b false else t) t

/-! ### The memory-side cache -/

/-- The home of an HBM address (R455 to R459): slice, set, line within the slice, sector. -/
def State.home (s : State) (a : Nat) : Nat × Nat × Nat × Nat :=
  let n := s.memsys.channels.length
  let g := a / 2304
  let r := g / n
  let rot := ((r * 0x9E3779B1) % 2 ^ 32) % n
  let pc := s.memsys.channels.getD ((g % n + rot) % n) 0
  let o := r * 2304 + a % 2304
  let st := pc / 64
  let c := pc % 64
  let line := o / 128
  (2 * st + c / 32, (line % 8192) ^^^ ((line / 8192 + 257 * (c % 32)) % 8192), c * 2 ^ 24 + line, (o % 128) / 32)

/-- Point the tree away from (or, for the least-recently-used position, toward) a way (R460): node `i` has children
`2 i + 1` and `2 i + 2`; a set bit points to the upper half. -/
def plruSet (tree way : Nat) (toward : Bool) : Nat :=
  let step (acc : Nat × Nat) (lvl : Nat) : Nat × Nat :=
    let (t, node) := acc
    let up := bitN way (3 - lvl)
    let want := if toward then up else !up
    let cleared := if bitN t node then t - 2 ^ node else t
    (if want then cleared + 2 ^ node else cleared, 2 * node + 1 + b2n up)
  ((List.range 4).foldl step (tree, 0)).1

/-- The way that the tree points to, among the ways in service (R460, R461). -/
def plruVictim (tree ways : Nat) : Nat :=
  let live (lo n : Nat) : Bool := fld ways (lo + n - 1) lo != 0
  let go (acc : Nat × Nat) (lvl : Nat) : Nat × Nat :=
    let (lo, node) := acc
    let half := 2 ^ (3 - lvl)
    let up := if !live lo half then true else if !live (lo + half) half then false else bitN tree node
    (if up then lo + half else lo, 2 * node + 1 + b2n up)
  ((List.range 4).foldl go (0, 0)).1

/-- One access to a sector in its set (R460): a hit moves the line to the most-recently-used position; a miss allocates the
way that the tree points to, which writes its dirty sectors back. `low` is the position of classes STATE and INGEST. -/
def SideSet.touch (t : SideSet) (ways tag sector : Nat) (write low : Bool) : SideSet :=
  let mark (l : SideLine) : SideLine :=
    { l with valid := l.valid ||| 2 ^ sector, dirty := if write then l.dirty ||| 2 ^ sector else l.dirty }
  match t.lines.find? fun l => decide (l.tag = tag) with
  | some l =>
    { lines := t.lines.map fun x => if x.tag = tag then mark x else x, plru := plruSet t.plru l.way low }
  | none =>
    let w := plruVictim t.plru ways
    { lines := mark { way := w, tag := tag } :: t.lines.filter fun x => decide (x.way ≠ w), plru := plruSet t.plru w low }

/-- Class STATE (2) and INGEST (1) allocate at the least-recently-used position (R460). -/
def lowClass (cls : Nat) : Bool := cls == 1 || cls == 2

/-- The slice `k`. -/
def State.slice (s : State) (k : Nat) : Slice := tabGet {} s.memsys.slices k

/-- Put a slice. -/
def State.setSlice (s : State) (k : Nat) (x : Slice) : State :=
  { s with memsys := { s.memsys with slices := tabSet s.memsys.slices k x } }

/-- A stack. -/
def State.stack (s : State) (k : Nat) : Stack := tabGet {} s.memsys.stks k

/-- Put a stack. -/
def State.setStack (s : State) (k : Nat) (x : Stack) : State :=
  { s with memsys := { s.memsys with stks := tabSet s.memsys.stks k x } }

/-- The partition of a request (R478): `cls` is the class, plus 8 times one more than the partition where a descriptor names
one; otherwise CLASS_MAP gives it. -/
def partOf (x : Stack) (cls : Nat) : Nat := if cls < 8 then x.classMap.getD cls 0 else cls / 8 - 1

/-- A request of `n` sectors waits at the stack of its first sector to be admitted (R478, R479). -/
def State.charge (s : State) (a n cls : Nat) : State :=
  let k := (s.home a).1 / 2
  let x := s.stack k
  s.setStack k { x with queue := x.queue ++ [{ part := partOf x cls, sectors := n }] }

/-- One sector passes its home slice (R460). -/
def State.touchSector (s : State) (a : Nat) (write : Bool) (cls : Nat) : State :=
  let (k, set, tag, sec) := s.home a
  let x := s.slice k
  s.setSlice k { x with sets := tabSet x.sets set (SideSet.touch (tabGet {} x.sets set) x.ways tag sec write (lowClass (cls % 8))) }

/-- Every sector of an access to HBM passes its home slice; other places have no memory-side cache. -/
def State.touch (s : State) (a n : Nat) (write : Bool) (cls : Nat) : State :=
  if s.isHbm a n && !s.memsys.channels.isEmpty then
    (unitsOf a n).foldl (fun s b => s.touchSector b write cls) (s.charge a (unitsOf a n).length cls)
  else s

/-- Log a poisoned unit that a demand read finds for the first time (R486): HBM_UE with the offset, SRAM_UE with the word. -/
def State.notice (s : State) (a n : Nat) : State :=
  (unitsOf a n).foldl (fun s b =>
    if tabGet false s.poison b && !s.memsys.logged.contains b then
      let s := { s with memsys := { s.memsys with logged := b :: s.memsys.logged } }
      if b < 0x400000000000 then s.err 2 1 { poison := true, addr := b, i0 := b }
      else s.err 2 2 { poison := true, addr := b, i0 := 2 ^ 28 + (b - 0x400000000000) / 0x1000000 * 32, i1 := b / 8 % 2 ^ 18 }
    else s) s

/-- A demand read of memory: the bytes, and whether any of them is poisoned. -/
def State.load (s : State) (a n cls : Nat) : State × List Byte × Bool :=
  ((s.touch a n false cls).notice a n, s.bytes a n, s.poisoned a n)

/-- A write of memory, of sound or of poisoned data. -/
def State.store (s : State) (a : Nat) (bs : List Byte) (p : Bool) (cls : Nat) : State :=
  let s := s.touch a bs.length true cls
  let poison := putPoison s.poison a bs.length p
  { s with mem := putBytes s.mem a bs, poison := poison,
           memsys := { s.memsys with logged := s.memsys.logged.filter fun b => tabGet false poison b } }

/-- Local-store bytes of a cluster. -/
def State.lsBytes (s : State) (c off n : Nat) : List Byte := s.bytes (lsBase c + off) n

/-! ### Counters -/

/-- Counter `e` of a cluster. -/
def Cluster.ev (k : Cluster) (e : Nat) : Nat := (tabGet 0#64 k.e e).toNat

/-- Set counter `e`, modulo 2^64 (R267). -/
def Cluster.setEv (k : Cluster) (e v : Nat) : Cluster := { k with e := tabPut 0#64 k.e e (BitVec.ofNat 64 v) }

/-- An arrival (R268, R269): the counter advances; at a fenced or absent cluster it is discarded (R306, R327). -/
def State.arrive (s : State) (c e n : Nat) : State :=
  let k := s.cl c
  if k.fenced || s.absent c then s else s.setCl c (k.setEv e (k.ev e + n))

/-- The arrival of an instruction that names a counter when `en` is set. -/
def State.arriveIf (s : State) (en : Bool) (c e : Nat) : State := if en then s.arrive c e 1 else s

/-! ### Scalar registers -/

/-- s0 reads as zero (R257). -/
def Cluster.sreg (k : Cluster) (i : Nat) : Nat := if i = 0 then 0 else (tabGet 0#64 k.s i).toNat

/-- A write to s0 is discarded (R257, R317). -/
def Cluster.setS (k : Cluster) (i v : Nat) : Cluster :=
  if i = 0 then k else { k with s := tabPut 0#64 k.s i (BitVec.ofNat 64 v) }

/-! ### Halts and faults -/

/-- A halt arrives (R298, R299): a running cluster stops issuing and abandons what it holds at issue; PC names it. -/
def Cluster.halt (k : Cluster) (ended : Bool) : Cluster :=
  if k.st = .running then { k with st := .halting, hold := .none, ended := ended } else k

/-- FAULT_INFO as it reads (R310). -/
def Cluster.faultInfo (k : Cluster) : Nat :=
  k.cause + b2n k.precise * 2 ^ 5 + b2n k.multi * 2 ^ 6 + b2n k.fault * 2 ^ 7 + k.faultSlot * 2 ^ 8 + k.faultPc * 2 ^ 32

/-- Record a fault (R305, R310): a later one only sets MULTI. -/
def Cluster.record (k : Cluster) (cause : Nat) (precise : Bool) (addr slot : Nat) : Cluster :=
  if k.fault then { k with multi := true }
  else { k with fault := true, cause := cause, precise := precise, faultPc := k.pc, faultAddr := addr, faultSlot := slot }

/-- An instruction fault (R303): the cluster records it and halts, Nganor logs INSTR_FAULT, and the job's fault policy is
then to be applied (R410) when a job runs. -/
def State.ifault (s : State) (c cause : Nat) (precise : Bool) (addr : Nat := 0) (slot : Nat := 0) : State :=
  let k := (((s.cl c).record cause precise addr slot).halt false)
  let s := (s.setCl c k).err 1 1
    { sev := 3, act := 7, cluster := c, addr := addr, i0 := k.faultInfo, i1 := k.faultAddr }
  let s := s.event 1 9 ((s.slotOf c).elim 0 (unitId 1 ·)) s.log.errSeq
  if s.jobRuns then { s with step := { s.step with faultPending := true } } else s

/-- A device fault that no instruction raises: the record, and the fault policy to apply (R410). -/
def State.devFault (s : State) (source code : Nat) (e : ErrInfo) : State :=
  let s := s.err source code { e with sev := 3, act := 7 }
  if s.jobRuns then { s with step := { s.step with faultPending := true } } else s

/-! ### Mailboxes of clusters -/

/-- A mailbox. -/
def State.box (s : State) (m : Nat) : Mailbox := tabGet {} s.mb.boxes m

/-- Put a mailbox. -/
def State.setBox (s : State) (m : Nat) (x : Mailbox) : State := { s with mb := { s.mb with boxes := tabSet s.mb.boxes m x } }

/-- A mailbox loses its owner; while BUSY at the end of its command (R746), which then makes no arrival. -/
def Mailbox.unbind (x : Mailbox) : Mailbox :=
  if x.state = .busy then { x with ending := true, cmd := x.cmd.map fun c => { c with ev := none } } else { x with owner := none }

/-- The claims of the selected clusters end (R746). -/
def State.dropClaims (s : State) (sel : Nat → Bool) : State :=
  { s with mb := { s.mb with boxes := s.mb.boxes.map fun p => (p.1, match p.2.owner with
      | some (.cluster c) => if sel c then p.2.unbind else p.2
      | _ => p.2) } }

/-! ### The fence bit -/

/-- Set a cluster's fence bit (R306): a cluster that has left IDLE halts with cause FENCED,
and its mailbox claims end (R746). -/
def State.fenceCl (s : State) (c : Nat) : State :=
  let k := s.cl c
  if k.fenced then s
  else
    let s := (s.setCl c { k with fenced := true }).dropClaims fun d => d == c
    if k.st = .idle then s else s.ifault c 0x0B false

/-- Clear a cluster's fence bit (R306): it stays as it is until a RESUME or a job load. -/
def State.unfenceCl (s : State) (c : Nat) : State := s.modCl c fun k => { k with fenced := false }

/-- The sequencer may issue: RUNNING, not fenced, nothing held (R262, R263, R306). -/
def Cluster.ready (k : Cluster) : Bool := decide (k.st = .running) && decide (k.hold = .none) && !k.fenced

/-- Issue: where the sequencer cannot, the command has no effect (log entry 5). -/
def State.issue (s : State) (c : Nat) (f : Cluster → State) : Res :=
  .next (if (s.cl c).ready && s.clocked then f (s.cl c) else s)

/-- PC after an instruction, within the local store (R318; log entry 6). -/
def nextPc (pc : Nat) : Nat := (pc + 16) % 0x200000

/-- The instruction completes at issue: PC advances and nothing is held. -/
def Cluster.retire (k : Cluster) : Cluster := { k with pc := nextPc k.pc, hold := .none }

/-- ILLEGAL (R316). -/
def State.illegal (s : State) (c : Nat) : State := s.ifault c 0x01 true

end Sys2Proof.Machine
end

