-- ==== Sys2Proof/Machine/Operands.lean ====
section
/-!
DEFINITION. The operand forms of tile instructions (R314 to R317) and stream addresses with their translation (R281 to
R285).
-/
namespace Sys2Proof.Machine

/-- The instruction word: the opcode in bits [7:0] under the command's bits [127:8] (R314). -/
def iword (op : Nat) (bits : BitVec 120) : Nat := op + 256 * bits.toNat

/-- Every bit outside the opcode and the listed fields is zero (R316). -/
def onlyBits (w : Nat) (fs : List (Nat × Nat)) : Bool :=
  w == (fs.map fun f => fld w f.1 f.2 * 2 ^ f.2).foldl (· + ·) (w % 256)

/-- A signed field. -/
def sfld (w hi lo : Nat) : Int := signed (hi + 1 - lo) (fld w hi lo)

/-- The target of a branch offset of instructions, where it lies in the local store (R317). -/
def branchTarget (pc : Nat) (off : Int) : Option Nat :=
  let t : Int := pc + 16 * off
  if 0 ≤ t ∧ t < 0x200000 then some t.toNat else none

/-- A structure of `n` bytes at a local-store offset aligned to `al` (R317). -/
def lsFits (off n al : Nat) : Bool := off % al == 0 && decide (off + n ≤ 0x200000)

/-- A translation entry (R282). -/
structure Trans where
  base : Nat
  limit : Nat
  dev : DevId
  valid : Bool
  rd : Bool
  wr : Bool
  deriving DecidableEq, Repr

/-- The fields of an entry; a non-zero Res bit makes it not VALID (R283). -/
def transOf (w : Nat) : Trans :=
  let ok := fld w 63 48 == 0 && fld w 127 125 == 0
  { base := fld w 47 0, limit := fld w 103 64, dev := fld w 120 104 + fld w 121 121 * 2 ^ 17, valid := ok && bitN w 122,
    rd := bitN w 123, wr := bitN w 124 }

/-- The entry of window `w` as the cluster's copy holds it; window 0 is this device (R281). An absent copy is not VALID. -/
def State.window (s : State) (c w : Nat) : Trans :=
  if w = 0 then { base := 0, limit := 2 ^ 48, dev := s.me, valid := true, rd := true, wr := true }
  else transOf (tabGet 0 (s.cl c).trans w)

/-- Translate `n` bytes at a stream address (R281, R282): the device and the address there, or none where a Res bit is set,
the window is not VALID or lacks the permission, or the item does not lie below LIMIT. -/
def State.translate (s : State) (c a n : Nat) (write : Bool) : Option (DevId × Nat) :=
  let t := s.window c (fld a 53 48)
  let off := fld a 47 0
  if fld a 63 54 != 0 || !t.valid || !(if write then t.wr else t.rd) || decide (t.limit < off + n) then none
  else if t.base + off < 2 ^ 48 then some (t.dev, t.base + off) else none

/-- A device address of the device that a stream address's window names (R287), allowed where it lies inside the window
(log entry 7). -/
def State.within (s : State) (c a dev n : Nat) (write : Bool) : Option (DevId × Nat) :=
  let t := s.window c (fld a 53 48)
  if fld a 63 54 != 0 || !t.valid || !(if write then t.wr else t.rd) || decide (dev < t.base) ||
      decide (t.base + t.limit < dev + n) then none
  else some (t.dev, dev)

/-- A stream slot. -/
def Cluster.slot (k : Cluster) (q : Nat) : Slot := tabGet {} k.slots q

/-- Put a stream slot. -/
def Cluster.setSlot (k : Cluster) (q : Nat) (x : Slot) : Cluster := { k with slots := tabSet k.slots q x }

/-- Nothing issued before is still in a unit (the UNITS condition of R275). -/
def Cluster.unitsDone (k : Cluster) : Bool :=
  k.mma0.isNone && k.mma1.isNone && k.pour0.isNone && k.pour1.isNone && k.load0.isNone && k.load1.isNone

/-- What a REL condition issued now waits for lies below these numbers (R275): the next item of q8 to q11, the next post,
the next operation. -/
def State.marks (s : State) (c : Nat) : List Nat :=
  let k := s.cl c
  [(k.slot 8).nextIdx, (k.slot 9).nextIdx, (k.slot 10).nextIdx, (k.slot 11).nextIdx, s.fab.postNext, s.fab.opidNext]

/-- A tile store in the load unit. -/
def LoadRun.isStore (l : LoadRun) : Bool :=
  match l.op with
  | .tst _ _ => true
  | .tstSlot _ _ => true
  | _ => false

/-- The REL condition (R275): items, posts and signals below the marks are visible, tile stores are complete, and no line
is dirty. -/
def State.relDone (s : State) (c : Nat) (marks : List Nat) : Bool :=
  let k := s.cl c
  ((List.range 4).all fun i => (k.slot (8 + i)).held.all fun it => decide (marks.getD i 0 ≤ it.idx)) &&
    (s.fab.posts.all fun p => decide (p.owner ≠ c) || decide (marks.getD 4 0 ≤ p.id)) &&
    (s.fab.ops.all fun o => decide (o.origin ≠ .signal c) || decide (marks.getD 5 0 ≤ o.opid)) &&
    !(k.load0.any (·.isStore)) && !(k.load1.any (·.isStore)) && k.cache.all fun p => p.2.dirty.isEmpty

/-- The dirty bytes of a line are written to memory (R467): a whole sector at once, a partial one byte by byte (R484). -/
def State.writeBack (s : State) (line : Nat) (x : CacheLine) : State :=
  (List.range 4).foldl (fun s k =>
    let a := line * 128 + 32 * k
    let mine := x.dirty.filter fun p => decide (p.1 / 32 = k)
    if mine.length = 32 then s.store a (Sys2Proof.Machine.slice x.data (32 * k) 32) false 0
    else mine.foldl (fun s p => s.store (line * 128 + p.1) [x.data.getD p.1 0#8] (s.poisoned a 1) 0) s) s

/-- Write back every dirty line of a cluster's scalar cache; the lines stay (REL of R275). -/
def State.cleanCache (s : State) (c : Nat) : State :=
  let k := s.cl c
  let s := k.cache.foldl (fun s p => s.writeBack p.1 p.2) s
  s.setCl c { k with cache := k.cache.map fun p =>
    (p.1, { p.2 with dirty := [], st := if p.2.st = .modified then .exclusive else p.2.st }) }

/-- Remove an agent from a directory entry; an entry that nobody holds goes. -/
def dirDrop (d : List DirEntry) (line who : Nat) : List DirEntry :=
  d.filterMap fun e =>
    if e.line = line then
      let e' := { e with owner := if e.owner = some who then none else e.owner, sharers := e.sharers.filter (· ≠ who) }
      if e'.owner.isNone && e'.sharers.isEmpty then none else some e'
    else some e

/-- The slice that is home to a line of 128 bytes, by its address. -/
def State.lineHome (s : State) (line : Nat) : Nat := if s.memsys.channels.isEmpty then 0 else (s.home (line * 128)).1

/-- Invalidate lines of a cluster's scalar cache that a test selects; the directory follows. -/
def State.dropLines (s : State) (c : Nat) (sel : CacheLine → Bool) : State :=
  let k := s.cl c
  let s := (k.cache.filter fun p => sel p.2).foldl (fun s p =>
    let h := s.lineHome p.1
    let x := s.slice h
    s.setSlice h { x with dir := dirDrop x.dir p.1 c }) s
  s.setCl c { k with cache := k.cache.filter fun p => !sel p.2 }

/-- Write back and invalidate the whole scalar cache of a cluster (R257, R637). -/
def State.flushCache (s : State) (c : Nat) : State := (s.cleanCache c).dropLines c fun _ => true

end Sys2Proof.Machine
end

