-- ==== Sys2Proof/Machine/Ras.lean ====
section
/-!
DEFINITION. The fault history (R830), retirement and repair (R825, R835 to R837), unit state changes (R758), and what an
error in a store leads to (R482, R486, R831).
-/
namespace Sys2Proof.Machine

/-- The class of a unit identifier and its index (R757). -/
def unitClass (u : Nat) : Nat := u / 2 ^ 28
/-- The index of a unit identifier (R757). -/
def unitIndex (u : Nat) : Nat := u % 2 ^ 28

/-- The units that exist (R757). -/
def unitExists (u : Nat) : Bool :=
  decide (u < 2 ^ 32) && decide (unitIndex u < [0, 288, 768, 384, 128, 16].getD (unitClass u) 0)

/-- Every unit of the table, ascending (R757). -/
def allUnits : List Nat :=
  [(1, 288), (2, 768), (3, 384), (4, 128), (5, 16)].flatMap fun p => (List.range p.2).map fun i => unitId p.1 i

/-- The logical cluster that the default map gives a slot (R827). -/
def defaultMap (k : Nat) : Option Nat :=
  if k < 128 then some k else if 144 ≤ k ∧ k < 272 then some (k - 16) else none

/-- Set the fence bit of a unit and of what it fences in the data path (R306, R758, R759). -/
def State.setFence (s : State) (u : Nat) : State :=
  let e := s.unit u
  let s := s.setUnit u { e with fence := true }
  if unitClass u = 1 ∧ e.logical < 256 then s.fenceCl e.logical else s

/-- Clear the fence bit of a unit (R758). -/
def State.clearFence (s : State) (u : Nat) : State :=
  let e := s.unit u
  let s := s.setUnit u { e with fence := false }
  if unitClass u = 1 ∧ e.logical < 256 then s.unfenceCl e.logical else s

/-- An entry changes its state: SINCE follows, and the event UNIT_STATE is sent (R757, R795) with the record of R758. -/
def State.unitTo (s : State) (u : Nat) (st : UnitState) : State :=
  let e := s.unit u
  let s := s.setUnit u { e with state := st, since := s.tick }
  let s := s.err 0x0B 1 { sev := 0, unit := u, i0 := e.state.code, i1 := st.code }
  s.event 6 2 u st.code

/-- A lane's number from a unit of class 4 or 5: data plane p, control lane 128 + e. -/
def laneOfUnit (u : Nat) : Option Nat :=
  if unitClass u = 4 then some (unitIndex u) else if unitClass u = 5 then some (128 + unitIndex u) else none

/-- The unit of a lane. -/
def unitOfLane (l : Nat) : Nat := if l < 128 then unitId 4 l else unitId 5 (l - 128)

/-- A lane. -/
def State.lane (s : State) (l : Nat) : LaneSt := tabGet {} s.fab.lanes l

/-- Put a lane. -/
def State.setLane (s : State) (l : Nat) (x : LaneSt) : State := { s with fab := { s.fab with lanes := tabSet s.fab.lanes l x } }

/-- The drain of a unit that leaves ACTIVE (R758): a slot's cluster halts by its fence bit; a cache way leaves service with
its dirty sectors written back, which memory already holds; a lane stops sending. -/
def State.drain (s : State) (u : Nat) (goal : LaneState) : State :=
  if unitClass u = 3 then
    let k := unitIndex u / 16
    let w := unitIndex u % 16
    let x := s.slice k
    let ways := if bitN x.ways w then x.ways - 2 ^ w else x.ways
    s.setSlice k { x with ways := ways, sets := x.sets.map fun p => (p.1, { p.2 with lines := p.2.lines.filter (·.way ≠ w) }) }
  else match laneOfUnit u with
    | some l => s.setLane l { s.lane l with state := goal, fenced := true }
    | none => s

/-- A cluster slot's domain. -/
def State.dom (s : State) (k : Nat) : SlotPwr := tabGet {} s.pwr.slots k

/-- Put a cluster slot's domain. -/
def State.setDom (s : State) (k : Nat) (x : SlotPwr) : State := { s with pwr := { s.pwr with slots := tabSet s.pwr.slots k x } }

/-- A unit leaves ACTIVE for another state (R758): fenced at once, drained, then at its target; a SPARE or RETIRED slot is
OFF (R638). -/
def State.unitLeave (s : State) (u : Nat) (st : UnitState) : State :=
  let s := (s.setFence u)
  let s := if (s.unit u).state = .fenced then s else s.unitTo u .fenced
  let s := s.drain u (if st = .retired then .retired else .out)
  let s := if st = .fenced then s else s.unitTo u st
  if unitClass u = 1 ∧ (st = .spare ∨ st = .retired) then
    s.setDom (unitIndex u) { s.dom (unitIndex u) with mode := .off, boosting := false, stretching := false }
  else s

/-- A unit whose bring-up passed becomes ACTIVE and then its fence bit clears (R758). A lane's bring-up is its link: it goes
DOWN to relink. -/
def State.unitJoin (s : State) (u : Nat) : State :=
  let s := s.unitTo u .active
  let s := if unitClass u = 3 then
      let k := unitIndex u / 16
      let x := s.slice k
      s.setSlice k { x with ways := x.ways ||| 2 ^ (unitIndex u % 16) }
    else s
  s.clearFence u

/-- Retire a unit (R825, R830): a pseudo-channel only becomes PENDING; the decision enters the repair record (R840). -/
def State.retireUnit (s : State) (u cause : Nat) : State :=
  let s := { s with ras := { s.ras with
      units := tabSet s.ras.units u { state := 2, cause := cause, logical := (s.unit u).logical, since := s.ras.serviceMin }
      dirty := true } }
  if unitClass u = 2 then s.setUnit u { s.unit u with pending := true }
  else if (s.unit u).state = .retired then s
  else s.unitLeave u .retired

/-- The kind of a history event (R830): its window in minutes (none: a boot event) and its threshold. -/
def eventRule (event : Nat) : Option Nat × Nat :=
  match event with
  | 1 => (none, 2)
  | 2 => (some 720, 2)
  | 3 => (some 720, 2)
  | 4 => (some 1440, 4)
  | 5 => (some 1440, 3)
  | 6 => (some 10080, 1)
  | 7 => (some 1440, 3)
  | 8 => (some 10080, 1)
  | 9 => (some 1440, 3)
  | 10 => (some 1440, 3)
  | 11 => (some 10080, 1)
  | 12 => (none, 2)
  | 13 => (some 10080, 8)
  | _ => (none, 2)

/-- Update the history entry of a unit and event kind (R830), and say whether the event is permanent. With more than 4,096
entries the one with the oldest FIRST_MIN goes (R840). -/
def State.history (s : State) (unit event : Nat) : State × Bool :=
  let r := eventRule event
  let old := s.ras.hist.find? fun h => decide (h.unit = unit ∧ h.event = event)
  let h : HistEnt := old.getD { unit := unit, event := event, count := 0, first := s.ras.serviceMin, boot := 0 }
  let h : HistEnt := match r.1 with
    | some win =>
      if old.isSome && decide (s.ras.serviceMin - h.first < win) then { h with count := satAdd 255 h.count 1 }
      else { h with count := 1, first := s.ras.serviceMin }
    | none => { h with count := if old.isSome && decide (h.boot + 1 = s.ras.boots) then satAdd 255 h.count 1 else 1,
                       boot := s.ras.boots }
  let rest := s.ras.hist.filter fun x => !decide (x.unit = unit ∧ x.event = event)
  let all := rest ++ [h]
  let all := if all.length ≤ 4096 then all else
    let oldest := all.foldl (fun m x => min m x.first) h.first
    all.eraseP fun x => decide (x.first = oldest)
  ({ s with ras := { s.ras with hist := all } }, decide (r.2 ≤ h.count))

/-- The spares of an array row (R835): two of a bank of a local store, four of a cache way; of an HBM bank the stack's own,
of which the spec gives no number. -/
def spares (array : Nat) : Option Nat :=
  match array / 2 ^ 28 with
  | 1 => some 2
  | 2 => some 4
  | _ => none

/-- The unit that holds an array's row (R837). -/
def arrayUnit (array : Nat) : Nat :=
  match array / 2 ^ 28 with
  | 1 => unitId 1 (array % 2 ^ 28 / 32)
  | 2 => unitId 3 (array % 2 ^ 28)
  | _ => unitId 2 (array % 2 ^ 28)

/-- Add a repair entry for a row (R836), or retire its unit where no spare is left (R837). An HBM entry makes event 13. -/
def State.repairEntry (s : State) (array row cause : Nat) : State :=
  if s.ras.repairs.any fun r => decide (r.array = array ∧ r.row = row) then s
  else
    let used := (s.ras.repairs.filter fun r => decide (r.array = array)).length
    if (spares array).any fun n => decide (n ≤ used) then s.retireUnit (arrayUnit array) cause
    else
      let s := { s with ras := { s.ras with
        repairs := s.ras.repairs ++ [({ array := array, row := row, since := s.ras.serviceMin } : RepEnt)], dirty := true } }
      let s := s.err 0x0B 3 { sev := 1, act := 6, permanent := true, unit := arrayUnit array, i0 := array, i1 := row }
      if array / 2 ^ 28 = 3 then
        let (s, perm) := s.history (arrayUnit array) 13
        if perm then s.retireUnit (arrayUnit array) 13 else s
      else s

/-- ARRAY and ROW (R838) of a store's address: HBM by pseudo-channel, bank and row (R458); a local store by slot and bank of
64 KiB with rows of 256 bytes (R835). -/
def State.arrayOf (s : State) (a : Nat) : Nat × Nat :=
  if a < 0x400000000000 then
    let n := s.memsys.channels.length
    let g := a / 2304
    let r := g / n
    let rot := ((r * 0x9E3779B1) % 2 ^ 32) % n
    let pc := s.memsys.channels.getD ((g % n + rot) % n) 0
    let o := r * 2304 + a % 2304
    let page := o / 1024
    (3 * 2 ^ 28 + pc, ((page % 16) ^^^ (page / 16 % 16)) + page / 16 * 16)
  else
    let c := (a - 0x400000000000) / 0x1000000
    let off := a % 0x1000000
    (2 ^ 28 + 32 * (s.slotOf c).getD 0 + off / 0x10000 % 32, off % 0x10000 / 256)

/-- The unit key under which the history of a word of a store is kept: its ARRAY value and the word (R830: "at one word"). -/
def State.wordEvent (s : State) (a event : Nat) : State × Bool := s.history ((s.arrayOf a).1) event

/-- Count a corrected or uncorrectable error of a store (R486, R492): an HBM address in STACK_ERRORS of its stack. -/
def State.countEcc (s : State) (a : Nat) (ue : Bool) : State :=
  if a < 0x400000000000 then
    if s.memsys.channels.isEmpty then s else
    let k := ((s.arrayOf a).1 - 3 * 2 ^ 28) / 64
    let x := s.stack k
    s.setStack k (if ue then { x with ue := satAdd 0xFFFF x.ue 1 } else { x with ce := satAdd 0xFFFFFFFF x.ce 1 })
  else s

/-- What the check bits said of a unit that a run-ahead read finds (R473, R831): as below, but nothing is logged. -/
def State.eccQuiet (s : State) (a : Nat) (e : Ecc) : State :=
  let b := a / unitSize a * unitSize a
  let hbm := decide (a < 0x400000000000)
  match e with
  | .clean => s
  | .second => s.countEcc a false
  | .corrected =>
    let s := s.countEcc a false
    let (s, perm) := s.wordEvent a (if hbm then 10 else 7)
    if perm then s.repairEntry (s.arrayOf a).1 (s.arrayOf a).2 (if hbm then 10 else 7) else s
  | .uncorrectable =>
    let s := s.countEcc a true
    let again := !tabGet false s.poison b && s.memsys.found.contains b
    let s : State := { s with poison := tabPut false s.poison b true
                              memsys := { s.memsys with found := if hbm || again then s.memsys.found else b :: s.memsys.found } }
    if again then
      let (s, perm) := s.wordEvent b 8
      if perm then s.repairEntry (s.arrayOf b).1 (s.arrayOf b).2 8 else s
    else if hbm then
      let (s, perm) := s.wordEvent a 11
      if perm then s.repairEntry (s.arrayOf a).1 (s.arrayOf a).2 11 else s
    else s

/-- What the check bits said of the unit at `a` (R482, R483, R486, R830, R831): a correction is counted and makes its event;
a second read that delivers is counted alone; an uncorrectable unit is poisoned, logged and makes its event. -/
def State.ecc (s : State) (a : Nat) (e : Ecc) : State :=
  let s := s.eccQuiet a e
  if e = .uncorrectable then s.notice (a / unitSize a * unitSize a) 1 else s

end Sys2Proof.Machine
end

