-- ==== Sys2Proof/Machine/FabricOps.lean ====
section
/-!
DEFINITION. Sending over the optical fabric: planes in service, send contexts, windows and the transmit queues (R504, R514,
R521 to R537).
-/
namespace Sys2Proof.Machine

/-- A lane in service: UP (R536). -/
def State.laneUp (s : State) (l : Nat) : Bool := decide ((s.lane l).state = .up)

/-- A context's key: control-lane contexts lie above 2^18. -/
def ctxKey (control : Bool) (d : DevId) : Nat := d + (if control then 2 ^ 18 else 0)

/-- Is the context one of the control lanes? -/
def keyControl (k : Nat) : Bool := decide (2 ^ 18 ≤ k)

/-- The lanes that a context sprays over: their number and the first (R523). -/
def keyLanes (k : Nat) : Nat × Nat := if keyControl k then (16, 128) else (128, 0)

/-- The next plane in service at or after `p`, skipping those excluded for the context (R523, R537): a lane. -/
def State.nextPlane (s : State) (k : Nat) (x : SendCtx) (p : Nat) : Option Nat :=
  let (n, base) := keyLanes k
  ((List.range n).map fun i => (p + i) % n).find? (fun q =>
    s.laneUp (base + q) && !(x.excl.any fun e => decide (e.1 = q ∧ s.now < e.2))) |>.map (base + ·)

/-- The plane that a context's next packet starts to look from (R523). -/
def State.firstPlane (s : State) (k : Nat) (x : SendCtx) : Nat :=
  match x.lastPlane with
  | some p => p + 1
  | none => (s.fab.device + k % 2 ^ 17) % (keyLanes k).1

/-- Put a frame on a lane's transmit queue (R532). -/
def State.queueFrame (s : State) (lane : Nat) (dest : DevId) (p : Packet) : State :=
  { s with fab := { s.fab with tx := s.fab.tx ++ [{ lane := lane, cls := p.cls, dest := dest, vid := 0, pkt := p }] } }

/-- A send context. -/
def State.sendCtx (s : State) (k : Nat) : Option SendCtx := tabFind s.fab.send k

/-- Put a send context. -/
def State.setSend (s : State) (k : Nat) (x : SendCtx) : State := { s with fab := { s.fab with send := tabSet s.fab.send k x } }

/-- Send what a context's window lets go (R523, R525): each packet takes the next PSN and plane. -/
def State.pump (s : State) (k : Nat) : Nat → State
  | 0 => s
  | fuel + 1 =>
    match s.sendCtx k with
    | none => s
    | some x =>
      match x.waiting with
      | [] => s
      | (opid, p) :: rest =>
        if !(decide ((x.out.length : Int) < x.w.floor)) then s
        else match s.nextPlane k x (s.firstPlane k x) with
          | none => s
          | some lane =>
            let p := { p with src := s.me, epoch := x.epoch, psn := x.nextPsn % 2 ^ 32, txTime := s.tick % 2 ^ 32 }
            let x := { x with
              waiting := rest, nextPsn := x.nextPsn + 1, lastPlane := some (lane - (keyLanes k).2), idleSince := s.now
              out := x.out ++ [{ pkt := p, opid := opid, sentAt := s.now, plane := lane - (keyLanes k).2 }] }
            State.pump ((s.setSend k x).queueFrame lane (k % 2 ^ 18) p) k fuel

/-- Enough fuel for what a context may let go at once. -/
def pumpFuel (s : State) (k : Nat) : Nat := (s.sendCtx k).elim 0 fun x => x.waiting.length

/-- Hand a packet to the context of its destination, which is allocated where there is none (R521, R522); where every context
is in use it waits. -/
def State.sendPkt (s : State) (control : Bool) (dest : DevId) (opid : Nat) (p : Packet) : State :=
  let k := ctxKey control dest
  match s.sendCtx k with
  | some x => (s.setSend k { x with waiting := x.waiting ++ [(opid, p)] }).pump k (x.waiting.length + 1)
  | none =>
    let used := (s.fab.send.filter fun q => keyControl q.1 == control).length
    if used < (if control then 1024 else 16384) then
      let epoch := (s.fab.epoch + 1) % 65536
      let s := { s with fab := { s.fab with epoch := epoch } }
      (s.setSend k { epoch := epoch, waiting := [(opid, p)], w := (s.fab.wInit : Rat), idleSince := s.now }).pump k 1
    else { s with fab := { s.fab with blocked := s.fab.blocked ++ [(k, opid, p)] } }

/-- Set LAST on an operation's last packet and AUX to its OPID (R512). -/
def stampOp (opid : Nat) : List Packet → List Packet
  | [] => []
  | [p] => [{ p with aux := opid % 65536, flags := 1 }]
  | p :: t => { p with aux := opid % 65536 } :: stampOp opid t

/-- Send an operation to another device: it takes the next OPID and is under way until its packets are acknowledged and
`ret` bytes have come back (R520, R533). -/
def State.sendOp (s : State) (control : Bool) (dest : DevId) (origin : Origin) (ret : Nat) (pkts : List Packet) : State :=
  let opid := s.fab.opidNext
  let s := { s with fab := { s.fab with
    opidNext := opid + 1
    ops := s.fab.ops ++ [{ opid := opid, dest := dest, origin := origin, left := pkts.length, toReturn := ret }] } }
  (stampOp opid pkts).foldl (fun s p => s.sendPkt control dest opid p) s

/-- Send packets that answer an operation of another device, with that operation's OPID (R516, R519). -/
def State.answer (s : State) (dest : DevId) (aux : Nat) (pkts : List Packet) : State :=
  let opid := s.fab.opidNext
  let s := { s with fab := { s.fab with
    opidNext := opid + 1
    ops := s.fab.ops ++ [{ opid := opid, dest := dest, origin := .respond, left := pkts.length }] } }
  ((stampOp 0 pkts).map fun p => { p with aux := aux }).foldl (fun s p => s.sendPkt false dest opid p) s

/-- Cut bytes into packets of at most 4,096 bytes that do not cross a 4,096-byte boundary of the address (R514). -/
def cutData (a : Nat) (bs : List Byte) : Nat → List (Nat × List Byte)
  | 0 => []
  | fuel + 1 =>
    if bs.isEmpty then [] else
      let n := 4096 - a % 4096
      (a, bs.take n) :: cutData (a + n) (bs.drop n) fuel

/-- Cut pods into packets of at most 14 whole pods (R514). -/
def cutPods (a : Nat) (bs : List Byte) : Nat → List (Nat × List Byte)
  | 0 => []
  | fuel + 1 => if bs.isEmpty then [] else (a, bs.take 4032) :: cutPods (a + 4032) (bs.drop 4032) fuel

/-- The packets of a write of bytes (R513, R514). -/
def writePkts (op a job part : Nat) (pods : Bool) (bs : List Byte) : List Packet :=
  (if pods then cutPods a bs (bs.length + 1) else cutData a bs (bs.length + 1)).map fun p =>
    { op := op, cls := 3, part := part, addr := p.1, job := job, payload := p.2 }

/-- The packets of a read of `n` bytes that come back to `ret` (R513, R516): consecutive READs of at most 4,096 bytes. -/
def readPkts (a ret n job part : Nat) : List Packet :=
  (List.range ((n + 4095) / 4096)).map fun i =>
    let m := min 4096 (n - 4096 * i)
    { op := 2, cls := 3, part := part, addr := a + 4096 * i, job := job,
      payload := leBytes 8 (ret + 4096 * i) ++ leBytes 4 m ++ leBytes 4 0 }

/-- The address of the EV_ADD register of counter `e` of logical cluster `c` (R307). -/
def evAddAddr (c e : Nat) : Nat := 0x500000000000 + c * 0x10000 + 0x600 + 8 * e

end Sys2Proof.Machine
end

