-- ==== Sys2Proof/Machine/Mma.lean ====
section
/-!
DEFINITION. The matrix array (spec/04_matrix_array.md): what enters the cells, accumulation and promotion, register
visits, and the correction plane. Nothing here decides when; the events of the cluster do.
-/
namespace Sys2Proof.Machine

/-- R145: the promotion interval of a format pair, either way round. -/
def pairInterval (a b : Fmt) : Nat :=
  let u8n := (if a = .u8 then 1 else 0) + (if b = .u8 then 1 else 0)
  let four := fun f => f == Fmt.s4 || f == Fmt.u4
  if four a && four b then 2048
  else if four a || four b then
    (if u8n = 1 ∧ (a = .u4 ∨ b = .u4) then 128 else 256)
  else match u8n with | 0 => 32 | 1 => 16 | _ => 8

/-- R160: the K-steps between K-progress points. -/
def progressUnit (a b : Fmt) : Nat := max 128 (pairInterval a b)

/-- The saturated range of a wide accumulator (R144). -/
def wideLo : Int := -2147483647
/-- The greater end of that range (R144). -/
def wideHi : Int := 2147483648

/-- One cell while an MMA runs: narrow sum, current shift, wide value and whether a promotion saturated (R140, R142). -/
structure Cell where
  n : Int
  sh : Option Int
  w : Int
  sat : Bool
  deriving DecidableEq, Repr

/-- R143, R144: a promotion. -/
def Cell.promote (c : Cell) : Cell :=
  match c.sh with
  | none => { c with n := 0 }
  | some d =>
    let x := c.w + roundInt .rne c.n d
    { c with n := 0, w := clampInt wideLo wideHi x, sat := c.sat || decide (x < wideLo ∨ wideHi < x) }

/-- R141 item 2, R142: the cell at the first K-step of a slab of shift `d`; a slab without a shift changes nothing. -/
def Cell.enterSlab (d : Option Int) (c : Cell) : Cell :=
  match d, c.sh with
  | none, _ => c
  | some x, none => { c with sh := some x }
  | some x, some y => if x = y then c else { c.promote with sh := some x }

/-- K-steps `k0 ..< k0 + n` of one slab in one cell: `prod κ` is the product at K-step `κ` of the slab. -/
def Cell.run (interval k0 n : Nat) (d : Option Int) (prod : Nat → Int) (c : Cell) : Cell :=
  (List.range n).foldl (fun c t =>
    let k := k0 + t
    let c := if k % 128 = 0 then c.enterSlab d else c
    let c := { c with n := c.n + prod (k % 128) }
    if (k + 1) % interval = 0 then c.promote else c) c

/-- The dense list of a table's first `n` values. -/
def tabDense {α : Type} (d : α) : Nat → Nat → Tab α → List α
  | 0, _, _ => []
  | n + 1, i, [] => d :: tabDense d n (i + 1) []
  | n + 1, i, (a, v) :: t => if a = i then v :: tabDense d n (i + 1) t else d :: tabDense d n (i + 1) ((a, v) :: t)

/-- R62, R63: the code at a row and element column of a register's bytes. -/
def regCode (f : Fmt) (bytes : Array Byte) (row col : Nat) : Nat :=
  if f.narrow4 then
    let b := (bytes.getD (row * 128 + col / 2) 0#8).toNat
    if col % 2 = 0 then b % 16 else b / 16
  else (bytes.getD (row * 128 + col) 0#8).toNat

/-- The register row and element column of output index `i`, K-step `κ` of slab `s` (R130): along rows when the
operand's lines are register rows. -/
def elemAt (lineIsRow : Bool) (s i κ : Nat) : Nat × Nat :=
  if lineIsRow then (i, 128 * s + κ) else (κ, 128 * s + i)

/-- The line exponent of index `i` in slab `s` (R134). -/
def Tag.line (t : Tag) (s i : Nat) : Nat := tabGet 255 t.lines (s * 128 + i)

/-- The block exponent at a register row and element column (R133). -/
def Tag.expAt (t : Tag) (row col : Nat) : Nat := tabGet 255 t.exps (row * 8 + col / 32)

/-- R137, R138: the integer that enters the array. -/
def entered (f : Fmt) (grid : List Int) (code e x : Nat) : Int :=
  if e = 255 then 0 else roundInt .rne (f.value grid code) ((e : Int) - x)

/-- The entered values of one slab of a register, at `128 * index + κ`. -/
def enteredSlab (f : Fmt) (lineIsRow : Bool) (r : TileReg) (s : Nat) : Array Int :=
  let bytes := (tabDense 0#8 16384 0 r.bytes).toArray
  let exps := (tabDense 255 1024 0 r.tag.exps).toArray
  ((List.range 16384).map fun q =>
    let (row, col) := elemAt lineIsRow s (q / 128) (q % 128)
    entered f r.tag.grid (regCode f bytes row col) (exps.getD (row * 8 + col / 32) 255) (r.tag.line s (q / 128))).toArray

/-- The fields of an MMA word (R350). -/
def mmaA (w : Nat) : Option Fmt := fmtOf (fld w 34 32)
/-- FB (R350). -/
def mmaB (w : Nat) : Option Fmt := fmtOf (fld w 38 36)
/-- K (R128, R350). -/
def mmaK (w : Nat) : Nat := 32 * (fld w 82 64 + 1)
/-- The first register and ring size of A (R350). -/
def mmaARing (w : Nat) : Nat × Nat := (fld w 19 16, 2 ^ fld w 21 20)
/-- The first register and ring size of B (R350). -/
def mmaBRing (w : Nat) : Nat × Nat := (fld w 27 24, 2 ^ fld w 29 28)
/-- Are the lines of A register rows (R130)? -/
def mmaARow (w : Nat) : Bool := !(bitN w 9)
/-- Are the lines of B register rows (R130)? -/
def mmaBRow (w : Nat) : Bool := bitN w 10
/-- The span of an operand (R352). -/
def Fmt.span (f : Fmt) : Nat := if f.narrow4 then 256 else 128

/-- The formats of an MMA whose encoding was checked at issue. -/
def mmaFmts (w : Nat) : Fmt × Fmt := ((mmaA w).getD .s8, (mmaB w).getD .s8)

/-- The register that an operand of ring `(r, n)` and span `σ` reads at K-step `k`, and the slab in it (R352). -/
def visitReg (ring : Nat × Nat) (σ k : Nat) : Nat × Nat := (ring.1 + (k / σ) % ring.2, (k % σ) / 128)

/-- Do A and B share their ring (R351)? -/
def mmaShared (w : Nat) : Bool := decide (mmaARing w = mmaBRing w)

/-- The entries into registers in the order of R150: first K-step, and 0 for A, 1 for B, 2 for one that serves both. -/
def mmaEntries (w : Nat) : List (Nat × Nat) :=
  let (fa, fb) := mmaFmts w
  let n := mmaK w
  if mmaShared w then (List.range ((n + fa.span - 1) / fa.span)).map fun v => (fa.span * v, 2)
  else (List.range ((n + 127) / 128)).flatMap fun q =>
    (if (128 * q) % fa.span = 0 then [(128 * q, 0)] else []) ++ (if (128 * q) % fb.span = 0 then [(128 * q, 1)] else [])

/-- The refill visits of an MMA (R354): every visit of a ring after its first round, in order of first K-step. -/
def mmaRefills (w : Nat) : List Refill :=
  let (fa, fb) := mmaFmts w
  let n := mmaK w
  (mmaEntries w).filterMap fun (start, op) =>
    let (ring, f) := if op = 1 then (mmaBRing w, fb) else (mmaARing w, fa)
    let v := start / f.span
    if v < ring.2 then none
    else some { reg := ring.1 + v % ring.2, start := start, covers1 := f.narrow4 && decide (start + 128 < n) }

/-- The FORMAT and LINE_AXIS checks of R135 and R353 at a visit. -/
def visitOk (f : Fmt) (lineIsRow : Bool) (r : TileReg) : Bool := r.tag.fmt == some f && r.tag.lineAxis == !lineIsRow

/-- A tile register of a cluster. -/
def Cluster.tile (c : Cluster) (n : Nat) : TileReg := tabGet {} c.tiles n
/-- Accumulator set `n`. -/
def Cluster.acc (c : Cluster) (n : Nat) : AccSet := if n = 0 then c.a0 else c.a1
/-- Replace accumulator set `n`. -/
def Cluster.setAcc (c : Cluster) (n : Nat) (a : AccSet) : Cluster := if n = 0 then { c with a0 := a } else { c with a1 := a }

/-- What advancing an MMA gives: the run, its set, events, and the first register that fails its check. -/
structure MmaStep where
  run : MmaRun
  acc : AccSet
  flags : Flags := 0#5
  bad : Option Nat := none
  deriving DecidableEq, Repr

/-- All 16,384 cells of a set under a function of cell number. -/
def mapCells (m : MmaRun) (a : AccSet) (f : Nat → Cell → Cell) : MmaRun × AccSet × Flags :=
  let ns := (tabDense (0 : Int) 16384 0 m.narrow).toArray
  let ws := (tabDense (0 : Int) 16384 0 a.w).toArray
  let shs := (tabDense (none : Option Int) 16384 0 (m.shift.map fun p => (p.1, some p.2))).toArray
  let cells := (List.range 16384).map fun q =>
    f q { n := ns.getD q 0, sh := shs.getD q none, w := ws.getD q 0, sat := false }
  let arr := cells.toArray
  let get := fun q => arr.getD q { n := 0, sh := none, w := 0, sat := false }
  let sat := cells.any (·.sat)
  ({ m with narrow := tabOf 0 16384 (fun q => (get q).n)
            shift := (List.range 16384).filterMap fun q => (get q).sh.map fun d => (q, d) },
   { a with w := tabOf 0 16384 (fun q => (get q).w), sat := a.sat || sat },
   if sat then flagAccOvf else noFlags)

/-- The K-steps `m.k ..< m.k + n` of one slab (R127 to R145), promoting at multiples of `interval`; 0 makes no promotion
(R155). -/
def mmaSlab (c : Cluster) (m : MmaRun) (a : AccSet) (interval n : Nat) : MmaRun × AccSet × Flags :=
  let w := m.w
  let (fa, fb) := mmaFmts w
  let (ra, sa) := visitReg (mmaARing w) fa.span m.k
  let (rb, sb) := visitReg (mmaBRing w) fb.span m.k
  let ta := c.tile ra
  let tb := c.tile rb
  let ea := enteredSlab fa (mmaARow w) ta sa
  let eb := enteredSlab fb (mmaBRow w) tb sb
  let (m1, a1, fl) := mapCells m a fun q cell =>
    let i := q / 128
    let j := q % 128
    let xa := ta.tag.line sa i
    let xb := tb.tag.line sb j
    let d : Option Int := if xa = 255 ∨ xb = 255 then none else some ((xa : Int) + xb - 254 - a.xref)
    cell.run interval m.k n d (fun κ => ea.getD (128 * i + κ) 0 * eb.getD (128 * j + κ) 0)
  ({ m1 with k := m.k + n }, { a1 with poison := a1.poison || ta.poison || tb.poison }, fl)

/-- Promote every cell (R141 item 3, R135). -/
def mmaPromote (m : MmaRun) (a : AccSet) : MmaRun × AccSet × Flags := mapCells m a fun _ cell => cell.promote

/-- The register that fails its visit check at K-step `m.k`, if any: A before B (R353). -/
def mmaBadReg (c : Cluster) (m : MmaRun) : Option Nat :=
  let (fa, fb) := mmaFmts m.w
  let ra := (visitReg (mmaARing m.w) fa.span m.k).1
  let rb := (visitReg (mmaBRing m.w) fb.span m.k).1
  if m.k % fa.span = 0 ∧ visitOk fa (mmaARow m.w) (c.tile ra) = false then some ra
  else if m.k % fb.span = 0 ∧ visitOk fb (mmaBRow m.w) (c.tile rb) = false then some rb
  else none

/-- Advance an MMA to K-step `target`, slab by slab, stopping at a register that fails its check with every promotion
of the slabs before it made (R135). -/
def mmaAdvance (c : Cluster) (target : Nat) : Nat → MmaStep → MmaStep
  | 0, st => st
  | fuel + 1, st =>
    if target ≤ st.run.k then st else
      match mmaBadReg c st.run with
      | some r =>
        let (m, a, fl) := mmaPromote st.run st.acc
        { run := m, acc := a, flags := st.flags ||| fl, bad := some r }
      | none =>
        let n := min target (128 * (st.run.k / 128 + 1)) - st.run.k
        let (m, a, fl) := mmaSlab c st.run st.acc (pairInterval (mmaFmts st.run.w).1 (mmaFmts st.run.w).2) n
        mmaAdvance c target fuel { run := m, acc := a, flags := st.flags ||| fl, bad := none }

/-- An item of a correction list (R147): line, K-step, slab, F32 value. -/
def itemFields (v : Nat) : Nat × Nat × Nat × Nat := (fld v 6 0, fld v 13 7, fld v 14 14, fld v 63 32)

/-- What the other operand of a correction delivers at (index, K-step): the value of its item there, or its entered
value times 2 ^ (X - 127); for an A correction's B side an item counts, for a B correction's A side it counts as 0. -/
def otherValue (f : Fmt) (lineIsRow : Bool) (r : TileReg) (items : List (Nat × Bool)) (asZero : Bool) (s κ i : Nat) :
    FVal × Bool :=
  match items.find? fun it => let (l, ks, sl, _) := itemFields it.1; l == i && ks == κ && sl == s with
  | some it => (if asZero then .zero else decF32 (itemFields it.1).2.2.2, it.2)
  | none =>
    let (row, col) := elemAt lineIsRow s i κ
    let x := r.tag.line s i
    let code :=
      if f.narrow4 then
        let b := (tabGet 0#8 r.bytes (row * 128 + col / 2)).toNat
        if col % 2 = 0 then b % 16 else b / 16
      else (tabGet 0#8 r.bytes (row * 128 + col)).toNat
    let v := entered f r.tag.grid code (r.tag.expAt row col) x
    (if x = 255 then .zero else .fin v ((x : Int) - 127), false)

/-- One pass of corrections (R149, R150): `isA` says whether the items are A items; `k0` is the first K-step of the
visit, `own` its register's items. The other operand is given by its ring, format and a reader of a register's items. -/
def correctPass (c : Cluster) (w : Nat) (isA : Bool) (k0 : Nat) (own : List (Nat × Bool))
    (itemsOf : Nat → List (Nat × Bool)) (a : AccSet) : AccSet × Flags :=
  let (fa, fb) := mmaFmts w
  own.foldl (fun (acc : AccSet × Flags) it =>
    let (line, ks, sl, val) := itemFields it.1
    let k := k0 + 128 * sl + ks
    if mmaK w ≤ k then acc else
      let f := if isA then fb else fa
      let (reg, s) := visitReg (if isA then mmaBRing w else mmaARing w) f.span k
      let r := c.tile reg
      let others := itemsOf reg
      (List.range 128).foldl (fun (acc : AccSet × Flags) x =>
        let (v, p) := otherValue f (if isA then mmaBRow w else mmaARow w) r others (!isA) s (k % 128) x
        let q := if isA then 128 * line + x else 128 * x + line
        let (e, f1) := (decF32 val).fma v (decF32 (tabGet 0 acc.1.c q))
        let (code, f2) := encF32 .rne e
        ({ acc.1 with c := tabPut 0 acc.1.c q code, poison := acc.1.poison || it.2 || p || r.poison },
         acc.2 ||| f1 ||| f2)) acc) (a, noFlags)

/-- The correction cycles of register entry `n` of an MMA (R150, R151). -/
def correctEntry (c : Cluster) (w n : Nat) (itemsOf : Nat → List (Nat × Bool)) (a : AccSet) : AccSet × Flags :=
  match (mmaEntries w)[n]? with
  | none => (a, noFlags)
  | some (k0, op) =>
    let (fa, fb) := mmaFmts w
    let own := fun (isA : Bool) =>
      itemsOf (visitReg (if isA then mmaARing w else mmaBRing w) (if isA then fa.span else fb.span) k0).1
    if op = 0 then correctPass c w true k0 (own true) itemsOf a
    else if op = 1 then correctPass c w false k0 (own false) itemsOf a
    else
      let (a1, f1) := correctPass c w true k0 (own true) itemsOf a
      let (a2, f2) := correctPass c w false k0 (own true) itemsOf a1
      (a2, f1 ||| f2)

/-- How many register entries an MMA with `k` K-steps made has entered. -/
def enteredCount (w k : Nat) : Nat := ((mmaEntries w).filter fun e => decide (e.1 < k)).length

/-- R156: what a drain delivers for element `q` of a set. -/
def drainElem (a : AccSet) (q : Nat) : FVal × Flags :=
  let (v, f1) := (FVal.fin (tabGet 0 a.w q) a.xref).add (decF32 (tabGet 0 a.c q))
  let (code, f2) := encF32 .rne v
  (decF32 code, f1 ||| f2)

/-- R153: a set zeroed, with XREF loaded. -/
def AccSet.zeroed (xref : Int) : AccSet := { xref := xref }

end Sys2Proof.Machine
end

