-- ==== Sys2Proof/Machine/Pour.lean ====
section
/-!
DEFINITION. The vector engine (spec/05_vector_engine.md): chain descriptors and their checks, the stages, reductions,
PACK into registers and pods, lookup and rescale tables, and the lane generators.
-/
namespace Sys2Proof.Machine

/-! ### Generators -/

/-- R207: one draw of lane `l`: the next state and the 16-bit value. -/
def genDraw (l : Nat) (s : W64) : W64 × Nat :=
  let s' := s * 0x5851F42D4C957F2D#64 + BitVec.ofNat 64 (2 * l + 1)
  (s', (((s' >>> 48) ^^^ (s' >>> 32)) &&& 0xFFFF#64).toNat)

/-- The mixing of R210. -/
def seedMix (x : W64) : W64 :=
  let x := (x ^^^ (x >>> 30)) * 0xBF58476D1CE4E5B9#64
  let x := (x ^^^ (x >>> 27)) * 0x94D049BB133111EB#64
  x ^^^ (x >>> 31)

/-- R210: the seeded state of lane `l` of cluster `c`. -/
def genSeed (jobSeed step rank c l : Nat) : W64 :=
  seedMix (BitVec.ofNat 64 jobSeed + BitVec.ofNat 64 step * 0x9E3779B97F4A7C15#64
    + BitVec.ofNat 64 ((rank * 256 + c) * 128 + l) * 0xD1B54A32D192ED03#64)

/-! ### Chain descriptors -/

/-- A stage entry (R177). -/
structure Stage where
  kind : Nat
  prec : Bool
  rmode : Bool
  bit7 : Bool
  sub : Nat
  aux : Nat
  op1 : Nat
  op2 : Nat
  op3 : Nat
  deriving DecidableEq, Repr

/-- STAGE_COUNT (R176). -/
def chainCount (ch : List Byte) : Nat := leAt ch 0 1
/-- SRC_FMT (R176). -/
def chainSrc (ch : List Byte) : Nat := leAt ch 1 1
/-- DST_FMT (R176). -/
def chainDst (ch : List Byte) : Nat := leAt ch 2 1
/-- SRC_SLAB (R176). -/
def chainSlab (ch : List Byte) : Nat := leAt ch 3 1 % 2
/-- The F32 immediate `k` (R176). -/
def chainImm (ch : List Byte) (k : Nat) : Nat := leAt ch (8 + 4 * k) 4

/-- Stage `i` of a chain (R177). -/
def chainStage (ch : List Byte) (i : Nat) : Stage :=
  let v := leAt ch (32 + 16 * i) 16
  { kind := fld v 4 0, prec := bitN v 5, rmode := bitN v 6, bit7 := bitN v 7, sub := fld v 15 8, aux := fld v 31 16
    op1 := fld v 63 32, op2 := fld v 95 64, op3 := fld v 127 96 }

/-- The stages of a chain. -/
def chainStages (ch : List Byte) : List Stage := (List.range (min 8 (chainCount ch))).map (chainStage ch)

/-- OKIND, FMT and VAL of an operand reference (R178). -/
def opKind (o : Nat) : Nat := fld o 1 0
/-- FMT: is the operand H16 (R178)? -/
def opH16 (o : Nat) : Bool := bitN o 2
/-- VAL (R178). -/
def opVal (o : Nat) : Nat := fld o 31 4

/-- The size of a local store (R36). -/
def lsSize : Nat := 0x200000

/-- A group's registers for a format code 1 H16, 2 F32, 3 I32, 4 narrow (R170). -/
def groupRegs (fmt n : Nat) : List Nat := if fmt = 1 then [n, n + 1] else if fmt = 4 then [n] else [n, n + 1, n + 2, n + 3]

/-- Is a group's first register aligned (R170)? -/
def groupOk (fmt n : Nat) : Bool := decide (n < 16) && (if fmt = 1 then n % 2 == 0 else if fmt = 4 then true else n % 4 == 0)

/-- The registers that a tile operand reads (R178). -/
def opRegs (o : Nat) : List Nat := if opKind o = 3 then groupRegs (if opH16 o then 1 else 2) (opVal o) else []

/-- Is an operand reference valid (R178, R179)? -/
def opValid (o : Nat) : Bool :=
  match opKind o with
  | 0 => !(opH16 o) && decide (opVal o < 4)
  | 3 => groupOk (if opH16 o then 1 else 2) (opVal o)
  | _ => opVal o % 32 == 0 && decide (opVal o + (if opH16 o then 256 else 512) ≤ lsSize)

/-- Is a raw address aligned and its structure within the local store (R879)? -/
def rawOk (addr align len : Nat) : Bool := addr % align == 0 && decide (addr + len ≤ lsSize)

/-- The operand words that a stage uses, by kind and mode (R182, R879). -/
def Stage.ops (g : Stage) : List Nat :=
  match g.kind with
  | 0x01 => if bitN g.sub 4 then [g.op1] else []
  | 0x02 => [g.op1] | 0x03 => [g.op1] | 0x04 => [g.op1, g.op2] | 0x09 => [g.op1] | 0x0B => [g.op1] | 0x0C => [g.op1]
  | 0x0A => (if bitN g.sub 0 then [] else [g.op1]) ++ (if bitN g.sub 1 then [] else [g.op2])
  | _ => []

/-- Does the stage compute with PREC (R180)? -/
def Stage.precKind (g : Stage) : Bool := [0x02, 0x03, 0x04, 0x05, 0x0B, 0x0C].contains g.kind

/-- The bytes of the structure that OP3 addresses, 0 where the stage does not use OP3 (R195, R194, R246, R201). -/
def Stage.op3Len (g : Stage) (toReg : Bool) : Option Nat :=
  match g.kind with
  | 0x01 => if bitN g.sub 4 then some 512 else none
  | 0x0E => if bitN g.sub 0 || bitN g.sub 1 then some 2048 else none
  | 0x0F => some (if bitN g.sub 4 then 0x204 else 0x200)
  | 0x10 => if toReg ∧ g.sub % 8 = 2 then some (8 * (g.aux / 4)) else none
  | _ => none

/-- What a chain is checked against: the POUR's SRC, DST and TRANSPOSE, the kind and tensor format of a destination
slot, and the cluster's registers and tables. -/
structure ChainCtx where
  src : Nat
  dst : Nat
  transpose : Bool
  slotPod : Bool
  slotFmt : Option Fmt
  c : Cluster

/-- Does DST name a store slot (R358)? -/
def ChainCtx.toSlot (x : ChainCtx) : Bool := decide (0x18 ≤ x.dst)
/-- The registers that the destination writes. -/
def ChainCtx.dstRegs (x : ChainCtx) (ch : List Byte) : List Nat := if x.toSlot then [] else groupRegs (chainDst ch) x.dst
/-- The registers that the source reads. -/
def ChainCtx.srcRegs (x : ChainCtx) (ch : List Byte) : List Nat :=
  if 0x10 ≤ x.src then [] else groupRegs (if chainSrc ch = 4 then 4 else chainSrc ch) x.src

/-- The lowest of the fault codes whose condition holds. -/
def lowestCode (l : List (Nat × Bool)) : Option Nat := (l.find? fun p => p.2).map (·.1)

/-- R181, R258, R359: the fault of a chain's header, if any; a SRC or DST whose register is not the first of a group of its format
does not agree with it (DEDUCED, log entry 21). -/
def headerFault (x : ChainCtx) (ch : List Byte) : Option Nat :=
  let sf := chainSrc ch
  let df := chainDst ch
  let narrowSrc := x.c.tile x.src
  let packs := (chainStages ch).any fun g => g.kind == 0x10
  let srcOk := decide (x.src < 16) && decide (1 ≤ sf) && decide (sf ≤ 4) && groupOk sf x.src
  let dstOk := !x.toSlot && decide (1 ≤ df) && decide (df ≤ 4) && groupOk df x.dst
  lowestCode [
    (1, decide (8 < chainCount ch)),
    (3, (df == 4 && !packs) || (x.toSlot && df == 4 && !x.slotPod)
        || (x.toSlot && decide (1 ≤ df) && decide (df ≤ 3) && x.slotPod)),
    (5, sf == 4 && decide (x.src < 16) && narrowSrc.tag.fmt == none),
    (6, x.transpose && srcOk && dstOk && (x.srcRegs ch).any fun r => (x.dstRegs ch).contains r),
    (9, decide (4 < sf) || decide (df = 0 ∨ 4 < df) || leAt ch 3 1 / 2 != 0 || leAt ch 4 4 != 0 || leAt ch 0x18 8 != 0
        || !(if sf = 0 then decide (0x10 ≤ x.src) else srcOk) || !(x.toSlot || dstOk)
        || (chainSlab ch == 1 && !(sf == 4 && decide (x.src < 16) && (narrowSrc.tag.fmt.map Fmt.narrow4).getD false)))]

/-- R879, R183 to R198: does a stage hold a field or encoding that must be zero or is reserved? -/
def Stage.badFields (g : Stage) (toReg : Bool) : Bool :=
  let z := fun (b : Bool) => !b
  let op1Used := (g.ops.contains g.op1 && g.kind != 0x0A) || (g.kind == 0x0A && !(bitN g.sub 0))
    || (g.kind == 0x10 && toReg && g.sub % 8 == 2)
  let op2Used := g.kind == 0x04 || (g.kind == 0x0A && !(bitN g.sub 1))
  g.bit7
  || (!op1Used && g.op1 != 0) || (!op2Used && g.op2 != 0) || ((g.op3Len toReg).isNone && g.op3 != 0)
  || g.ops.any (fun o => bitN o 3)
  || (match g.kind with
    | 0x01 => g.sub / 32 != 0
    | 0x02 => g.sub / 2 != 0 || g.aux != 0
    | 0x03 => g.sub != 0 || g.aux != 0
    | 0x04 => g.sub / 2 != 0 || g.aux != 0
    | 0x05 => g.sub != 0 || g.aux != 0
    | 0x06 => g.sub / 4 != 0 || g.aux != 0
    | 0x07 => g.sub != 0 || g.aux != 0
    | 0x08 => g.sub != 0 || g.aux != 0
    | 0x09 => decide (5 < g.sub % 8) || g.sub / 8 % 4 == 3 || g.sub / 32 != 0 || g.aux != 0
    | 0x0A => g.sub / 4 != 0 || g.aux != 0
    | 0x0B => g.sub != 0 || g.aux != 0
    | 0x0C => g.sub != 0 || g.aux != 0
    | 0x0D => decide (5 < g.sub % 8) || g.sub / 8 != 0 || g.aux != 0
    | 0x0E => g.sub / 4 != 0 || (bitN g.sub 0 && (bitN g.sub 1 || g.aux != 0))
    | 0x0F => g.sub % 4 == 3 || g.sub / 64 != 0 || (bitN g.sub 5 && z (bitN g.sub 4))
        || (if bitN g.sub 5 then g.aux / 64 != 0 else g.aux != 0)
    | 0x10 => decide (4 < g.sub % 8) || (g.sub % 8 != 2 && g.sub / 8 != 0)
        || (if toReg then
              (decide (3 ≤ g.sub % 8) && g.aux % 2 == 1) || (g.sub % 8 != 2 && g.aux / 4 != 0)
            else g.aux != 0)
    | _ => false)

/-- R181: the fault of stage `i`, if any. -/
def stageFault (x : ChainCtx) (ch : List Byte) (i : Nat) : Option Nat :=
  let g := chainStage ch i
  let before := (chainStages ch).take i
  let count := fun k => (before.filter fun h => h.kind == k).length
  let toReg := !x.toSlot
  let pack := g.kind == 0x10
  let fmt := fmtOf (g.sub % 8)
  let tag := (x.c.tile x.dst).tag
  lowestCode [
    (1, decide (g.kind = 0 ∨ 0x10 < g.kind)),
    (2, (g.prec && (!g.precKind || g.ops.any fun o => opKind o == 0 || !(opH16 o)))
        || (g.rmode && !(g.kind == 0x0D || (pack && g.sub % 8 != 2) || (g.prec && g.precKind)))),
    (3, pack && (decide (i + 1 ≠ chainCount ch) || chainDst ch != 4
        || (x.toSlot && x.slotPod && fmt != x.slotFmt))),
    (4, (g.kind == 0x06 && decide (2 ≤ count 0x06)) || (g.kind == 0x01 && decide (2 ≤ count 0x01))
        || (g.kind == 0x0F && decide (2 ≤ count 0x0F)) || (g.kind == 0x0E && decide (1 ≤ count 0x0E))
        || (pack && decide (1 ≤ count 0x10))),
    (5, g.ops.any (fun o => !(opValid o)) || (g.kind == 0x01 && bitN g.sub 4 && opKind g.op1 != 3)
        || (match g.op3Len toReg with | some n => !(rawOk g.op3 32 n) | none => false)
        || (pack && toReg && g.sub % 8 == 2 && !(rawOk g.op1 16 16))),
    (6, x.transpose && g.ops.any fun o => (opRegs o).any fun r => (x.dstRegs ch).contains r),
    (7, g.kind == 0x01 && decide ((tabGet {} x.c.rts (g.sub % 4)).channels < g.aux + 128)),
    (8, pack && toReg && (fmt.map Fmt.narrow4).getD false && g.aux % 2 == 1
        && !(tag.fmt == fmt && tag.lineAxis == bitN g.aux 1 && tag.clCap == (if g.sub % 8 = 2 then g.aux / 4 else 0)
             && tag.clAddr == (if g.sub % 8 = 2 then g.op3 else 0))),
    (9, g.badFields toReg)]

/-- R181: the first fault of a chain: FAULT_STAGE (0xF for the header) and FAULT_CODE. -/
def chainFault (x : ChainCtx) (ch : List Byte) : Option (Nat × Nat) :=
  match headerFault x ch with
  | some k => some (15, k)
  | none => (List.range (min 8 (chainCount ch))).findSome? fun i => (stageFault x ch i).map fun k => (i, k)

/-! ### The stream -/

/-- A stream element in one of its three types (R172). -/
inductive SVal where
  | f (code : Nat)
  | h (code : Nat)
  | i (v : Int)
  deriving DecidableEq, Repr

/-- The exact value of an element. -/
def SVal.val : SVal → FVal
  | .f c => decF32 c | .h c => decH16 c | .i v => .ofInt v

/-- R172: an element as F32. -/
def SVal.toF : SVal → Nat × Flags
  | .f c => (c, noFlags)
  | .h c => encF32 .rne (decH16 c)
  | .i v => encF32 .rne (.ofInt v)

/-- R172: an element as H16. -/
def SVal.toH : SVal → Nat × Flags
  | .f c => encH16 .rne (decF32 c)
  | .h c => (c, noFlags)
  | .i v => encH16 .rne (.ofInt v)

/-- Do two elements have the same type (R190)? -/
def SVal.sameType : SVal → SVal → Bool
  | .f _, .f _ => true | .h _, .h _ => true | .i _, .i _ => true | _, _ => false

/-- +0 in the type of an element (R192). -/
def SVal.zeroed : SVal → SVal
  | .f _ => .f 0 | .h _ => .h 0 | .i _ => .i 0

/-- What a Pour reads beside its chain: the cluster, its local store (bytes at an offset), and the POUR's word. -/
structure PourEnv where
  c : Cluster
  ls : Nat → Nat → List Byte
  src : Nat
  dst : Nat
  transpose : Bool
  chain : List Byte

/-- Element (r, k) of a tile group: H16 pair or 32-bit quad, from register `n` (R170). -/
def groupElem (c : Cluster) (h16 : Bool) (n r k : Nat) : Nat :=
  if h16 then
    let b := (c.tile (n + k / 64)).bytes
    ofLe [tabGet 0#8 b (128 * r + 2 * (k % 64)), tabGet 0#8 b (128 * r + 2 * (k % 64) + 1)]
  else
    let b := (c.tile (n + k / 32)).bytes
    let o := 128 * r + 4 * (k % 32)
    ofLe [tabGet 0#8 b o, tabGet 0#8 b (o + 1), tabGet 0#8 b (o + 2), tabGet 0#8 b (o + 3)]

/-- R170, R171: the source element of stream row `t`, lane `l`, with the events that entering sets. -/
def srcElem (e : PourEnv) (t0 l0 : Nat) : SVal × Flags :=
  let (t, l) := if e.transpose then (l0, t0) else (t0, l0)
  match chainSrc e.chain with
  | 0 =>
    let a := e.c.acc (e.src - 0x10)
    let (x, f1) := (FVal.fin (tabGet 0 a.w (128 * t + l)) a.xref).add (decF32 (tabGet 0 a.c (128 * t + l)))
    let (c, f2) := encF32 .rne x
    (.f c, f1 ||| f2)
  | 1 => (.h (groupElem e.c true e.src t l), noFlags)
  | 2 => (.f (groupElem e.c false e.src t l), noFlags)
  | 3 => (.i (signed 32 (groupElem e.c false e.src t l)), noFlags)
  | _ =>
    let r := e.c.tile e.src
    let f := r.tag.fmt.getD .s8
    let col := if f.narrow4 then 128 * chainSlab e.chain + l else l
    let b := (tabGet 0#8 r.bytes (if f.narrow4 then t * 128 + col / 2 else t * 128 + col)).toNat
    let code := if f.narrow4 then (if col % 2 = 0 then b % 16 else b / 16) else b
    let v := if f = .g4 ∧ code = 8 then FVal.zero else e8Scale (r.tag.expAt t col) (.ofInt (f.value r.tag.grid code))
    let (c, fl) := encF32 .rne v
    (.f c, fl)

/-- An operand at stream position (t, l) (R178, R179). -/
def opElem (e : PourEnv) (o t l : Nat) : SVal :=
  let wrap := fun n => if opH16 o then SVal.h n else SVal.f n
  let sz := if opH16 o then 2 else 4
  match opKind o with
  | 0 => .f (chainImm e.chain (opVal o))
  | 1 => wrap (ofLe (e.ls (opVal o + sz * l) sz))
  | 2 => wrap (ofLe (e.ls (opVal o + sz * t) sz))
  | _ =>
    let (r, k) := if e.transpose then (l, t) else (t, l)
    wrap (groupElem e.c (opH16 o) (opVal o) r k)

/-- 1 / x correctly rounded to F32 (R185). -/
def recipF32 (x : FVal) : Nat × Flags :=
  match x with
  | .nan => (0x7FC00000, noFlags)
  | .inf _ => (0, noFlags)
  | .fin m e =>
    if m = 0 then (0x7F800000, noFlags) else
      let a := m.natAbs
      let k := Nat.log2 a + 66
      let q := 2 ^ k / a
      let st := if q * a = 2 ^ k then 0 else 1
      let y : Int := (2 * q + st : Nat)
      encF32 .rne (.fin (if m < 0 then -y else y) (-(k : Int) - 1 - e))

/-- The integer square root, bit by bit from `2 ^ b`. -/
def isqrt (b n : Nat) : Nat :=
  (List.range (b + 1)).foldl (fun r i => let c := r + 2 ^ (b - i); if c * c ≤ n then c else r) 0

/-- 1 / √x correctly rounded to F32 (R185). -/
def rsqrtF32 (x : FVal) : Nat × Flags :=
  match x with
  | .nan => (0x7FC00000, noFlags)
  | .inf s => if s then (0x7FC00000, flagNanGen) else (0, noFlags)
  | .fin m e =>
    if m = 0 then (0x7F800000, noFlags)
    else if m < 0 then (0x7FC00000, flagNanGen)
    else
      let (a, f) : Nat × Int := if e % 2 = 0 then (m.natAbs, e / 2) else (2 * m.natAbs, (e - 1) / 2)
      let j := Nat.log2 a + 40
      let r := isqrt (j + 1) (2 ^ (2 * j) / a)
      let st := if r * r * a = 2 ^ (2 * j) then 0 else 1
      encF32 .rne (.fin (2 * r + st : Nat) (-(j : Int) - 1 - f))

/-- R206: the lookup. -/
def lutF32 (t : Lut) (x : FVal) : Nat × Flags :=
  let (u0, f0) := x.fma (decF32 t.invStep) (decF32 t.offset)
  let (uc, f1) := encF32 .rne u0
  let u := decF32 uc
  let fl := f0 ||| f1
  let ent := fun i => (encF32 .rne (decF32 (tabGet 0 t.t i))).1
  if u = .nan then (0x7FC00000, fl)
  else if Pred.lt.holds u .zero && !t.edgeLo then (ent 0, fl)
  else if Pred.ge.holds u (.ofInt 255) && !t.edgeHi then (ent 255, fl)
  else
    let i : Int := match u with
      | .inf s => if s then 0 else 254
      | .fin m e => clampInt 0 254 (if 0 ≤ e then shlInt m e.toNat else m / (2 ^ (-e).toNat : Nat))
      | .nan => 0
    let (d, f2) := u.add (.ofInt (-i))
    let (fc, f3) := encF32 .rne d
    let (y, f4) := (decF32 fc).fma (decF32 (tabGet 0 t.d i.toNat)) (decF32 (tabGet 0 t.t i.toNat))
    let (yc, f5) := encF32 .rne y
    (yc, fl ||| f2 ||| f3 ||| f4 ||| f5)

/-- One element in its lane as it passes the stages: value, condition bit (R187), generator, events, and the F32 inputs
of the stages that gather (REDUCE, EMIT) or the kept bit of MASK, latest first. -/
structure Lane where
  v : SVal
  cond : Bool := false
  gen : W64
  fl : Flags := 0#5
  tr : List Nat := []
  deriving DecidableEq, Repr

/-- The rounding of a stage, with the generator after its draw (R86, R87). -/
def Lane.mode (x : Lane) (sr : Bool) (l : Nat) : Mode × W64 :=
  if sr then let (g, r) := genDraw l x.gen; (.sr r, g) else (.rne, x.gen)

/-- A stage of ADD, MUL, FMA or SQUARE on exact values (R183). -/
def arithExact (kind sub : Nat) (x a b : FVal) : FVal × Flags :=
  match kind with
  | 0x02 => x.add (if bitN sub 0 then a.neg else a)
  | 0x03 => x.mul a
  | 0x04 => if bitN sub 0 then a.fma b x else x.fma a b
  | _ => x.mul x

/-- One stage other than PACK on one element (R182 to R196). -/
def stageElem (e : PourEnv) (g : Stage) (t l : Nat) (x : Lane) : Lane :=
  let o1 := opElem e g.op1 t l
  let o2 := opElem e g.op2 t l
  let asF := x.v.toF
  match g.kind with
  | 0x01 =>
    let rt := tabGet {} e.c.rts (g.sub % 4)
    let ent := tabGet 0 rt.ent (g.aux + (if bitN g.sub 2 then t else l))
    let (y, f1) := (decF32 asF.1).fma (decF32 (ent % 2 ^ 32)) (if bitN g.sub 3 then decF32 (ent / 2 ^ 32) else .zero)
    let (c, f2) := encF32 .rne y
    { x with v := .f c, fl := x.fl ||| asF.2 ||| f1 ||| f2, tr := if bitN g.sub 4 then asF.1 :: x.tr else x.tr }
  | 0x06 =>
    let (c, f) := lutF32 (tabGet {} e.c.luts (g.sub % 4)) (decF32 asF.1)
    { x with v := .f c, fl := x.fl ||| asF.2 ||| f }
  | 0x07 => let (c, f) := recipF32 (decF32 asF.1); { x with v := .f c, fl := x.fl ||| asF.2 ||| f }
  | 0x08 => let (c, f) := rsqrtF32 (decF32 asF.1); { x with v := .f c, fl := x.fl ||| asF.2 ||| f }
  | 0x09 =>
    let p : Pred := match g.sub % 8 with | 0 => .eq | 1 => .ne | 2 => .lt | 3 => .le | 4 => .gt | _ => .ge
    let r := p.holds (decF32 asF.1) o1.val
    let cond := match g.sub / 8 % 4 with | 0 => r | 1 => x.cond && r | _ => x.cond || r
    { x with cond := cond, fl := x.fl ||| asF.2 }
  | 0x0A =>
    let a := if bitN g.sub 0 then x.v else o1
    let b := if bitN g.sub 1 then x.v else o2
    let ch := if x.cond then a else b
    if a.sameType b then { x with v := ch }
    else let (c, f) := ch.toF; { x with v := .f c, fl := x.fl ||| f }
  | 0x0D =>
    let (m, gen) := x.mode g.rmode l
    let y := decF32 asF.1
    if g.sub % 8 = 0 then
      let (c, f) := encH16 m y
      { x with v := .h c, gen := gen, fl := x.fl ||| asF.2 ||| f }
    else
      let (lo, hi) : Int × Int := match g.sub % 8 with
        | 1 => (-8, 7) | 2 => (0, 15) | 3 => (-128, 127) | 4 => (0, 255) | _ => (-2147483648, 2147483647)
      let (i, f) := toIntSat m lo hi y
      { x with v := .i i, gen := gen, fl := x.fl ||| asF.2 ||| f }
  | 0x0E =>
    if bitN g.sub 0 then
      let b := (e.ls (g.op3 + 16 * t + l / 8) 1).headD 0#8
      let keep := bitN b.toNat (l % 8)
      { x with v := if keep then x.v else x.v.zeroed, tr := b2n keep :: x.tr }
    else
      let (gen, r) := genDraw l x.gen
      let keep := decide (g.aux ≤ r)
      { x with v := if keep then x.v else x.v.zeroed, gen := gen, tr := b2n keep :: x.tr }
  | 0x0F => { x with fl := x.fl ||| asF.2, tr := asF.1 :: x.tr }
  | k =>
    if k = 0x0B ∨ k = 0x0C then
      if g.prec then
        let (c, f) := x.v.toH
        let r := if k = 0x0B then (decH16 c).max o1.val else (decH16 c).min o1.val
        { x with v := .h (encH16 .rne r).1, fl := x.fl ||| f }
      else
        let r := if k = 0x0B then (decF32 asF.1).max o1.val else (decF32 asF.1).min o1.val
        { x with v := .f (encF32 .rne r).1, fl := x.fl ||| asF.2 }
    else if g.prec then
      let (c, f) := x.v.toH
      let (m, gen) := x.mode g.rmode l
      let (y, f1) := arithExact k g.sub (decH16 c) o1.val o2.val
      let (d, f2) := encH16 m y
      { x with v := .h d, gen := gen, fl := x.fl ||| f ||| f1 ||| f2 }
    else
      let (y, f1) := arithExact k g.sub (decF32 asF.1) o1.val o2.val
      let (d, f2) := encF32 .rne y
      { x with v := .f d, fl := x.fl ||| asF.2 ||| f1 ||| f2 }

/-- One element through every stage before PACK. -/
def laneRun (e : PourEnv) (stages : List Stage) (t l : Nat) (gen : W64) : Lane :=
  let (v, f) := srcElem e t l
  stages.foldl (fun x g => if g.kind = 0x10 then x else stageElem e g t l x) { v := v, gen := gen, fl := f }

/-- One stream row: the lanes after their stages, with the draw that an SR PACK makes in each (R199). -/
def rowRun (e : PourEnv) (stages : List Stage) (packSr : Bool) (t : Nat) (gens : List W64) : List (Lane × Nat) :=
  (List.range 128).map fun l =>
    let x := laneRun e stages t l (gens.getD l 0#64)
    if packSr then let (g, r) := genDraw l x.gen; ({ x with gen := g }, r) else (x, 0)

/-- Every stream row in order (R169, R208). -/
def rowsRun (e : PourEnv) (stages : List Stage) (packSr : Bool) : Nat → Nat → List W64 → List (List (Lane × Nat))
  | 0, _, _ => []
  | n + 1, t, gens =>
    let row := rowRun e stages packSr t gens
    row :: rowsRun e stages packSr n (t + 1) (row.map (·.1.gen))

/-! ### Reductions -/

/-- The combination of REDUCE: MAX, or an F32 addition under RNE (R196). -/
def redCombine (isMax : Bool) (a b : Nat) : Nat × Flags :=
  if isMax then (encF32 .rne ((decF32 a).max (decF32 b)))
  else let (s, f) := (decF32 a).add (decF32 b); let (c, f2) := encF32 .rne s; (c, f ||| f2)

/-- One halving of the tree of R196. -/
def redHalf (isMax : Bool) (v : List Nat) (w : Nat) : List Nat × Flags :=
  (List.range w).foldr (fun l (acc : List Nat × Flags) =>
    let (c, f) := redCombine isMax (v.getD l 0) (v.getD (l + w) 0)
    (c :: acc.1, acc.2 ||| f)) ([], noFlags)

/-- The tree of R196 over 128 values. -/
def redTree (isMax : Bool) (v : List Nat) : Nat × Flags :=
  let (r, f) := [64, 32, 16, 8, 4, 2, 1].foldl (fun (acc : List Nat × Flags) w =>
    let (n, f) := redHalf isMax acc.1 w
    (n, acc.2 ||| f)) (v, noFlags)
  (r.headD 0, f)

/-- A product rounded to F32. -/
def mulF (a b : Nat) : Nat × Flags :=
  let (p, f) := (decF32 a).mul (decF32 b)
  let (c, f2) := encF32 .rne p
  (c, f ||| f2)

/-- A fused multiply-add rounded to F32. -/
def fmaF (a b c : Nat) : Nat × Flags :=
  let (p, f) := (decF32 a).fma (decF32 b) (decF32 c)
  let (d, f2) := encF32 .rne p
  (d, f ||| f2)

/-- Map a function that sets events over a list. -/
def mapFl {α : Type} (f : α → Nat × Flags) (l : List α) : List Nat × Flags :=
  l.foldr (fun x (acc : List Nat × Flags) => let (c, fl) := f x; (c :: acc.1, acc.2 ||| fl)) ([], noFlags)

/-- R196: the 128 results of a REDUCE over the matrix of its inputs (rows of lanes). -/
def reduceRows (sub : Nat) (x : List (List Nat)) : List Nat × Flags :=
  let isMax := sub % 4 == 1
  let ssq := sub % 4 == 2
  if bitN sub 2 then
    mapFl (fun l =>
      let col := x.map fun r => r.getD l 0
      let a0 := col.headD 0
      let start := if ssq then mulF a0 a0 else (a0, noFlags)
      (col.drop 1).foldl (fun (acc : Nat × Flags) v =>
        let (c, f) := if ssq then fmaF v v acc.1 else redCombine isMax acc.1 v
        (c, acc.2 ||| f)) start) (List.range 128)
  else
    mapFl (fun r =>
      let (v, f0) := if ssq then mapFl (fun a => mulF a a) r else (r, noFlags)
      let (c, f) := redTree isMax v
      (c, f0 ||| f)) x

/-- R246: the EMIT vector, from the values found at OP3, the stage's inputs and its partners. -/
def emitRows (byRow : Bool) (g0 : List Nat) (x p : List (List Nat)) : List Nat × Flags :=
  if byRow then
    mapFl (fun t =>
      let (v, f0) := mapFl (fun l => mulF ((x.getD t []).getD l 0) ((p.getD t []).getD l 0)) (List.range 128)
      let (s, f1) := redTree false v
      let (c, f2) := redCombine false (g0.getD t 0) s
      (c, f0 ||| f1 ||| f2)) (List.range 128)
  else
    mapFl (fun l =>
      (List.range 128).foldl (fun (acc : Nat × Flags) t =>
        let (c, f) := fmaF ((x.getD t []).getD l 0) ((p.getD t []).getD l 0) acc.1
        (c, acc.2 ||| f)) (g0.getD l 0, noFlags)) (List.range 128)

/-! ### PACK -/

/-- The elements of lanes `32 b ..` of a row as PACK sees them; INT and H16 enter as F32 (R198, R172). -/
def packBlockElems (row : List (Lane × Nat)) (skip : Nat → Bool) (b : Nat) : List PackElem × Flags :=
  (List.range 32).foldr (fun k (acc : List PackElem × Flags) =>
    let l := 32 * b + k
    let (c, f) := (row.getD l ({ v := .f 0, gen := 0#64 }, 0)).1.v.toF
    (if skip l then .none :: acc.1 else .coded (decF32 c) :: acc.1, acc.2 ||| f)) ([], noFlags)

/-- The rounding of each lane of block `b` under PACK. -/
def packMode (sr : Bool) (row : List (Lane × Nat)) (b k : Nat) : Mode :=
  if sr then .sr (row.getD (32 * b + k) ({ v := .f 0, gen := 0#64 }, 0)).2 else .rne

/-- R134: the line exponents of a slab from its block exponents (`row * 4 + block`). -/
def lineExps (axisCol : Bool) (exps : Tab Nat) (i : Nat) : Nat :=
  let blocks := if axisCol then (List.range 128).map fun r => 4 * r + i / 32 else (List.range 4).map fun b => 4 * i + b
  let vals := blocks.filterMap fun q => let e := tabGet 255 exps q; if e = 255 then none else some e
  if vals.isEmpty then 255 else vals.foldl max 0

/-- A correction item (R147). -/
def itemWord (line ks slab kind val : Nat) : Nat := line + ks * 2 ^ 7 + slab * 2 ^ 14 + kind * 2 ^ 15 + val * 2 ^ 32

/-- The order key of an item (R148): SLAB, KSTEP, LINE. -/
def itemKey (line ks slab : Nat) : Nat := (slab * 128 + ks) * 128 + line

/-- Insert by a rising key. -/
def insertKey {α : Type} (k : Nat) (v : α) : List (Nat × α) → List (Nat × α)
  | [] => [(k, v)]
  | (a, w) :: t => if k < a then (k, v) :: (a, w) :: t else (a, w) :: insertKey k v t

/-- A list sorted by its keys. -/
def sortKeys {α : Type} (l : List (Nat × α)) : List (Nat × α) := l.foldr (fun p acc => insertKey p.1 p.2 acc) []

/-- Replace slab `s` of a 4-bit register, or the whole of an 8-bit one: its codes. -/
def putSlabCodes (f : Fmt) (s : Nat) (old : Tab Byte) (code : Nat → Nat → Nat) : Tab Byte :=
  tabOf 0#8 16384 fun q =>
    let r := q / 128
    let b := q % 128
    if f.narrow4 then
      if b / 64 = s then BitVec.ofNat 8 (code r (2 * (b % 64)) + 16 * code r (2 * (b % 64) + 1)) else tabGet 0#8 old q
    else BitVec.ofNat 8 (code r b)

/-- Merge block exponents of slab `s` (keyed `row * 4 + block`) into a tag's table (`row * 8 + block of the row`). -/
def putSlabExps (s : Nat) (keepOther : Bool) (old : Tab Nat) (exps : Tab Nat) : Tab Nat :=
  tabOf 255 1024 fun q =>
    let r := q / 8
    let b := q % 8
    if b / 4 = s then tabGet 255 exps (4 * r + b % 4) else if keepOther then tabGet 255 old q else 255

/-- Merge line exponents of slab `s` into a tag's table. -/
def putSlabLines (s : Nat) (keepOther : Bool) (axisCol : Bool) (old : Tab Nat) (exps : Tab Nat) : Tab Nat :=
  tabOf 255 256 fun q =>
    if q / 128 = s then lineExps axisCol exps (q % 128) else if keepOther then tabGet 255 old q else 255

/-- The blocks of the stream, planned: for row `t` and block `b`, its elements and plan. -/
structure PlannedBlock where
  es : List PackElem
  plan : BlockPlan
  deriving DecidableEq, Repr

/-- Plan every block of every row (R106, R229). -/
def planRows (f : Fmt) (grid : List Int) (sub : Nat) (rows : List (List (Lane × Nat))) (skip : Nat → Nat → Bool) :
    List (List PlannedBlock) × Flags :=
  (List.range rows.length).foldr (fun t (acc : List (List PlannedBlock) × Flags) =>
    let bs := (List.range 4).map fun b => packBlockElems (rows.getD t []) (skip t) b
    (bs.map (fun (es, _) => { es := es, plan := planBlock f grid (fld sub 4 3) (fld sub 7 5) es }) :: acc.1,
     bs.foldl (fun fl p => fl ||| p.2) acc.2)) ([], noFlags)

/-- R201 to R203: PACK into register `dst`: the register, the bytes of its new items at their list place, events, and
whether items were dropped. -/
def packReg (c : Cluster) (dst : Nat) (g : Stage) (ls : Nat → Nat → List Byte) (rows : List (List (Lane × Nat))) :
    TileReg × List (Nat × List Byte) × Flags × Bool :=
  let f := (fmtOf (g.sub % 8)).getD .s8
  let grid := if f = .g4 then gridOf (ls g.op1 16) else []
  let s := if f.narrow4 then g.aux % 2 else 0
  let axisCol := bitN g.aux 1
  let old := c.tile dst
  let cap := if f = .g4 then g.aux / 4 else 0
  let addr := if f = .g4 then g.op3 else 0
  let had := if s = 1 then old.tag.clCount0 else 0
  let (plans, fl0) := planRows f grid g.sub rows fun _ _ => false
  let blk := fun t b => (plans.getD t []).getD b { es := [], plan := { exp := 255, escs := [] } }
  let escs := sortKeys ((List.range 128).flatMap fun t => (List.range 4).flatMap fun b =>
    (blk t b).plan.escs.map fun k =>
      let col := 32 * b + k
      (if axisCol then itemKey col t s else itemKey t col s, (t, col)))
  let kept := (escs.take (cap - had)).map (·.2)
  let coded := (List.range 128).map fun t => (List.range 4).map fun b =>
    codeBlock f grid (blk t b).plan ((kept.filter fun p => p.1 == t && p.2 / 32 == b).map fun p => p.2 % 32)
      (packMode g.rmode (rows.getD t []) b) (blk t b).es
  let cell := fun t b => (coded.getD t []).getD b ([], [], noFlags)
  let fl1 := coded.foldl (fun a r => r.foldl (fun a p => a ||| p.2.2) a) fl0
  let exps := tabOf 255 512 fun q => (blk (q / 4) (q % 4)).plan.exp
  let (items, fl2) := kept.foldr (fun (t, col) (acc : List (List Byte) × Flags) =>
      let h := ((cell t (col / 32)).2.1.find? fun p => p.1 == col % 32).map (·.2)
      let (v, f) := encF32 .rne (e8Scale (tabGet 255 exps (4 * t + col / 32)) (decH16 (h.getD 0)))
      (leBytes 8 (if axisCol then itemWord col t s 0 v else itemWord t col s 0 v) :: acc.1, acc.2 ||| f)) ([], noFlags)
  let keepOther := s == 1
  let base := if s = 1 then old.bytes else []
  ({ bytes := putSlabCodes f s base fun r k => (cell r (k / 32)).1.getD (k % 32) 0
     poison := false
     tag := { fmt := some f, exps := putSlabExps s keepOther old.tag.exps exps
              lines := putSlabLines s keepOther axisCol old.tag.lines exps, lineAxis := axisCol, grid := grid
              clAddr := addr, clCap := cap, clCount0 := if s = 1 then had else kept.length
              clCount1 := if s = 1 then kept.length else 0 } },
   [(addr + 8 * had, items.flatten)], fl1 ||| fl2, decide (cap - had < escs.length))

/-- One pod as PACK writes it, with what it took of the side list. -/
structure PackedPod where
  item : StoreItem
  cursor : Nat
  flags : Flags
  full : Bool
  deriving DecidableEq, Repr

/-- R112, R113, R200: PACK of pod `u` of tile (ti, tj) from its stream rows. -/
def packPod (d : TensorDesc) (grid : List Int) (wide : List Nat) (g : Stage) (rows : List (List (Lane × Nat)))
    (plans : List (List PlannedBlock)) (ti tj u idx cursor limit : Nat) : PackedPod :=
  let f := d.fmt
  let h := f.podRows
  let k := d.tilePod ti tj + u
  let blk := fun b => (plans.getD (h * u + b / 4) []).getD (b % 4) { es := [], plan := { exp := 255, escs := [] } }
  let nb := f.podElems / 32
  let escs := (List.range nb).flatMap fun b =>
    (List.range 32).filterMap fun i => if (blk b).plan.escs.contains i then some (32 * b + i) else none
  let n := escs.length
  let need := segSectors (n - 4)
  let more := decide (5 < n)
  let full := more && decide (limit < cursor + need)
  let kept := if full then escs.take 5 else escs
  let coded := (List.range nb).map fun b =>
    codeBlock f grid (blk b).plan ((kept.filter fun p => p / 32 == b).map (· % 32))
      (packMode g.rmode (rows.getD (h * u + b / 4) []) (b % 4)) (blk b).es
  let codes := coded.flatMap (·.1)
  let vals := (List.range nb).flatMap fun b => ((coded.getD b ([], [], noFlags)).2.1).map fun p => (32 * b + p.1, p.2)
  let fl := coded.foldl (fun a p => a ||| p.2.2) noFlags
  let seg := more && !full
  let wides := (List.range (h * 128)).filterMap fun p =>
    let r := 128 * ti + h * u + p / 128
    let cc := 128 * tj + p % 128
    if d.isPad r cc then none else (d.wideOf wide r cc).map fun w => (p, d.wideAddr w r cc)
  let (wd, fl2) := wides.foldr (fun (p, a) (acc : List (Nat × List Byte) × Flags) =>
      let e := (rows.getD (h * u + p / 128) []).getD (p % 128) ({ v := .f 0, gen := 0#64 }, 0)
      let (c, f0) := e.1.v.toF
      let (x, f1) := encH16 (if g.rmode then .sr e.2 else .rne) (decF32 c)
      ((a, leBytes 2 x) :: acc.1, acc.2 ||| f0 ||| f1)) ([], noFlags)
  { item := { idx := idx, addr := d.podBase + 288 * k
              bytes := encodePod f codes ((List.range nb).map fun b => (blk b).plan.exp) vals
                (if seg then some cursor else none)
              extra := wd ++ (if seg then [(d.sideBase + 32 * cursor, encodeSegment k (vals.drop 4))] else []) }
    cursor := if seg then cursor + need else cursor, flags := fl ||| fl2, full := full }

/-- PACK of every existing pod of a tile, in pod order (R293). -/
def packTile (d : TensorDesc) (sl : Slot) (g : Stage) (rows : List (List (Lane × Nat))) :
    List StoreItem × Nat × Flags × List Nat :=
  let skip := fun t l =>
    let r := 128 * sl.posA + t
    let c := 128 * sl.posB + l
    d.isPad r c || (d.wideOf sl.wide r c).isSome
  let (plans, fl0) := planRows d.fmt sl.grid g.sub rows skip
  (List.range (d.groupsIn sl.posA)).foldl (fun (acc : List StoreItem × Nat × Flags × List Nat) u =>
    let p := packPod d sl.grid sl.wide g rows plans sl.posA sl.posB u (sl.nextIdx + u) acc.2.1 sl.desc.slB
    (acc.1 ++ [p.item], p.cursor, acc.2.2.1 ||| p.flags, if p.full then acc.2.2.2 ++ [p.item.addr] else acc.2.2.2)) ([], sl.slCursor, fl0, [])

/-! ### The whole Pour -/

/-- One element written in DST_FMT 1 H16, 2 F32 or 3 I32 (R173). -/
def writeElem (df : Nat) (v : SVal) : List Byte × Flags :=
  match df with
  | 1 => let (c, f) := encH16 .rne v.val; (leBytes 2 c, f)
  | 2 => let (c, f) := encF32 .rne v.val; (leBytes 4 c, f)
  | _ =>
    match v with
    | .i x => (leBytes 4 (unsigned 32 x), noFlags)
    | _ => let (x, f) := toIntSat .rne (-2147483648) 2147483647 v.val; (leBytes 4 (unsigned 32 x), f)

/-- One row in DST_FMT, as bytes. -/
def writeRow (df : Nat) (row : List (Lane × Nat)) : List Byte × Flags :=
  row.foldr (fun p (acc : List Byte × Flags) => let (b, f) := writeElem df p.1.v; (b ++ acc.1, acc.2 ||| f)) ([], noFlags)

/-- The registers of a group that rows of bytes fill (R170, R173): tag FORMAT NONE. -/
def groupWrite (df dst : Nat) (rows : List (List Byte)) : List (Nat × TileReg) :=
  let rs := rows.map List.toArray
  (List.range (groupRegs df 0).length).map fun k =>
    (dst + k, { bytes := tabOf 0#8 16384 fun q => (rs.getD (q / 128) #[]).getD (128 * k + q % 128) 0#8 })

/-- What a Pour produces: its output, generators, events, conditions of pods and of the correction list. -/
structure PourResult where
  out : PourOut
  gens : List W64
  flags : Flags
  sideFull : List Nat := []
  clFull : Bool
  cursor : Nat

/-- The outputs that the stages write at the end (R197). `tr` is the trace of each element, in stage order. -/
def pourVecs (e : PourEnv) (stages : List Stage) (rows : List (List (Lane × Nat))) : List PourVec × Flags :=
  let gather := stages.filter fun g => (g.kind == 0x01 && bitN g.sub 4) || g.kind == 0x0E || g.kind == 0x0F
  let tr := rows.map fun r => r.map fun p => p.1.tr.reverse
  (List.range gather.length).foldr (fun k (acc : List PourVec × Flags) =>
    match gather[k]? with
    | none => acc
    | some g =>
      let x := tr.map fun r => r.map fun l => l.getD k 0
      if g.kind = 0x0F then
        let (v, f) := reduceRows g.sub x
        (.reduce g.sub g.aux g.op3 v :: acc.1, acc.2 ||| f)
      else if g.kind = 0x0E then
        if bitN g.sub 1 then
          (.bitmap g.op3 ((List.range 2048).map fun b =>
            BitVec.ofNat 8 ((List.range 8).map fun j => ((x.getD (b / 16) []).getD (8 * (b % 16) + j) 0) * 2 ^ j).sum) :: acc.1,
           acc.2)
        else acc
      else
        let p := (List.range 128).map fun t => (List.range 128).map fun l => (opElem e g.op1 t l).toF.1
        let g0 := (List.range 128).map fun k => ofLe (e.ls (g.op3 + 4 * k) 4)
        let (v, f) := emitRows (bitN g.sub 2) g0 x p
        (.emit g.op3 v :: acc.1, acc.2 ||| f)) ([], noFlags)

/-- R169 to R203: everything a Pour computes, from the generators' states. `sl` is the destination slot, if any. -/
def pourRun (e : PourEnv) (gens : List W64) (sl : Slot) : PourResult :=
  let stages := chainStages e.chain
  let df := chainDst e.chain
  let pack := stages.find? fun g => g.kind == 0x10
  let rows := rowsRun e stages ((pack.map (·.rmode)).getD false) 128 0 gens
  let gens' := (rows.getLastD []).map (·.1.gen)
  let fl0 := rows.foldl (fun a r => r.foldl (fun a p => a ||| p.1.fl) a) noFlags
  let (vecs, fl1) := pourVecs e stages rows
  let toSlot := decide (0x18 ≤ e.dst)
  match pack with
  | some g =>
    if toSlot then
      match sl.tensor with
      | none => { out := { vecs := vecs }, gens := gens', flags := fl0 ||| fl1, clFull := false, cursor := 0 }
      | some d =>
        let (items, cur, f, full) := packTile d sl g rows
        { out := { vecs := vecs, slot := e.dst - 0x18 + 8, items := items }, gens := gens', flags := fl0 ||| fl1 ||| f
          sideFull := full, clFull := false, cursor := cur }
    else
      let (r, lists, f, drop) := packReg e.c e.dst g e.ls rows
      { out := { vecs := vecs, regs := [(e.dst, r)], lists := lists }, gens := gens', flags := fl0 ||| fl1 ||| f
        clFull := drop, cursor := 0 }
  | none =>
    let wr := rows.map (writeRow df)
    let f := wr.foldl (fun a p => a ||| p.2) noFlags
    let bytes := wr.map (·.1)
    if toSlot then
      let d := sl.desc
      let items := (List.range 128).filterMap fun t =>
        let row := sl.posA + t
        if row < d.f14 then
          some { idx := sl.nextIdx + t, addr := d.addr + d.stride * row, bytes := bytes.getD t [] : StoreItem }
        else none
      { out := { vecs := vecs, slot := e.dst - 0x18 + 8, items := items }, gens := gens', flags := fl0 ||| fl1 ||| f
        clFull := false, cursor := sl.slCursor }
    else
      { out := { vecs := vecs, regs := groupWrite df e.dst bytes }, gens := gens', flags := fl0 ||| fl1 ||| f
        clFull := false, cursor := 0 }

end Sys2Proof.Machine
end

