-- ==== Sys2Proof/Machine/Seq.lean ====
section
/-!
DEFINITION. The tile instructions that the sequencer itself runs, but for its memory accesses: control, scalar, counters,
SIGNAL and FENCE (R319 to R329, R333, R334, R362, R363), and what ends a held WAIT or FENCE (R271 to R273, R324).
-/
namespace Sys2Proof.Machine

/-- NOP (R319). -/
def execNop (c : BitVec 8) (bits : BitVec 120) (s : State) : Res :=
  s.issue c.toNat fun k =>
    if onlyBits (iword 0x01 bits) [] then s.setCl c.toNat k.retire else s.illegal c.toNat

/-- A jump or taken branch to an address. -/
def Cluster.goto (k : Cluster) (t : Nat) : Cluster := { k with pc := t, hold := .none }

/-- JUMP (R319, R320): the target is read before the link address is written. -/
def execJump (c : BitVec 8) (bits : BitVec 120) (s : State) : Res :=
  s.issue c.toNat fun k =>
    let w := iword 0x02 bits
    if !onlyBits w [(8, 8), (20, 16), (28, 24), (63, 32)] then s.illegal c.toNat
    else
      let ra := k.sreg (fld w 28 24)
      let target := if bitN w 8 then (if ra % 16 = 0 ∧ ra < 0x200000 then some ra else none) else branchTarget k.pc (sfld w 63 32)
      match target with
      | none => s.ifault c.toNat 0x06 true (if bitN w 8 then ra else 0)
      | some t => s.setCl c.toNat ((k.setS (fld w 20 16) (k.pc + 16)).goto t)

/-- The condition of BR (R319); none for the reserved codes. -/
def brCond (code a b : Nat) : Option Bool :=
  match code with
  | 0 => some (a == b)
  | 1 => some (a != b)
  | 2 => some (decide (signed 64 a < signed 64 b))
  | 3 => some (decide (signed 64 b ≤ signed 64 a))
  | 4 => some (decide (a < b))
  | 5 => some (decide (b ≤ a))
  | _ => none

/-- Branch when the condition holds: only a branch that is taken checks its target (R317). -/
def State.branch (s : State) (c : Nat) (k : Cluster) (taken : Bool) (off : Int) : State :=
  if taken then
    match branchTarget k.pc off with
    | none => s.ifault c 0x06 true
    | some t => s.setCl c (k.goto t)
  else s.setCl c k.retire

/-- BR (R319). -/
def execBr (c : BitVec 8) (bits : BitVec 120) (s : State) : Res :=
  s.issue c.toNat fun k =>
    let w := iword 0x03 bits
    let b := if bitN w 11 then unsigned 64 (sfld w 95 64) else k.sreg (fld w 28 24)
    match onlyBits w [(10, 8), (11, 11), (20, 16), (28, 24), (63, 32), (95, 64)], brCond (fld w 10 8) (k.sreg (fld w 20 16)) b with
    | true, some t => s.branch c.toNat k t (sfld w 63 32)
    | _, _ => s.illegal c.toNat

/-- LOOP (R321): the branch of a count that is not yet zero. A branch that faults writes nothing (R303). -/
def execLoop (c : BitVec 8) (bits : BitVec 120) (s : State) : Res :=
  s.issue c.toNat fun k =>
    let w := iword 0x04 bits
    if !onlyBits w [(20, 16), (63, 32)] then s.illegal c.toNat
    else
      let n := unsigned 64 ((k.sreg (fld w 20 16) : Int) - 1)
      let taken := decide (n ≠ 0)
      if taken && (branchTarget k.pc (sfld w 63 32)).isNone then s.ifault c.toNat 0x06 true
      else s.branch c.toNat (k.setS (fld w 20 16) n) taken (sfld w 63 32)

/-- Correction cycles of entries that the MMA has made are outstanding (R149, R151). -/
def Cluster.corrPending (k : Cluster) : Bool := k.mma0.any fun r => decide (r.corr < enteredCount r.w r.k)

/-- Every Pour of the previous step, and every correction, is complete (R273). -/
def Cluster.drained (k : Cluster) : Bool :=
  (k.pour0.all fun p => p.late) && (k.pour1.all fun p => p.late) && !k.corrPending

/-- The generators of a cluster as seeded for the step being begun (R210, R211); in free mode they stay (R209). -/
def State.reseed (s : State) (c : Nat) : State :=
  if s.job.seeded then
    s.modCl c fun k =>
      { k with gens := (List.range 128).map fun l => (l, genSeed s.job.seed s.step.number s.job.rank c l),
               seeded := true, seedStep := s.step.number % 2 ^ 32 }
  else s

/-- The header of a rescale record is sound, with its CHANNELS (R238, R240). -/
def rtHeader (hdr : List Byte) : Option Nat :=
  let ch := leAt hdr 0 2
  if decide (1 ≤ ch ∧ ch ≤ 4096) && (slice hdr 2 30).all (· == 0#8) then some ch else none

/-- Read a rescale record's entries into table `n` (R238, R239, R243); a poisoned record poisons the table (R485). -/
def State.fillRt (s : State) (c n off ch : Nat) : State :=
  let a := lsBase c + off
  let t : Rt := { channels := ch, addr := off, ent := tabOf 0 ch fun i => leAt (s.bytes (a + 32 + 8 * i) 8) 0 8
                  poison := s.poisoned a (32 + 8 * ch) }
  s.modCl c fun k => { k with rts := tabSet k.rts n t }

/-- A reload of table `n` from its record address (R253 to R255): an invalid record leaves the table, sets RT_STALE and is
logged the first time after a job load. -/
def State.reloadRt (s : State) (c n : Nat) : State :=
  let k := s.cl c
  let off := (tabGet {} k.rts n).addr
  match rtHeader (s.lsBytes c off 32) with
  | some ch => if off + 32 + 8 * ch ≤ 0x200000 then s.fillRt c n off ch else stale
  | none => stale
where
  /-- the record is invalid -/
  stale : State :=
    let k := s.cl c
    let s' := s.setCl c { k with rtStale := k.rtStale ||| BitVec.ofNat 4 (2 ^ n), rtLogged := true }
    if k.rtLogged then s' else s'.err 1 4 { sev := 0, cluster := c, i0 := n, i1 := (tabGet {} k.rts n).addr }

/-- A table that holds a record (RT_LOADED, R252). -/
def Cluster.rtLoaded (k : Cluster) (n : Nat) : Bool := decide (0 < (tabGet {} k.rts n).channels)

/-- An active store stream that packs G4 (R252). -/
def Slot.packsG4 (x : Slot) : Bool :=
  (decide (x.state = .running) || decide (x.state = .paused)) && x.desc.store && x.desc.pod &&
    (x.tensor.any fun t => decide (t.fmt = .g4))

/-- Every active store stream that packs G4 must reread its grid record before its next pod. -/
def Cluster.staleGrids (k : Cluster) : Cluster :=
  { k with slots := k.slots.map fun p => (p.1, if p.2.packsG4 then { p.2 with gridStale := true } else p.2) }

/-- What the step start does once every Pour and correction of the previous step is complete (R211, R253, R273). -/
def State.beginStep (s : State) (c : Nat) : State :=
  let s := s.reseed c
  let s := (List.range 4).foldl (fun s n => if (s.cl c).rtLoaded n then s.reloadRt c n else s) s
  s.modCl c fun k =>
    { k.staleGrids with transInv := true, stepStart := false
                        pour0 := k.pour0.map fun p => { p with late := false }
                        pour1 := k.pour1.map fun p => { p with late := false } }

/-- A step start that waits takes place as soon as it can (R273). -/
def State.tryStep (s : State) (c : Nat) : State := if (s.cl c).stepStart && (s.cl c).drained then s.beginStep c else s

/-- A WAIT is satisfied (R271, R273, R324): CONSUME subtracts, PC advances; on e63 it is the cluster's step start. -/
def State.waitDone (s : State) (c ev thr : Nat) (consume : Bool) : State :=
  let k := s.cl c
  let k := (if consume then k.setEv ev (k.ev ev + 2 ^ 64 - thr) else k).retire
  if ev = 63 then (s.setCl c { k with stepStart := true }).tryStep c else s.setCl c k

/-- WAIT (R323, R324): the threshold is read at issue; a counter that already meets it satisfies the WAIT at once. -/
def execWait (c : BitVec 8) (bits : BitVec 120) (s : State) : Res :=
  s.issue c.toNat fun k =>
    let w := iword 0x05 bits
    if !onlyBits w [(8, 8), (9, 9), (21, 16), (28, 24), (127, 64)] then s.illegal c.toNat
    else
      let thr := if bitN w 9 then k.sreg (fld w 28 24) else fld w 127 64
      let ev := fld w 21 16
      if thr ≤ k.ev ev then s.waitDone c.toNat ev thr (bitN w 8)
      else s.setCl c.toNat { k with hold := .wait ev thr (bitN w 8) s.tick }

/-- WAIT_SATISFIED (R271, R324): a held WAIT whose counter has reached its threshold. -/
def execWaitSatisfied (c : BitVec 8) (s : State) : Res :=
  let k := s.cl c.toNat
  match k.hold with
  | .wait ev thr consume _ =>
    .next (if decide (thr ≤ k.ev ev) && decide (k.st = .running) && s.clocked then s.waitDone c.toNat ev thr consume else s)
  | _ => .next s

/-- WAIT_TIMEOUT (R272): a held WAIT that stayed unsatisfied for more than WAIT_LIMIT µs of system tick time. -/
def execWaitTimeout (c : BitVec 8) (s : State) : Res :=
  let k := s.cl c.toNat
  match k.hold with
  | .wait ev thr _ since =>
    .next (if decide (k.st = .running ∧ 0 < k.waitLimit ∧ k.ev ev < thr ∧ k.waitLimit * 1000 < s.tick - since) then
        s.ifault c.toNat 0x09 true
      else s)
  | _ => .next s

/-- Send a SIGNAL's value (R326): within the device it reaches the counter; through a window it travels as an atomic add. -/
def State.sendSignal (s : State) (c w : Nat) : State :=
  let k := s.cl c
  let v := if bitN w 10 then k.sreg (fld w 44 40) else fld w 127 64
  let t := s.window c (fld w 37 32)
  let s := s.setCl c k.retire
  if t.dev = s.me then s.arrive (fld w 31 24) (fld w 21 16) v
  else s.sendOp false t.dev (.signal c) 0
    [{ op := 8, addr := evAddAddr (fld w 31 24) (fld w 21 16), job := s.job.tag, payload := leBytes 8 v }]

/-- SIGNAL (R325 to R327): with REL it first meets the REL condition, and UNITS when set, and holds issue until then. -/
def execSignal (c : BitVec 8) (bits : BitVec 120) (s : State) : Res :=
  s.issue c.toNat fun k =>
    let w := iword 0x06 bits
    if !onlyBits w [(8, 8), (9, 9), (10, 10), (21, 16), (31, 24), (37, 32), (44, 40), (127, 64)] || fld w 21 16 == 63 ||
        (bitN w 9 && !bitN w 8) then s.illegal c.toNat
    else
      let t := s.window c.toNat (fld w 37 32)
      if !(t.valid && t.wr) then s.ifault c.toNat 0x06 true
      else if bitN w 8 then
        let s := s.cleanCache c.toNat
        let marks := s.marks c.toNat
        if s.relDone c.toNat marks && (!bitN w 9 || k.unitsDone) then s.sendSignal c.toNat w
        else s.modCl c.toNat fun k => { k with hold := .rel w marks }
      else s.sendSignal c.toNat w

/-- HALT (R322): the cluster halts and ENDED is set; PC names the next instruction (log entry 6). -/
def execHalt (c : BitVec 8) (bits : BitVec 120) (s : State) : Res :=
  s.issue c.toNat fun k =>
    if onlyBits (iword 0x07 bits) [] then s.setCl c.toNat (k.retire.halt true) else s.illegal c.toNat

/-- The operation that FUNC selects (R329); none for a reserved code. -/
def aluOp (func a b : Nat) : Option Nat :=
  let m := 2 ^ 64
  let pick (p : Bool) := some (if p then a else b)
  let sh := b % 64
  match func with
  | 0x00 => some ((a + b) % m)
  | 0x01 => some ((a + m - b) % m)
  | 0x02 => some (a &&& b)
  | 0x03 => some (a ||| b)
  | 0x04 => some (a ^^^ b)
  | 0x05 => some ((a <<< sh) % m)
  | 0x06 => some (a >>> sh)
  | 0x07 => some (unsigned 64 (signed 64 a / (2 ^ sh : Nat)))
  | 0x08 => some (a * b % m)
  | 0x09 => some (a * b / m)
  | 0x0A => some (b2n (decide (signed 64 a < signed 64 b)))
  | 0x0B => some (b2n (decide (a < b)))
  | 0x0C => pick (decide (signed 64 a ≤ signed 64 b))
  | 0x0D => pick (decide (signed 64 b ≤ signed 64 a))
  | 0x0E => pick (decide (a ≤ b))
  | 0x0F => pick (decide (b ≤ a))
  | _ => none

/-- Write a scalar result. -/
def State.scalar (s : State) (c : Nat) (k : Cluster) (rd : Nat) (v : Option Nat) (ok : Bool) : State :=
  match ok, v with
  | true, some v => s.setCl c (k.setS rd v).retire
  | _, _ => s.illegal c

/-- ALU (R328, R329). -/
def execAlu (c : BitVec 8) (bits : BitVec 120) (s : State) : Res :=
  s.issue c.toNat fun k =>
    let w := iword 0x10 bits
    s.scalar c.toNat k (fld w 20 16) (aluOp (fld w 15 8) (k.sreg (fld w 28 24)) (k.sreg (fld w 36 32)))
      (onlyBits w [(15, 8), (20, 16), (28, 24), (36, 32)])

/-- ALUI (R328, R329). -/
def execAlui (c : BitVec 8) (bits : BitVec 120) (s : State) : Res :=
  s.issue c.toNat fun k =>
    let w := iword 0x11 bits
    s.scalar c.toNat k (fld w 20 16) (aluOp (fld w 15 8) (k.sreg (fld w 28 24)) (fld w 127 64))
      (onlyBits w [(15, 8), (20, 16), (28, 24), (127, 64)])

/-- The layout of EVSET, EVSUB and EVRD is kept (R333): no e63, VALUE zero where it is not the operand, and VAL_REG clear in
EVRD. -/
def evOk (w : Nat) (read : Bool) : Bool :=
  onlyBits w [(8, 8), (21, 16), (28, 24), (127, 64)] && fld w 21 16 != 63 &&
    (if read then !bitN w 8 && fld w 127 64 == 0 else !bitN w 8 || fld w 127 64 == 0)

/-- The operand of EVSET and EVSUB (R333). -/
def evVal (k : Cluster) (w : Nat) : Nat := if bitN w 8 then k.sreg (fld w 28 24) else fld w 127 64

/-- EVSET (R334). -/
def execEvset (c : BitVec 8) (bits : BitVec 120) (s : State) : Res :=
  s.issue c.toNat fun k =>
    let w := iword 0x20 bits
    if evOk w false then s.setCl c.toNat (k.setEv (fld w 21 16) (evVal k w)).retire else s.illegal c.toNat

/-- EVSUB (R334): modulo 2^64. -/
def execEvsub (c : BitVec 8) (bits : BitVec 120) (s : State) : Res :=
  s.issue c.toNat fun k =>
    let w := iword 0x21 bits
    if evOk w false then
      s.setCl c.toNat (k.setEv (fld w 21 16) (k.ev (fld w 21 16) + 2 ^ 64 - evVal k w)).retire
    else s.illegal c.toNat

/-- EVRD (R334). -/
def execEvrd (c : BitVec 8) (bits : BitVec 120) (s : State) : Res :=
  s.issue c.toNat fun k =>
    let w := iword 0x22 bits
    if evOk w true then s.setCl c.toNat (k.setS (fld w 28 24) (k.ev (fld w 21 16))).retire else s.illegal c.toNat

/-- The unconsumed items of a load slot are discarded; it fetches again from its first unconsumed item, at distance PF_INIT
(R276). -/
def Slot.refetch (x : Slot) : Slot :=
  { x with fetch := x.take, ring := [], side := x.side.filter (decide <| ·.1 < x.take), dist := x.desc.pfInit, quiet := 0 }

/-- What ACQ does (R275, R276): clean lines go, the named load slots start again. -/
def State.acquire (s : State) (c qmask : Nat) : State :=
  let s := s.dropLines c fun l => l.dirty.isEmpty
  s.modCl c fun k =>
    { k with slots := k.slots.map fun p => (p.1, if decide (p.1 < 8) && bitN qmask p.1 && !p.2.desc.store then p.2.refetch else p.2) }

/-- The conditions of a FENCE that are awaited (R275). -/
def State.fenceMet (s : State) (c mask : Nat) (marks : List Nat) : Bool :=
  (!bitN mask 0 || (s.cl c).unitsDone) && (!bitN mask 1 || s.relDone c marks)

/-- A FENCE completes (R275, R363): ACQ takes effect and PC advances. -/
def State.fenceDone (s : State) (c mask : Nat) : State :=
  (if bitN mask 2 then s.acquire c (fld mask 15 8) else s).modCl c Cluster.retire

/-- FENCE (R275, R362): dirty lines are written back for REL; it completes at issue where its conditions already hold. -/
def execFence (c : BitVec 8) (bits : BitVec 120) (s : State) : Res :=
  s.issue c.toNat fun _ =>
    let w := iword 0x70 bits
    let mask := fld w 31 16
    if !onlyBits w [(18, 16), (31, 24)] || (fld mask 15 8 != 0 && !bitN mask 2) then s.illegal c.toNat
    else
      let s := if bitN mask 1 then s.cleanCache c.toNat else s
      let marks := s.marks c.toNat
      if s.fenceMet c.toNat mask marks then s.fenceDone c.toNat mask
      else s.modCl c.toNat fun k => { k with hold := .fence mask marks }

/-- FENCE_COMPLETE (R275, R363). -/
def execFenceComplete (c : BitVec 8) (s : State) : Res :=
  let k := s.cl c.toNat
  match k.hold with
  | .fence mask marks =>
    .next (if s.fenceMet c.toNat mask marks && decide (k.st = .running) && s.clocked then s.fenceDone c.toNat mask else s)
  | _ => .next s

/-- The opcodes of R315. -/
def opcodes : List Nat :=
  [0x01, 0x02, 0x03, 0x04, 0x05, 0x06, 0x07, 0x10, 0x11, 0x18, 0x19, 0x20, 0x21, 0x22, 0x30, 0x31, 0x32, 0x40, 0x41, 0x42, 0x43,
   0x44, 0x50, 0x58, 0x60, 0x70]

/-- UNDECODABLE_INSTRUCTION (R315, R318): a poisoned word takes a POISON fault, a reserved opcode an ILLEGAL fault. A sound
word of a defined opcode is no such step. -/
def execUndecodableInstruction (c : BitVec 8) (word : W128) (poisoned : Bool) (s : State) : Res :=
  s.issue c.toNat fun _ =>
    if poisoned then (s.ifault c.toNat 0x08 true).err 2 3 { poison := true, cluster := c.toNat, addr := lsBase c.toNat + (s.cl c.toNat).pc, i0 := 1 }
    else if opcodes.contains (word.toNat % 256) && !(word.toNat % 256 == 0x60 && !([1, 2, 3, 4, 0x10, 0x11, 0x12, 0x13].contains (fld word.toNat 23 16)))
    then s
    else s.illegal c.toNat

end Sys2Proof.Machine
end

