-- ==== Sys2Proof/Machine/Stream.lean ====
section
/-!
DEFINITION. Stream slots (R280 to R297): configuring, launching and ending them (R335 to R338), their requests, the
completion of their items, and what a halt does to them (R299).
-/
namespace Sys2Proof.Machine

/-- The fields of a stream descriptor (R286). -/
def streamDescOf (b : List Byte) : StreamDesc :=
  let m := leAt b 0 1
  { store := bitN m 0, pod := bitN m 1, fromTst := bitN m 2, modeRes := m / 8, cls := leAt b 1 1, part := leAt b 2 1
    ev := leAt b 3 1 % 64, evEn := bitN (leAt b 3 1) 7, granule := leAt b 4 2, addr := leAt b 8 8, f10 := leAt b 0x10 4
    f14 := leAt b 0x14 4, stride := leAt b 0x18 8, tRows := leAt b 0x18 4, tCols := leAt b 0x1C 4, slA := leAt b 0x20 4
    slB := leAt b 0x24 4, ringBase := leAt b 0x28 4, ringItems := leAt b 0x2C 2, pfMax := leAt b 0x2E 2, pfInit := leAt b 0x30 2
    order := bitN (leAt b 0x32 1) 0
    resOk := !bitN (leAt b 3 1) 6 && leAt b 6 2 == 0 && leAt b 0x32 1 / 2 == 0 && (slice b 0x33 13).all (· == 0#8) }

/-- The bytes of an item (R288, R289). -/
def StreamDesc.itemBytes (d : StreamDesc) : Nat := if d.pod then 288 else d.f10

/-- The checks of R287 that need nothing but the descriptor; `q` is the slot, `g4` says that its tensor is G4. -/
def StreamDesc.ok (d : StreamDesc) (q : Nat) (g4 : Bool) : Bool :=
  d.resOk && d.modeRes == 0 && d.store == decide (8 ≤ q) && (!d.fromTst || (d.store && !d.pod)) &&
    decide (d.cls ≤ 4 ∧ d.part ≤ 15 ∧ d.ev ≤ 62 ∧ 1 ≤ d.granule) &&
    (if d.pod then decide (1 ≤ d.tRows ∧ 1 ≤ d.tCols)
     else d.f10 % 32 == 0 && decide (32 ≤ d.f10 ∧ d.f10 ≤ 4096 ∧ 1 ≤ d.f14) && d.stride % 32 == 0 && decide (d.f10 ≤ d.stride)) &&
    (if g4 then d.store || (d.slA % 32 == 0 && decide (64 ≤ d.slB ∧ d.slA + 32 * d.slB ≤ 0x200000))
     else d.slA == 0 && d.slB == 0) &&
    (if d.store then d.ringBase == 0 && d.ringItems == 0 && d.pfMax == 0 && d.pfInit == 0
     else d.ringBase % 32 == 0 && decide (1 ≤ d.ringItems ∧ 1 ≤ d.pfMax ∧ d.pfMax ≤ d.ringItems ∧ 1 ≤ d.pfInit ∧
       d.pfInit ≤ d.pfMax ∧ d.ringBase + d.itemBytes * d.ringItems ≤ 0x200000))

/-- Pods of one panel over the tile rows of a slot's range (R118, R288). -/
def TensorDesc.panelPods (t : TensorDesc) (d : StreamDesc) : Nat :=
  (d.tRows - 1) * t.tileGroups + t.groupsIn (d.f10 + d.tRows - 1)

/-- The items of a slot (R288). -/
def Slot.total (x : Slot) : Nat :=
  match x.desc.pod, x.tensor with
  | true, some t => x.desc.tCols * t.panelPods x.desc
  | _, _ => x.desc.f14

/-- The tile that item `i` of a pod slot belongs to, and its row group in it (R288). Only the last tile row may be short. -/
def Slot.tileOf (x : Slot) (t : TensorDesc) (i : Nat) : Nat × Nat × Nat :=
  let d := x.desc
  if d.order then
    let per := t.panelPods d
    let r := min ((i % per) / t.tileGroups) (d.tRows - 1)
    (d.f10 + r, d.f14 + i / per, i % per - r * t.tileGroups)
  else
    let row := t.tileGroups * d.tCols
    let r := min (i / row) (d.tRows - 1)
    let n := t.groupsIn (d.f10 + r)
    (d.f10 + r, d.f14 + (i - r * row) / n, (i - r * row) % n)

/-- The pod index of item `i` (R118). -/
def Slot.podOf (x : Slot) (t : TensorDesc) (i : Nat) : Nat :=
  let (r, j, u) := x.tileOf t i
  t.tilePod r j + u

/-- Where item `i` of a load slot lies: device and address there, or none where it cannot be fetched (R285, R292). -/
def State.itemAddr (s : State) (c : Nat) (x : Slot) (i : Nat) : Option (DevId × Nat) :=
  match x.desc.pod, x.tensor with
  | true, some t => s.within c x.desc.addr (t.podBase + 288 * x.podOf t i) 288 false
  | _, _ =>
    let a := x.desc.addr + x.desc.stride * i
    if a % 32 = 0 then s.translate c a x.desc.f10 false else none

/-- A local place that a stream may read: HBM or the local store of a cluster that is not fenced (R306, R451). A pod in HBM
begins at a multiple of 288 (R457). -/
def State.readable (s : State) (a n : Nat) (pod : Bool) : Bool :=
  s.isStore a n && (match s.place a with
    | .ls c _ => !(s.cl c).fenced
    | _ => !pod || a % 288 == 0)

/-- Write bytes as a stream, an exchange post or a remote WRITE may: to memory, or to EV_ADD registers word by word (R307,
R451). None where the access is refused: the status of R519. -/
def State.deviceWrite (s : State) (a : Nat) (bs : List Byte) (p : Bool) (cls : Nat) (evAdd : Bool) : State ⊕ Nat :=
  match s.place a with
  | .hbm => if a + bs.length ≤ s.memsys.hbmTop then .inl (s.store a bs p cls) else .inr 1
  | .ls c off =>
    if 0x200000 < off + bs.length then .inr 1 else if (s.cl c).fenced then .inr 3 else .inl (s.store a bs p cls)
  | .csr c off =>
    if evAdd && decide (0x600 ≤ off ∧ off + bs.length ≤ 0x7F8) && off % 8 == 0 && bs.length % 8 == 0 then
      if (s.cl c).fenced then .inr 3
      else .inl ((List.range (bs.length / 8)).foldl (fun s i => s.arrive c ((off - 0x600) / 8 + i) (leAt bs (8 * i) 8)) s)
    else .inr 2
  | .unmapped => .inr 1
  | _ => .inr 2

/-- Read through a window at a launch: within the device from memory, from another device what its reads returned, taken
from the front of `remote`. None where the read fails or returns poison (R287). -/
def State.launchRead (s : State) (loc : Option (DevId × Nat)) (n cls : Nat) (remote : Option (List Byte)) :
    Option (State × List Byte × Option (List Byte)) :=
  match loc with
  | none => none
  | some (d, a) =>
    if d = s.me then
      if s.readable a n false then
        let (s, bs, p) := s.load a n cls
        if p then none else some (s, bs, remote)
      else none
    else match remote with
      | some l => if n ≤ l.length then some (s, l.take n, some (l.drop n)) else none
      | none => none

/-- The checks of a pod slot's tensor (R117, R287): its descriptor, grid and wide-channel list. -/
def State.launchTensor (s : State) (c : Nat) (d : StreamDesc) (remote : Option (List Byte)) :
    Option (State × TensorDesc × List Int × List Nat) :=
  let cls := d.cls + 8 * (d.part + 1)
  match if d.addr % 32 = 0 then s.launchRead (s.translate c d.addr 64 false) 64 cls remote else none with
  | none => none
  | some (s, b, remote) =>
    match tensorOf b with
    | none => none
    | some t =>
      let g := if t.fmt = .g4 then s.launchRead (s.within c d.addr t.gridAddr 16 false) 16 cls remote else some (s, [], remote)
      match g with
      | none => none
      | some (s, gb, remote) =>
        let w := if 0 < t.wideCount ∧ t.wideCount ≤ 64 then
            s.launchRead (s.within c d.addr t.wideList (4 * t.wideCount) false) (4 * t.wideCount) cls remote
          else some (s, [], remote)
        match w with
        | none => none
        | some (s, wb, _) =>
          let wide := (List.range t.wideCount).map fun i => leAt wb (4 * i) 4
          let grid := gridOf gb
          let win := s.window c (fld d.addr 53 48)
          let inHbm := fun a => if win.dev = s.me then decide (a < s.memsys.hbmTop) else decide (a < 0x400000000000)
          if tensorValid b wide grid inHbm && (!d.store || win.wr) &&
              decide (d.f10 + d.tRows ≤ t.tileRows ∧ d.f14 + d.tCols ≤ t.panels) &&
              (!(d.store && t.fmt == .g4) || decide (d.slA ≤ d.slB ∧ d.slB ≤ t.sideSectors)) then
            some (s, t, if t.fmt = .g4 then grid else [], wide)
          else none

/-- A slot as its launch leaves it (R112, R280, R291). -/
def Slot.started (x : Slot) (t : Option TensorDesc) (grid : List Int) (wide : List Nat) : Slot :=
  { state := .running, desc := x.desc, tensor := t, grid := grid, wide := wide
    dist := if x.desc.store then 0 else x.desc.pfInit
    posA := if x.desc.pod then x.desc.f10 else 0, posB := if x.desc.pod then x.desc.f14 else 0, slCursor := x.desc.slA }

/-- The launch of a CONFIGURED slot (R280, R287): it runs, or it becomes FAULT with a DESCRIPTOR fault. -/
def State.launch (s : State) (c q : Nat) (remote : Option (List Byte)) : State :=
  let x := (s.cl c).slot q
  let bad (s : State) : State := (s.modCl c fun k => k.setSlot q { x with state := .fault }).ifault c 0x05 true
  if x.desc.pod then
    match s.launchTensor c x.desc remote with
    | some (s', t, grid, wide) =>
      if x.desc.ok q (t.fmt == .g4) then s'.modCl c fun k => (k.setSlot q (x.started (some t) grid wide)).retire else bad s'
    | none => bad s
  else if x.desc.ok q false then s.modCl c fun k => (k.setSlot q (x.started none [] [])).retire
  else bad s

/-- QCFG (R280, R335, R336): the descriptor is read at issue; with GO the slot is launched. `remote` is what the launch's
reads through a window to another device returned. -/
def execQcfg (c : BitVec 8) (bits : BitVec 120) (remote : Option (List Byte)) (s : State) : Res :=
  s.issue c.toNat fun k =>
    let w := iword 0x30 bits
    let q := fld w 19 16
    let off := fld w 52 32
    if !onlyBits w [(8, 8), (19, 16), (52, 32)] || decide (12 ≤ q) then s.illegal c.toNat
    else if !lsFits off 64 32 then s.ifault c.toNat 0x06 true (lsBase c.toNat + off)
    else
      let x := k.slot q
      if x.state = .idle ∨ x.state = .done ∨ x.state = .fault then
        let (s, b, p) := s.load (lsBase c.toNat + off) 64 0
        let d := streamDescOf b
        let s := s.setCl c.toNat (k.setSlot q { state := .configured, desc := { d with resOk := d.resOk && !p } })
        if bitN w 8 then s.launch c.toNat q remote else s.modCl c.toNat Cluster.retire
      else s.ifault c.toNat 0x07 true 0 q

/-- QGO (R280, R336). -/
def execQgo (c : BitVec 8) (bits : BitVec 120) (remote : Option (List Byte)) (s : State) : Res :=
  s.issue c.toNat fun k =>
    let w := iword 0x31 bits
    let q := fld w 19 16
    if !onlyBits w [(19, 16)] || decide (12 ≤ q) then s.illegal c.toNat
    else if (k.slot q).state = .configured then s.launch c.toNat q remote
    else s.ifault c.toNat 0x07 true 0 q

/-- Items that are in flight. -/
def Slot.flying (x : Slot) : Bool := x.ring.any fun p => decide (p.2 = .flying)

/-- The final arrival of R296 and R338, and DONE. -/
def State.slotDone (s : State) (c q : Nat) (x : Slot) : State :=
  let s := s.modCl c fun k => k.setSlot q { x with state := .done, ending := false, since := 0 }
  s.arriveIf (x.desc.evEn && decide (0 < x.since)) c x.desc.ev

/-- A slot that QEND has ended becomes DONE once nothing of it is outstanding (R337). -/
def State.endIfQuiet (s : State) (c q : Nat) : State :=
  let x := (s.cl c).slot q
  if x.ending && (if x.desc.store then x.held.isEmpty else !x.flying) then s.slotDone c q x else s

/-- QEND (R337, R338). -/
def execQend (c : BitVec 8) (bits : BitVec 120) (s : State) : Res :=
  s.issue c.toNat fun k =>
    let w := iword 0x32 bits
    let q := fld w 19 16
    if !onlyBits w [(19, 16)] || decide (12 ≤ q) then s.illegal c.toNat
    else
      let x := k.slot q
      let k := k.retire
      if x.state = .running ∨ x.state = .paused then
        let y : Slot := if x.desc.store then { x with ending := true }
          else { x with ending := true, take := x.fetch, ring := x.ring.filter fun p => decide (p.2 = .flying), side := [] }
        (s.setCl c.toNat (k.setSlot q y)).endIfQuiet c.toNat q
      else if x.state = .configured then s.setCl c.toNat (k.setSlot q { x with state := .idle })
      else s.setCl c.toNat k

/-- An item that has completed (R296): arrivals by granule, and DONE with the last item. -/
def State.itemDone (s : State) (c q : Nat) (x : Slot) : State :=
  let x := { x with done := x.done + 1, since := x.since + 1 }
  let full := decide (x.since = x.desc.granule)
  let x' := if full then { x with since := 0 } else x
  let s := (s.modCl c fun k => k.setSlot q x').arriveIf (full && x.desc.evEn) c x.desc.ev
  if x'.ending then s.endIfQuiet c q else if x'.done = x'.total then s.slotDone c q x' else s

/-- A running slot's request failed at its destination (R297): the slot faults and the cluster halts, imprecisely, with
cause ADDRESS and SLOT naming the slot. -/
def State.slotFail (s : State) (c q a : Nat) : State :=
  let x := (s.cl c).slot q
  (s.modCl c fun k => k.setSlot q { x with state := .fault, held := [], ring := [] }).ifault c 0x06 false a q

/-- The return place of a load item in its own ring (R289). -/
def Slot.ringAddr (x : Slot) (c i : Nat) : Nat := lsBase c + x.desc.ringBase + x.desc.itemBytes * (i % x.desc.ringItems)

/-- The items that a tile load held at issue on the slot needs (R290, R291). -/
def loadWants (x : Slot) (need : Nat) : Nat := max x.dist need

/-- The next store item may go (R112): none of its earlier writes is still under way. -/
def State.itemFree (s : State) (c q i : Nat) : Bool := !(s.fab.ops.any fun o => decide (o.origin = .item c q i))

/-- One request of a store slot for its first item not yet sent (R285, R112): within the device it is in flight until it
completes; to another device what must be visible before it goes first. A poisoned item does not leave the device (R485). -/
def State.storeRequest (s : State) (c q : Nat) (x : Slot) : State :=
  match x.held.find? fun it => !it.sent with
  | none => s
  | some it =>
    let d := x.desc
    let loc := if d.pod then s.within c d.addr it.addr it.bytes.length true else
      if it.addr % 32 = 0 then s.translate c it.addr it.bytes.length true else none
    let put (y : StoreItem) : Cluster → Cluster := fun k =>
      k.setSlot q { x with held := x.held.map fun z => if z.idx = it.idx then y else z }
    match loc with
    | none => s.slotFail c q it.addr
    | some (dev, a) =>
      if dev = s.me then s.modCl c (put { it with sent := true, addr := a, dev := dev })
      else if it.poison then s.devFault 2 3 { poison := true, cluster := c, addr := it.addr, i0 := 6 }
      else if !s.itemFree c q it.idx then s
      else match it.extra with
        | [] =>
          (s.modCl c (put { it with sent := true, addr := a, dev := dev })).sendOp false dev (.item c q it.idx) 0
            (writePkts 1 a s.job.tag d.part d.pod it.bytes)
        | ex =>
          ex.foldl (fun s e => s.sendOp false dev (.item c q it.idx) 0 (writePkts 1 e.1 s.job.tag d.part false e.2))
            (s.modCl c (put { it with extra := [] }))

/-- The number of items that the instruction held at issue wants of slot `q` (R291); a tile load states it. -/
def Cluster.wantsOf (k : Cluster) (q : Nat) (need : Nat → Nat → Nat) : Nat :=
  match k.hold with
  | .stall w true => need w q
  | _ => 0

/-- One request of a load slot (R285, R289, R291, R292): an item that cannot be fetched is not. -/
def State.loadRequest (s : State) (c q : Nat) (x : Slot) (need : Nat) : State :=
  if x.sideWait || x.ending || decide (x.total ≤ x.fetch) || decide (loadWants x need ≤ x.fetch - x.take) ||
      decide (x.desc.ringItems ≤ x.fetch - x.take) then s
  else
    let i := x.fetch
    let put (st : ItemStat) (s : State) : State :=
      s.modCl c fun k => k.setSlot q { x with fetch := i + 1, ring := tabSet x.ring i st }
    match s.itemAddr c x i with
    | none => put .unfetched s
    | some (dev, a) =>
      if dev = s.me then put (if s.readable a x.desc.itemBytes x.desc.pod then .flying else .unfetched) s
      else (put .flying s).sendOp false dev (.item c q i) x.desc.itemBytes
        (readPkts a (x.ringAddr c i) x.desc.itemBytes s.job.tag x.desc.part)

/-- The items that a TLD consumes from its slot (R340): tiles of 64 pods of an 8-bit tensor, two of 32 of a 4-bit one, or
128 rows; in the last tile row only the pods that exist. -/
def Slot.tldItems (x : Slot) (raw : Bool) (sel : Nat) : Nat :=
  if raw then 128 else
    match x.tensor with
    | none => 0
    | some t =>
      let one (i : Nat) : Nat := if x.total ≤ i then t.tileGroups else t.groupsIn (x.tileOf t i).1
      let n := one x.take
      if t.fmt.narrow4 && sel == 0 then n + one (x.take + n) else n

/-- What a stalled instruction needs of slot `q`: only a TLD that names it. -/
def tldNeed (k : Cluster) (w q : Nat) : Nat :=
  if w % 256 = 0x40 ∧ fld w 23 20 = q then (k.slot q).tldItems (bitN w 8) (fld w 10 9) else 0

/-- STREAM_REQUEST (R285, R291, R299): a running slot of a running cluster; a store slot also goes on while its cluster
halts, for the items whose data exists. Requests wait for a translation reread (R273, R284). -/
def execStreamRequest (c : BitVec 8) (q : Fin 12) (s : State) : Res :=
  let k := s.cl c.toNat
  let x := k.slot q.val
  .next (if decide (x.state ≠ .running) || k.transInv || k.stepStart || !s.clocked || decide (k.st = .idle) then s
    else if x.desc.store then s.storeRequest c.toNat q.val x
    else if k.st = .running && !k.fenced then s.loadRequest c.toNat q.val x (k.wantsOf q.val (tldNeed k))
    else s)

/-- Put an overflow pod's side-list segment into the side ring (R289): sectors one after another, or none where too few
sectors are free. -/
def State.sideCopy (s : State) (c : Nat) (x : Slot) (i : Nat) (seg : List Byte) (p : Bool) : Option (State × Slot) :=
  let n := (seg.length + 31) / 32
  let used := (x.side.map fun e => e.2.2).sum
  if x.desc.slB < used + n then none
  else
    let s := (List.range n).foldl (fun s j =>
      s.store (lsBase c + x.desc.slA + 32 * ((x.sideNext + j) % x.desc.slB)) (Sys2Proof.Machine.slice seg (32 * j) 32) p 0) s
    some (s, { x with side := x.side ++ [(i, x.sideNext, n)], sideNext := (x.sideNext + n) % x.desc.slB })

/-- The side-list segment of a pod within this device: its bytes and poison, or none where it needs no segment. A segment
that the descriptor's range or the window does not hold is left out, and its checks follow at decoding (R115). -/
def State.localSegment (s : State) (c : Nat) (x : Slot) (t : TensorDesc) (pod : List Byte) : Option (List Byte × Bool) :=
  match podSideIndex t.fmt pod with
  | none => none
  | some j =>
    let at_ (n : Nat) : Option (List Byte × Bool) :=
      match s.within c x.desc.addr (t.sideBase + 32 * j) n false with
      | some (_, a) => if s.readable a n false then some (s.bytes a n, s.poisoned a n) else none
      | none => none
    match at_ 32 with
    | none => some ([], false)
    | some (b, p) =>
      let cnt := leAt b 4 2
      if cnt > 508 ∨ t.sideSectors < j + segSectors cnt then some (b, p)
      else (at_ (32 * segSectors cnt)).orElse fun _ => some (b, p)

/-- A load item lands in the ring (R289, R296). -/
def State.loadItem (s : State) (c q i : Nat) (x : Slot) (data : List Byte) (ecc : Ecc) : State :=
  let n := x.desc.itemBytes
  match s.itemAddr c x i with
  | none => s.modCl c fun k => k.setSlot q { x with ring := tabSet x.ring i .unfetched }
  | some (dev, a) =>
    let here := decide (dev = s.me)
    if !here && !s.itemFree c q i then s
    else
      let s := if here then (s.eccQuiet a ecc).touch a n false (x.desc.cls + 8 * (x.desc.part + 1)) else s
      let bs := s.bytes (if here then a else x.ringAddr c i) n
      let p := here && s.poisoned a n
      let seg := match x.tensor with
        | some t => if here then s.localSegment c x t bs
            else (podSideIndex t.fmt bs).map fun _ => (data, false)
        | none => none
      let waits := decide (seg ≠ none) && x.ring.any fun e => decide (e.1 < i ∧ e.2 = .flying)
      if waits then s
      else
        let land (s : State) (x : Slot) : State :=
          (s.store (x.ringAddr c i) bs p 0).itemDone c q { x with ring := tabSet x.ring i .ready, sideWait := false }
        match seg with
        | none => land s x
        | some (sb, sp) =>
          match s.sideCopy c x i sb sp with
          | some (s, x) => land s x
          | none => s.modCl c fun k => k.setSlot q { x with sideWait := true }

/-- A store item becomes visible (R296): within the device its writes are made in the order of R112; to another device they
are acknowledged. -/
def State.storeItem (s : State) (c q : Nat) (x : Slot) (it : StoreItem) : State :=
  let rest := { x with held := x.held.filter fun z => decide (z.idx ≠ it.idx) }
  let cls := x.desc.cls + 8 * (x.desc.part + 1)
  if it.dev ≠ s.me then (if s.itemFree c q it.idx then s.itemDone c q rest else s)
  else
    let go (acc : State ⊕ Nat) (e : Nat × List Byte) : State ⊕ Nat :=
      match acc with
      | .inl s => s.deviceWrite e.1 e.2 it.poison cls true
      | .inr n => .inr n
    match (it.extra ++ [(it.addr, it.bytes)]).foldl go (.inl s) with
    | .inl s => s.itemDone c q rest
    | .inr _ => s.slotFail c q it.addr

/-- STREAM_ITEM_COMPLETE (R289, R296): item `i` of slot `q`. `data` is the side-list segment that another device
returned, where its pod has one; `ecc` is what the check bits said of the sector read. -/
def execStreamItemComplete (c : BitVec 8) (q : Fin 12) (i : Nat) (data : List Byte) (ecc : Ecc) (s : State) : Res :=
  let x := (s.cl c.toNat).slot q.val
  .next (if !s.clocked || !(decide (x.state = .running) || decide (x.state = .paused)) then s
    else if x.desc.store then
      match x.held.find? fun it => decide (it.idx = i) && it.sent with
      | some it => s.storeItem c.toNat q.val x it
      | none => s
    else if tabFind x.ring i = some .flying then
      if x.ending && decide (i < x.take) then
        s.itemDone c.toNat q.val { x with ring := tabDel x.ring i }
      else s.loadItem c.toNat q.val i x data ecc
    else s)

/-- STREAM_REQUEST_FAIL (R292, R297, R520): a request of a running slot ended in error at its destination. A load item stays
unconsumed and unfetched; a store item is fatal. -/
def execStreamRequestFail (c : BitVec 8) (q : Fin 12) (i : Nat) (status : BitVec 8) (s : State) : Res :=
  let x := (s.cl c.toNat).slot q.val
  let s' := { s with fab := { s.fab with ops := s.fab.ops.filter fun o => decide (o.origin ≠ Origin.item c.toNat q.val i) } }
  .next (if decide (status = 0) || decide (x.state ≠ .running) then s
    else if x.desc.store then
      match x.held.find? fun it => decide (it.idx = i) && it.sent with
      | some it => s'.slotFail c.toNat q.val it.addr
      | none => s
    else if tabFind x.ring i = some .flying then
      s'.modCl c.toNat fun k => k.setSlot q.val { x with ring := tabSet x.ring i .unfetched }
    else s)

/-- SLOT_PAUSED (R299): a halted cluster's running slot with nothing in flight, and for a store slot no item left. -/
def execSlotPaused (c : BitVec 8) (q : Fin 12) (s : State) : Res :=
  let k := s.cl c.toNat
  let x := k.slot q.val
  .next (if decide (x.state = .running) && (decide (k.st ≠ .running) || k.fenced) && !x.flying && x.held.isEmpty then
      s.setCl c.toNat (k.setSlot q.val { x with state := .paused })
    else s)

end Sys2Proof.Machine
end

