-- ==== Sys2Proof/Machine/Hazards.lean ====
section
/-!
DEFINITION. What an instruction owes to those issued before it: registers read and written, refill visits and their writes
(R262 to R265, R354, R355), and the tags that issued work will leave.
-/
namespace Sys2Proof.Machine

/-- The registers that a load-unit instruction writes. -/
def LoadOp.dsts : LoadOp → List Nat
  | .pods td _ _ _ _ _ _ _ _ _ => [td]
  | .raw td _ _ => [td]
  | .tlm td _ => [td]
  | _ => []

/-- The registers that a load-unit instruction reads. -/
def LoadOp.reads : LoadOp → List Nat
  | .tst tn _ => [tn]
  | .tstSlot tn _ => [tn]
  | _ => []

/-- A table load (R217, R241). -/
def LoadOp.isTable : LoadOp → Bool
  | .lut _ _ => true
  | .rt _ _ _ => true
  | _ => false

/-- The PACK stage of a chain. -/
def chainPack (ch : List Byte) : Option Stage := (chainStages ch).find? fun g => g.kind == 0x10

/-- The registers that a Pour writes. -/
def pourDsts (w : Nat) (ch : List Byte) : List Nat := if 0x18 ≤ fld w 28 24 then [] else groupRegs (chainDst ch) (fld w 28 24)

/-- What a write fills of a 4-bit register (R355): 0 the whole register, 1 slab 0 only, 2 slab 1 only. -/
def pourSlab (w : Nat) (ch : List Byte) : Nat :=
  if 0x18 ≤ fld w 28 24 then 0
  else match chainPack ch with
    | some g => if ((fmtOf (g.sub % 8)).map Fmt.narrow4).getD false then 1 + g.aux % 2 else 0
    | none => 0

/-- The registers that a Pour reads: its source, its tile operands, and a register whose slab 1 it fills (R202). -/
def pourReads (w : Nat) (ch : List Byte) : List Nat :=
  (if 0x10 ≤ fld w 20 16 then [] else groupRegs (chainSrc ch) (fld w 20 16)) ++
    ((chainStages ch).flatMap fun g => g.ops.flatMap opRegs) ++ (if pourSlab w ch = 2 then [fld w 28 24] else [])

/-- The work in each unit, in issue order. -/
def Cluster.mmas (k : Cluster) : List MmaRun := k.mma0.toList ++ k.mma1.toList
/-- The issued Pours. -/
def Cluster.pours (k : Cluster) : List PourRun := k.pour0.toList ++ k.pour1.toList
/-- The load unit's instructions. -/
def Cluster.loads (k : Cluster) : List LoadRun := k.load0.toList ++ k.load1.toList

/-- A write to a register, issued before place `seq`, is not complete (R265). -/
def Cluster.writePending (k : Cluster) (reg seq : Nat) : Bool :=
  (k.loads.any fun l => decide (l.seq < seq) && l.op.dsts.contains reg) ||
    (k.pours.any fun p => decide (p.seq < seq) && (pourDsts p.w p.chain).contains reg)

/-! ### Tags as issued work will leave them -/

/-- The tag of a register that PACK writes (R201). -/
def packTag (g : Stage) : Tag :=
  let f := fmtOf (g.sub % 8)
  let g4 := g.sub % 8 == 2
  { fmt := f, lineAxis := bitN g.aux 1, clAddr := if g4 then g.op3 else 0, clCap := if g4 then g.aux / 4 else 0 }

/-- The tag of a register that holds no narrow operand (R258). -/
def noTag : Tag := {}

/-- The registers and tags that issued work leaves, by place in the issue order. -/
def Cluster.tagWrites (k : Cluster) : List (Nat × Nat × Tag) :=
  (k.loads.flatMap fun l => match l.op with
    | .pods td f _ axis _ a n _ _ _ => [(l.seq, td, { fmt := some f, lineAxis := axis, clAddr := a, clCap := n })]
    | .raw td _ _ => [(l.seq, td, noTag)]
    | .tlm td _ => [(l.seq, td, noTag)]
    | _ => []) ++
  (k.pours.flatMap fun p => (pourDsts p.w p.chain).map fun r => (p.seq, r, ((chainPack p.chain).map packTag).getD noTag))

/-- The cluster as the checks at issue see it: tags and CHANNELS as the work issued before leaves them. -/
def Cluster.issueView (k : Cluster) : Cluster :=
  let k := (sortKeys k.tagWrites).foldl (fun k w => { k with tiles := tabSet k.tiles w.2.1 { k.tile w.2.1 with tag := w.2.2 } }) k
  k.loads.foldl (fun k l => match l.op with
    | .rt n a ch => { k with rts := tabSet k.rts n { tabGet {} k.rts n with channels := ch, addr := a } }
    | _ => k) k

/-! ### Refill visits -/

/-- The operands of an MMA: 0 for A, 1 for B, 2 for one ring that serves both; the ring and the span. -/
def mmaUses (w : Nat) : List (Nat × (Nat × Nat) × Nat) :=
  let (fa, fb) := mmaFmts w
  if mmaShared w then [(2, mmaARing w, fa.span)] else [(0, mmaARing w, fa.span), (1, mmaBRing w, fb.span)]

/-- A register lies in a ring. -/
def inRing (reg : Nat) (ring : Nat × Nat) : Bool := decide (ring.1 ≤ reg ∧ reg < ring.1 + ring.2)

/-- The span of an entry's operand. -/
def entrySpan (w op : Nat) : Nat := let (fa, fb) := mmaFmts w; if op = 1 then fb.span else fa.span

/-- What must have been made before a register of operand `op`, visited over K-steps `lo ..< hi`, is free (R265, R355): so many
K-steps, and the correction cycles of so many entries, the last being one that reads the register's elements. -/
def mmaNeed (w op lo hi : Nat) : Nat × Nat :=
  let es := mmaEntries w
  (min (mmaK w) hi,
   (List.range es.length).foldl (fun a i =>
     match es[i]? with
     | some (st, o) => if (decide (o ≠ op) || o == 2) && decide (st < hi ∧ lo < st + entrySpan w o) then i + 1 else a
     | none => a) 0)

/-- What must have been made before a register is free of an MMA altogether. -/
def mmaFree (w reg : Nat) : List (Nat × Nat) :=
  (mmaUses w).filterMap fun (op, ring, span) =>
    let visits := (mmaK w + span - 1) / span
    let i := reg - ring.1
    if inRing reg ring && decide (i < visits) then
      let v := i + ring.2 * ((visits - 1 - i) / ring.2)
      some (mmaNeed w op (span * v) (span * (v + 1)))
    else none

/-- The refill visit that a write of `slab` (as `pourSlab`) to a register is matched to (R354, R355). -/
def Cluster.matchFill (k : Cluster) (reg slab : Nat) : Option Fill :=
  let second := if slab = 2 then k.mmas.findSome? fun m =>
      (m.refills.find? fun r => decide (r.reg = reg ∧ r.w0 ≠ .none ∧ r.w1 = .none) && r.half).map fun r =>
        ({ mma := m.seq, reg := reg, start := r.start, second := true } : Fill)
    else none
  second.orElse fun _ => k.mmas.findSome? fun m =>
    (m.refills.find? fun r => decide (r.reg = reg ∧ r.w0 = .none)).map fun r =>
      { mma := m.seq, reg := reg, start := r.start, second := false }

/-- What a write to a register waits for: by MMA, the K-steps and corrected entries. -/
def Cluster.writeNeeds (k : Cluster) (reg slab : Nat) : List (Nat × Nat × Nat) :=
  match k.matchFill reg slab with
  | some f => (k.mmas.filter fun m => decide (m.seq = f.mma)).flatMap fun m =>
      (mmaUses m.w).filterMap fun (op, ring, span) =>
        if inRing reg ring then
          let (a, b) := mmaNeed m.w op (f.start - ring.2 * span) (f.start - ring.2 * span + span)
          some (m.seq, a, b)
        else none
  | none => k.mmas.flatMap fun m => (mmaFree m.w reg).map fun p => (m.seq, p.1, p.2)

/-- The needs are met. -/
def Cluster.needsMet (k : Cluster) (needs : List (Nat × Nat × Nat)) : Bool :=
  needs.all fun n => k.mmas.all fun m => decide (m.seq ≠ n.1) || decide (n.2.1 ≤ m.k ∧ n.2.2 ≤ m.corr)

/-- Note how far a matched write has come. -/
def Refill.mark (st : WStat) (slab : Nat) (f : Fill) (r : Refill) : Refill :=
  if r.reg = f.reg ∧ r.start = f.start then
    if f.second then { r with w1 := st } else { r with w0 := st, half := r.half || slab == 1 }
  else r

/-- The refill visits of every MMA with some writes marked. -/
def Cluster.markFills (k : Cluster) (fs : List Fill) (st : WStat) (slab : Nat) : Cluster :=
  let upd (m : MmaRun) : MmaRun :=
    { m with refills := m.refills.map fun r => fs.foldl (fun r f => if f.mma = m.seq then r.mark st slab f else r) r }
  { k with mma0 := k.mma0.map upd, mma1 := k.mma1.map upd }

/-- The matches of a write to some registers, which its issue makes. -/
def Cluster.fillsOf (k : Cluster) (regs : List Nat) (slab : Nat) : List Fill := regs.filterMap fun r => k.matchFill r slab

/-- The needs of a write to some registers. -/
def Cluster.needsOf (k : Cluster) (regs : List Nat) (slab : Nat) : List (Nat × Nat × Nat) := regs.flatMap fun r => k.writeNeeds r slab

/-- A tile load that writes `reg` waits for the Pours and tile stores issued before it that read it (R265). -/
def Cluster.readPending (k : Cluster) (reg : Nat) : Bool :=
  (k.loads.any fun l => l.op.reads.contains reg) || (k.pours.any fun p => (pourReads p.w p.chain).contains reg)

/-- A load issued before writes one of these registers (R265). -/
def Cluster.loadPending (k : Cluster) (regs : List Nat) : Bool := k.loads.any fun l => l.op.dsts.any regs.contains

/-- A Pour issued before writes this register (R265). -/
def Cluster.pourPending (k : Cluster) (reg : Nat) : Bool := k.pours.any fun p => (pourDsts p.w p.chain).contains reg

/-- The load unit has a free place (R262, R263). -/
def Cluster.loadRoom (k : Cluster) : Bool := k.load0.isNone || k.load1.isNone

/-- A load-unit instruction enters its unit. -/
def Cluster.pushLoad (k : Cluster) (w : Nat) (op : LoadOp) (fills : List Fill) : Cluster :=
  let r : LoadRun := { w := w, pc := k.pc, seq := k.issued, fills := fills, op := op }
  let k := { k with issued := k.issued + 1 }
  (if k.load0.isNone then { k with load0 := some r } else { k with load1 := some r }).retire

/-- The load unit's first instruction is complete. -/
def Cluster.popLoad (k : Cluster) : Cluster := { k with load0 := k.load1, load1 := none }

end Sys2Proof.Machine
end

