-- ==== Sys2Proof/Machine/Array.lean ====
section
/-!
DEFINITION. The matrix array of a cluster at work (R127 to R166, R350 to R357): an MMA's start, K-steps, refill visits,
correction cycles, progress points and completion.
-/
namespace Sys2Proof.Machine

/-- The set of an MMA (R350). -/
def MmaRun.set (m : MmaRun) : Nat := b2n (bitN m.w 11)

/-- A refill visit's matched writes are complete (R355). -/
def Refill.ok (r : Refill) : Bool := decide (r.w0 = .done) && (!(r.half && r.covers1) || decide (r.w1 = .done))

/-- A refill visit's matched writes are not all issued (R356). -/
def Refill.unissued (r : Refill) : Bool := decide (r.w0 = .none) || (r.half && r.covers1 && decide (r.w1 = .none))

/-- Put an MMA back in its place. -/
def Cluster.putMma (k : Cluster) (m : MmaRun) : Cluster :=
  let upd (x : MmaRun) : MmaRun := if x.seq = m.seq then m else x
  { k with mma0 := k.mma0.map upd, mma1 := k.mma1.map upd }

/-- Remove an MMA from the array. -/
def Cluster.dropMma (k : Cluster) (seq : Nat) : Cluster :=
  match k.mmas.filter fun m => decide (m.seq ≠ seq) with
  | a :: b :: _ => { k with mma0 := some a, mma1 := some b }
  | [a] => { k with mma0 := some a, mma1 := none }
  | [] => { k with mma0 := none, mma1 := none }

/-- An MMA by its place in the issue order. -/
def Cluster.findMma (k : Cluster) (seq : Nat) : Option MmaRun := k.mmas.find? fun m => decide (m.seq = seq)

/-- The registers that an entry reads. -/
def entryReg (w : Nat) (e : Nat × Nat) : Nat :=
  let (fa, fb) := mmaFmts w
  if e.2 = 1 then (visitReg (mmaBRing w) fb.span e.1).1 else (visitReg (mmaARing w) fa.span e.1).1

/-- The K-step before which an MMA waits: at a refill visit (R355), or at a register that work issued earlier is still to
write (R265). When a halt forces it, a visit whose writes are not all issued does not hold it (R356). -/
def Cluster.mmaLimit (k : Cluster) (m : MmaRun) (force : Bool) : Nat :=
  let a := m.refills.foldl (fun a r =>
    if decide (m.k ≤ r.start) && !r.ok && !(force && r.unissued) then min a r.start else a) (mmaK m.w)
  (mmaEntries m.w).foldl (fun a e => if decide (m.k ≤ e.1 ∧ e.1 < a) && k.writePending (entryReg m.w e) m.seq then e.1 else a) a

/-- The correction list of a register as local store holds it, with the poison of each item (R147). -/
def State.listItems (s : State) (c : Nat) (k : Cluster) (reg : Nat) : List (Nat × Bool) :=
  let t := (k.tile reg).tag
  (List.range (t.clCount0 + t.clCount1)).map fun i =>
    let a := lsBase c + t.clAddr + 8 * i
    (leAt (s.bytes a 8) 0 8, s.poisoned a 8)

/-- The correction cycles of the MMA's next register entry (R149 to R151), once it has entered the register and its set is
free (R155). -/
def State.correctOne (s : State) (c : Nat) (m : MmaRun) : State :=
  let k := s.cl c
  if m.held || decide (enteredCount m.w m.k ≤ m.corr) then s
  else
    let (a, fl) := correctEntry k m.w m.corr (s.listItems c k) (k.acc m.set)
    s.setCl c { (k.setAcc m.set a).putMma { m with corr := m.corr + 1 } with arith := k.arith ||| fl }

/-- Correction cycles until `n` entries have had theirs. -/
def State.correctTo (s : State) (c seq n : Nat) : Nat → State
  | 0 => s
  | fuel + 1 =>
    match (s.cl c).findMma seq with
    | some m => if n ≤ m.corr then s else (s.correctOne c m).correctTo c seq n fuel
    | none => s

/-- A FORMAT fault at an MMA (R135, R258, R353): the corrections of the registers it entered run, and it leaves the array.
FAULT_PC names it. -/
def State.mmaFault (s : State) (c : Nat) (m : MmaRun) : State :=
  let s := s.correctTo c m.seq (enteredCount m.w m.k) (enteredCount m.w m.k)
  let pc := (s.cl c).pc
  ((s.modCl c fun k => { k.dropMma m.seq with pc := m.pc }).ifault c 0x02 true).modCl c fun k => { k with pc := pc }

/-- K-steps up to `target`, as far as nothing holds the MMA; with the last one come its final promotions (R141). -/
def State.advanceMma (s : State) (c : Nat) (m : MmaRun) (target : Nat) (force : Bool) : State :=
  let k := s.cl c
  let t := min target (k.mmaLimit m force)
  if !m.started || m.held || m.stopped || decide (t ≤ m.k) then s
  else
    let st := mmaAdvance k t ((t - m.k) / 128 + 2) { run := m, acc := k.acc m.set }
    let (run, acc, fl) :=
      if st.bad.isNone && decide (st.run.k = mmaK m.w) then
        let (r, a, f) := mmaPromote st.run st.acc
        (r, a, st.flags ||| f)
      else (st.run, st.acc, st.flags)
    let s := s.setCl c { (k.setAcc m.set acc).putMma run with arith := k.arith ||| fl }
    match st.bad with
    | none => s
    | some _ => s.mmaFault c run

/-- What a need names is made, as far as nothing holds the MMA. -/
def State.runTo (s : State) (c : Nat) (need : Nat × Nat × Nat) : State :=
  match (s.cl c).findMma need.1 with
  | some m => (s.advanceMma c m need.2.1 false).correctTo c need.1 need.2.2 need.2.2
  | none => s

/-- K-steps that the array makes before any promotion while Pours still read the set (R155). -/
def MmaRun.early (m : MmaRun) : Nat :=
  let (fa, fb) := mmaFmts m.w
  min (min (pairInterval fa fb) 128) (mmaK m.w)

/-- The set as the MMA begins with it (R153). -/
def MmaRun.base (m : MmaRun) (a : AccSet) : AccSet := if bitN m.w 8 then AccSet.zeroed (signed 8 (fld m.w 55 48)) else a

/-- A Pour issued before the MMA has still to read the MMA's set (R155). -/
def Cluster.setBusy (k : Cluster) (m : MmaRun) : Bool :=
  k.pours.any fun p => decide (p.seq < m.seq) && p.out.isNone && fld p.w 20 16 == 0x10 + m.set

/-- MMAs whose set has become free: the zeroing takes effect, and with it the promotion that was due (R155). -/
def State.release (s : State) (c : Nat) : State :=
  (s.cl c).mmas.foldl (fun s m =>
    let k := s.cl c
    if m.started && m.held && !k.setBusy m then
      let a := m.base (k.acc m.set)
      let a := { a with poison := a.poison || m.poison }
      let (fa, fb) := mmaFmts m.w
      let (r, a, fl) := if m.k % pairInterval fa fb = 0 ∨ m.k = mmaK m.w then mmaPromote m a else (m, a, noFlags)
      s.setCl c { (k.setAcc m.set a).putMma { r with held := false } with arith := k.arith ||| fl }
    else s) s

/-- The first K-steps of an MMA (R155, R353). -/
def State.startMma (s : State) (c : Nat) (m : MmaRun) : State :=
  let k := s.cl c
  if k.mmaLimit m false = 0 then s
  else
    match mmaBadReg k m with
    | some _ => s.mmaFault c m
    | none =>
      let (r, a, _) := mmaSlab k m { (m.base (k.acc m.set)) with poison := false } 0 m.early
      (s.setCl c (k.putMma { r with started := true, held := true, poison := a.poison })).release c

/-- The encoding of an MMA (R350, R351). -/
def mmaOk (w : Nat) : Bool :=
  let (ra, na) := mmaARing w
  let (rb, nb) := mmaBRing w
  onlyBits w [(8, 8), (9, 9), (10, 10), (11, 11), (12, 12), (19, 16), (21, 20), (27, 24), (29, 28), (34, 32), (38, 36), (45, 40),
      (55, 48), (82, 64)] &&
    (mmaA w).isSome && (mmaB w).isSome && fld w 45 40 != 63 && ra % na == 0 && rb % nb == 0 &&
    (decide (ra + na ≤ rb ∨ rb + nb ≤ ra) || (mmaShared w && mmaA w == mmaB w))

/-- MMA at issue (R262, R263, R350, R351): none where it stalls. -/
def State.tryMma (s : State) (c w : Nat) : Option State :=
  let k := s.cl c
  if !mmaOk w then some (s.illegal c)
  else if k.mma0.isSome && k.mma1.isSome then none
  else
    let m : MmaRun := { w := w, pc := k.pc, seq := k.issued, refills := mmaRefills w }
    let k := { k with issued := k.issued + 1 }
    some (s.setCl c (if k.mma0.isNone then { k with mma0 := some m } else { k with mma1 := some m }).retire)

/-- The array works: the cluster runs, or completes what it had begun (R299). -/
def Cluster.arrayRuns (k : Cluster) : Bool := decide (k.st = .running) || decide (k.st = .halting)

/-- MMA_START (R155, R163, R357): the queued MMA makes its first K-step; the one before it has made its last. -/
def execMmaStart (c : BitVec 8) (s : State) : Res :=
  let k := s.cl c.toNat
  .next (if !(decide (k.st = .running) && s.clocked && !k.fenced) then s
    else match k.mma0 with
      | none => s
      | some m =>
        if !m.started then s.startMma c.toNat m
        else match k.mma1 with
          | none => s
          | some n =>
            if n.started then s
            else
              let s' := s.advanceMma c.toNat m (mmaK m.w) false
              match (s'.cl c.toNat).findMma m.seq, (s'.cl c.toNat).findMma n.seq with
              | some m', some n' => if m'.k = mmaK m.w then s'.startMma c.toNat n' else s
              | _, _ => s')

/-- The MMA that makes K-steps: the first that has not made its last. -/
def Cluster.current (k : Cluster) : Option MmaRun := k.mmas.find? fun m => m.started && decide (m.k < mmaK m.w)

/-- REFILL_VISIT (R355): the MMA passes its next refill visit, whose matched writes are complete. -/
def execRefillVisit (c : BitVec 8) (s : State) : Res :=
  let k := s.cl c.toNat
  .next (match k.current with
    | none => s
    | some m =>
      match m.refills.find? fun r => decide (m.k ≤ r.start) with
      | none => s
      | some r => if r.ok && k.arrayRuns && s.clocked then s.advanceMma c.toNat m (r.start + 1) false else s)

/-- CORRECTION_CYCLES (R149 to R151): the vector engine runs the cycles of the next register that an MMA enters. -/
def execCorrectionCycles (c : BitVec 8) (s : State) : Res :=
  let k := s.cl c.toNat
  .next (if !(k.arrayRuns && s.clocked) then s
    else match k.mmas.find? fun m => m.started && decide (m.corr < (mmaEntries m.w).length) with
      | none => s
      | some m =>
        match (mmaEntries m.w)[m.corr]? with
        | none => s
        | some e =>
          let s := s.advanceMma c.toNat m (e.1 + 1) false
          match (s.cl c.toNat).findMma m.seq with
          | some m => (s.correctOne c.toNat m).tryStep c.toNat
          | none => s)

/-- A halting MMA passed refill visits whose writes were not issued: the record of R356. -/
def State.refillHalt (s : State) (c : Nat) (m : MmaRun) (upto : Nat) : State :=
  match m.refills.find? fun r => decide (m.k ≤ r.start ∧ r.start < upto) && r.unissued with
  | some r => s.err 1 5 { sev := 0, cluster := c, i0 := r.reg, i1 := upto }
  | none => s

/-- The progress point at which R356 ends a wait at a visit whose writes are not all issued: the next after the first such
visit. -/
def MmaRun.haltBound (m : MmaRun) : Nat :=
  let (fa, fb) := mmaFmts m.w
  let u := progressUnit fa fb
  match m.refills.find? fun r => decide (m.k ≤ r.start) && r.unissued with
  | some r => (r.start / u + 1) * u
  | none => mmaK m.w

/-- MMA_COMPLETE (R159, R162): the last K-step and promotions, the rest of the corrections, and the arrival. -/
def execMmaComplete (c : BitVec 8) (s : State) : Res :=
  let k := s.cl c.toNat
  .next (match k.mma0 with
    | none => s
    | some m =>
      let force := decide (k.st = .halting) && decide (mmaK m.w ≤ m.haltBound)
      let s' := s.advanceMma c.toNat m (mmaK m.w) force
      match (s'.cl c.toNat).findMma m.seq with
      | none => s'
      | some m' =>
        if !(k.arrayRuns && s.clocked && m'.started && !m'.held && decide (m'.k = mmaK m.w)) then s
        else
          let n := (mmaEntries m.w).length
          let s' := (if force then s'.refillHalt c.toNat m (mmaK m.w) else s').correctTo c.toNat m.seq n n
          ((s'.modCl c.toNat fun k => k.dropMma m.seq).arriveIf (bitN m.w 12) c.toNat (fld m.w 45 40)).tryStep c.toNat)

/-- MMA_PROGRESS_STOP (R160, R311, R356): a halted MMA stops at progress point `kp`, with the corrections of every register it has
entered. -/
def execMmaProgressStop (c : BitVec 8) (kp : BitVec 24) (s : State) : Res :=
  let k := s.cl c.toNat
  .next (match k.mma0 with
    | none => s
    | some m =>
      let (fa, fb) := mmaFmts m.w
      let p := kp.toNat
      if !(decide (k.st = .halting) && s.clocked && m.started && !m.stopped) || p % progressUnit fa fb != 0 ||
          decide (p = 0 ∨ p < m.k ∨ mmaK m.w ≤ p ∨ m.haltBound < p) then s
      else
        let s' := s.advanceMma c.toNat m p true
        match (s'.cl c.toNat).findMma m.seq with
        | none => s'
        | some m' =>
          if m'.k ≠ p ∨ m'.held then s
          else
            let n := enteredCount m.w p
            let s' := (s'.refillHalt c.toNat m p).correctTo c.toNat m.seq n n
            s'.modCl c.toNat fun k =>
              match k.findMma m.seq with
              | some x => { k.putMma { x with stopped := true } with kDone := p, mmaPc := m.pc }
              | none => k)

end Sys2Proof.Machine
end

