-- ==== Sys2Proof/Machine/Units.lean ====
section
/-!
DEFINITION. The load unit and the vector engine: TLD, TLM, TST, LUTLD and RTLD (R339 to R349), POUR (R169 to R220, R358,
R359), and how an instruction enters its unit (R262 to R265).
-/
namespace Sys2Proof.Machine

/-! ### Conditions that a cluster reports -/

/-- Conditions of a pod (R124, R125): the bits, the count, and a record the first time that a bit is set after a job load. -/
def State.podCond (s : State) (c : Nat) (f : PodFlags) (addr : Nat) : State :=
  if f = 0#6 then s
  else
    let k := s.cl c
    let all := k.podFlags ||| f
    let s' := s.setCl c { k with podFlags := all, podCount := satAdd 0xFFFF k.podCount 1, podLogged := k.podLogged ||| f }
    if f &&& ~~~k.podLogged = 0#6 then s' else s'.err 1 2 { sev := 0, cluster := c, addr := addr, i0 := all.toNat }

/-- Correction items were dropped (R148, R203). -/
def State.clDropped (s : State) (c reg cap : Nat) : State :=
  let k := s.cl c
  let s' := s.setCl c { k with clFull := true, clLogged := true }
  if k.clLogged then s' else s'.err 1 3 { sev := 0, cluster := c, i0 := reg, i1 := cap }

/-- Events of a cluster's arithmetic (R89, R90). -/
def State.flagCl (s : State) (c : Nat) (f : Flags) : State := s.modCl c fun k => { k with arith := k.arith ||| f }

/-- An ADDRESS fault at a local-store offset (R317). -/
def State.lsFault (s : State) (c off : Nat) : State := s.ifault c 0x06 true (lsBase c + off)

/-! ### TLD -/

/-- The number of items that a TLD takes fits the slot's mode (R340). -/
def tldMode (x : Slot) (raw : Bool) (sel : Nat) : Bool :=
  match x.desc.pod, x.tensor with
  | true, some t => !raw && (sel == 0 || t.fmt.narrow4)
  | true, none => false
  | false, _ => raw && x.desc.f10 == 128

/-- The grid record of a tensor, read through the slot's window (R249): within the device from memory, else as the read
returned it. -/
def State.readGrid (s : State) (c : Nat) (x : Slot) (remote : Option (List Byte)) : Option (State × List Int × Bool) :=
  match x.tensor with
  | none => none
  | some t =>
    if t.fmt ≠ .g4 then some (s, [], false)
    else match s.within c x.desc.addr t.gridAddr 16 false with
      | none => none
      | some (d, a) =>
        if d = s.me then
          if s.readable a 16 false then
            let (s, b, p) := s.load a 16 (x.desc.cls + 8 * (x.desc.part + 1))
            some (s, gridOf b, p)
          else none
        else remote.map fun b => (s, gridOf b, false)

/-- One pod decoded into its place in a slab (R341, R343): codes, exponents, escapes' items and wide-channel elements. -/
structure PodPart where
  codes : List (Nat × Byte)
  exps : List (Nat × Nat)
  items : List (Nat × Nat)
  wides : List (Nat × Nat × Nat)
  flags : Flags
  pod : PodFlags

/-- Decode the pod of index `j`, row group `u` of its tile, into slab `sl` (R115, R118, R147, R148, R341). -/
def podPart (t : TensorDesc) (wide : List Nat) (j u sl : Nat) (axis : Bool) (pod seg : List Byte) : PodPart :=
  let h := t.fmt.podRows
  let (r0, c0) := t.podOrigin j
  let pad := fun p => t.isPad (r0 + p / 128) (c0 + p % 128)
  let wch := fun p => if pad p then none else t.wideOf wide (r0 + p / 128) (c0 + p % 128)
  let d := decodePod t j pod pad (fun p => (wch p).isSome) seg
  let bytes := slice pod 32 256
  let per := if t.fmt.narrow4 then 64 else 128
  let pos := fun p => let row := h * u + p / 128; if axis then (p % 128, row) else (row, p % 128)
  let its := d.escs.map fun e =>
    let (line, ks) := pos e.1
    let (v, f) := encF32 .rne (e8Scale (d.exps.getD (e.1 / 32) 255) (decH16 e.2))
    ((itemKey line ks sl, itemWord line ks sl 0 v), f)
  { codes := (List.range 256).map fun i => ((h * u + i / per) * per + i % per, bytes.getD i 0#8)
    exps := (List.range (t.fmt.podElems / 32)).map fun b => (4 * (h * u + b / 4) + b % 4, d.exps.getD b 255)
    items := its.map (·.1)
    wides := (List.range t.fmt.podElems).filterMap fun p => (wch p).map fun w =>
      let (line, ks) := pos p
      (itemKey line ks sl, itemWord line ks sl 1 0, t.wideAddr w (r0 + p / 128) (c0 + p % 128))
    flags := its.foldl (fun a x => a ||| x.2) noFlags
    pod := d.flags }

/-- The segment of an item in the side ring, and its poison (R289). -/
def State.sideOf (s : State) (c : Nat) (x : Slot) (i : Nat) : List Byte × Bool :=
  match x.side.find? fun e => decide (e.1 = i) with
  | none => ([], false)
  | some (_, start, n) =>
    let at_ := fun j => lsBase c + x.desc.slA + 32 * ((start + j) % x.desc.slB)
    ((List.range n).flatMap fun j => s.bytes (at_ j) 32, (List.range n).any fun j => s.poisoned (at_ j) 32)

/-- Decode item `i` of a pod slot into slab `sl`: its part, and the conditions reported (R124). A poisoned segment poisons the
register with the pod (R485). -/
def State.decodeItem (s : State) (c : Nat) (x : Slot) (t : TensorDesc) (i sl : Nat) (axis : Bool) : State × PodPart × Bool :=
  let a := x.ringAddr c i
  let (seg, sp) := s.sideOf c x i
  let part := podPart t x.wide (x.podOf t i) (x.tileOf t i).2.2 sl axis (s.bytes a 288) seg
  let p := s.poisoned a 288 || sp
  let (s, addr) := match s.itemAddr c x i with
    | some (d, b) => (if d = s.me && p then s.notice b 288 else s, b)
    | none => (s, 0)
  ((s.podCond c part.pod addr).flagCl c part.flags, part, p)

/-- Decode the items of one slab. -/
def State.decodeSlab (s : State) (c : Nat) (x : Slot) (t : TensorDesc) (first n sl : Nat) (axis : Bool) : State × SlabData × Bool :=
  let per := if t.fmt.narrow4 then 64 else 128
  let (s, parts, p) := (List.range n).foldl (fun (acc : State × List PodPart × Bool) k =>
    let (s, part, q) := acc.1.decodeItem c x t (first + k) sl axis
    (s, acc.2.1 ++ [part], acc.2.2 || q)) (s, [], false)
  let codes := parts.flatMap (·.codes)
  let exps := parts.flatMap (·.exps)
  (s, { slab := sl
        codes := codes.filter fun e => e.1 < 128 * per && e.2 != 0#8
        exps := exps.filter fun e => e.1 < 512 && e.2 != 255
        items := parts.flatMap (·.items), wides := parts.flatMap (·.wides) }, p)

/-- The distance after a tile load that consumed `m` items (R472). -/
def Slot.paced (x : Slot) (m : Nat) (starved : Bool) : Slot :=
  if starved then { x with dist := min x.desc.pfMax (x.dist + m), quiet := 0 }
  else if x.quiet + 1 = 16 then { x with dist := max 1 (x.dist - x.dist / 4), quiet := 0 }
  else { x with quiet := x.quiet + 1 }

/-- Items consumed: their ring places and side-ring sectors are free (R289). -/
def Slot.consume (x : Slot) (m : Nat) : Slot :=
  { x with take := x.take + m, ring := x.ring.filter fun p => decide (x.take + m ≤ p.1)
           side := x.side.filter fun p => decide (x.take + m ≤ p.1) }

/-- The encoding of a TLD (R339, R345). -/
def tldOk (w : Nat) : Bool :=
  onlyBits w [(8, 8), (10, 9), (11, 11), (12, 12), (19, 16), (23, 20), (29, 24), (52, 32), (78, 64)] && fld w 10 9 != 3 &&
    fld w 29 24 != 63 && decide (fld w 23 20 < 12 ∧ fld w 78 64 ≤ 16384) && (fld w 78 64 != 0 || fld w 52 32 == 0) &&
    (!bitN w 8 || (fld w 10 9 == 0 && !bitN w 11 && fld w 78 64 == 0))

/-- The status of a TLD's items: every one is in the ring; some could not be fetched; or it has to wait. -/
inductive TldItems where
  | ready | unfetched | absent
  deriving DecidableEq, Repr

/-- What the ring holds of the next `m` items (R264, R292). -/
def Slot.itemsAt (x : Slot) (m : Nat) : TldItems :=
  let st := (List.range m).map fun i => tabFind x.ring (x.take + i)
  if st.any fun a => decide (a = none ∨ a = some .flying) then .absent
  else if st.any fun a => decide (a = some .unfetched) then .unfetched else .ready

/-- TLD enters the load unit (R340 to R345): its items are consumed and decoded. -/
def State.enterTld (s : State) (c w q m : Nat) (starved : Bool) (grid : Option (List Byte)) : State :=
  let k := s.cl c
  let x := k.slot q
  let raw := bitN w 8
  let sel := fld w 10 9
  let td := fld w 19 16
  if raw then
    let bytes := tabOf 0#8 16384 fun b => s.byte (x.ringAddr c (x.take + b / 128) + b % 128)
    let p := (List.range 128).any fun r => s.poisoned (x.ringAddr c (x.take + r)) 128
    let fs := k.fillsOf [td] 0
    s.setCl c (((k.setSlot q ((x.consume m).paced m starved)).markFills fs .issued 0).pushLoad w (.raw td bytes p) fs)
  else
    match x.tensor, s.readGrid c x grid with
    | some t, some (s, g, gp) =>
      let axis := bitN w 11
      let n := t.groupsIn (x.tileOf t x.take).1
      let slab := if t.fmt.narrow4 then (if sel = 2 then 2 else if sel = 1 then 1 else 0) else 0
      let (s, a, p0) := s.decodeSlab c x t x.take (min n m) (if sel = 2 then 1 else 0) axis
      let (s, b, p1) := if m ≤ n then (s, [], false) else
        let (s, b, p) := s.decodeSlab c x t (x.take + n) (m - n) 1 axis
        (s, [b], p)
      let k := s.cl c
      let fs := k.fillsOf [td] slab
      let op := LoadOp.pods td t.fmt sel axis g (fld w 52 32) (fld w 78 64) x.desc.addr (a :: b) (p0 || p1 || gp)
      s.setCl c (((k.setSlot q ((x.consume m).paced m starved)).markFills fs .issued slab).pushLoad w op fs)
    | _, _ => s.ifault c 0x06 true x.desc.addr

/-- TLD at issue (R264, R265, R290, R292, R339 to R345): none where it stalls. -/
def State.tryTld (s : State) (c w : Nat) (starved : Bool) (grid : Option (List Byte)) : Option State :=
  let k := s.cl c
  let q := fld w 23 20
  let raw := bitN w 8
  let sel := fld w 10 9
  let td := fld w 19 16
  let x := k.slot q
  let m := x.tldItems raw sel
  let slotFault := some (s.ifault c 0x07 true 0 q)
  if !tldOk w then some (s.illegal c)
  else if !lsFits (fld w 52 32) (8 * fld w 78 64) 32 then some (s.lsFault c (fld w 52 32))
  else if 8 ≤ q ∨ x.state = .idle ∨ x.state = .configured ∨ x.state = .fault then slotFault
  else if !tldMode x raw sel || decide (x.desc.ringItems < m) then slotFault
  else if (decide (x.state = .done) || x.ending) && decide (x.fetch - x.take < m) then slotFault
  else
    let slab := if (x.tensor.any fun t => t.fmt.narrow4) && !raw then sel else 0
    let v := k.issueView
    let old := (v.tile td).tag
    if slab = 2 && !(old.fmt == x.tensor.map (·.fmt) && old.lineAxis == bitN w 11 && old.clAddr == fld w 52 32 &&
        old.clCap == fld w 78 64) then some (s.ifault c 0x02 true)
    else if !k.loadRoom || k.readPending td || !k.needsMet (k.needsOf [td] slab) then none
    else match x.itemsAt m with
      | .absent => none
      | .unfetched => some (s.ifault c 0x06 true x.desc.addr)
      | .ready => some (s.enterTld c w q m starved grid)

/-- A TLD stalled at issue lacks items of its slot (R264, R291). -/
def State.tldStarved (s : State) (c w : Nat) : Bool :=
  let x := (s.cl c).slot (fld w 23 20)
  decide (w % 256 = 0x40) && decide (x.itemsAt (x.tldItems (bitN w 8) (fld w 10 9)) = .absent)

/-! ### TLM, TST, LUTLD and RTLD -/

/-- TLM at issue (R346, R347). -/
def State.tryTlm (s : State) (c w : Nat) : Option State :=
  let k := s.cl c
  let td := fld w 19 16
  let off := fld w 52 32
  if !onlyBits w [(12, 12), (19, 16), (29, 24), (52, 32)] || fld w 29 24 == 63 then some (s.illegal c)
  else if !lsFits off 16384 32 then some (s.lsFault c off)
  else if !k.loadRoom || k.readPending td || !k.needsMet (k.needsOf [td] 0) then none
  else
    let fs := k.fillsOf [td] 0
    some (s.setCl c ((k.markFills fs .issued 0).pushLoad w (.tlm td off) fs))

/-- TST at issue (R346, R348). -/
def State.tryTst (s : State) (c w : Nat) : Option State :=
  let k := s.cl c
  let tn := fld w 19 16
  let off := fld w 52 32
  let q := fld w 23 20
  let x := k.slot q
  let toSlot := bitN w 8
  if !onlyBits w [(8, 8), (12, 12), (19, 16), (23, 20), (29, 24), (52, 32)] || fld w 29 24 == 63 || (toSlot && decide (12 ≤ q)) then
    some (s.illegal c)
  else if !toSlot && !lsFits off 16384 32 then some (s.lsFault c off)
  else if toSlot && !(decide (8 ≤ q ∧ x.state = .running) && !x.ending && !x.desc.pod && x.desc.fromTst && x.desc.f10 == 128) then
    some (s.ifault c 0x07 true 0 q)
  else if !k.loadRoom || k.loadPending [tn] || k.pourPending tn then none
  else some (s.setCl c (k.pushLoad w (if toSlot then .tstSlot tn q else .tst tn off) []))

/-- LUTLD at issue (R346, R349). -/
def State.tryLutld (s : State) (c w : Nat) : Option State :=
  let k := s.cl c
  let off := fld w 52 32
  if !onlyBits w [(12, 12), (17, 16), (29, 24), (52, 32)] || fld w 29 24 == 63 then some (s.illegal c)
  else if !lsFits off 1056 32 then some (s.lsFault c off)
  else if !k.loadRoom then none
  else some (s.setCl c (k.pushLoad w (.lut (fld w 17 16) off) []))

/-- RTLD at issue (R240, R346, R349): the header is read and checked. -/
def State.tryRtld (s : State) (c w : Nat) : Option State :=
  let k := s.cl c
  let off := fld w 52 32
  if !onlyBits w [(12, 12), (17, 16), (29, 24), (52, 32)] || fld w 29 24 == 63 then some (s.illegal c)
  else if !lsFits off 32 32 then some (s.lsFault c off)
  else if !k.loadRoom then none
  else match rtHeader (s.lsBytes c off 32) with
    | none => some (s.ifault c 0x04 true (lsBase c + off))
    | some ch =>
      if off + 32 + 8 * ch ≤ 0x200000 then some (s.setCl c (k.pushLoad w (.rt (fld w 17 16) off ch) []))
      else some (s.lsFault c off)

/-! ### POUR at issue -/

/-- The encoding of a POUR (R358). -/
def pourOk (w : Nat) : Bool :=
  onlyBits w [(8, 8), (9, 9), (20, 16), (28, 24), (52, 32), (69, 64)] && decide (fld w 20 16 ≤ 0x11) &&
    decide (fld w 28 24 < 0x10 ∨ 0x18 ≤ fld w 28 24 ∧ fld w 28 24 ≤ 0x1B) && fld w 69 64 != 63

/-- The next position of a store slot after one Pour (R293, R294). -/
def Slot.nextTile (x : Slot) : Slot :=
  let d := x.desc
  if !d.pod then { x with posA := x.posA + 128 }
  else if d.order then
    if x.posA + 1 = d.f10 + d.tRows then { x with posA := d.f10, posB := x.posB + 1 } else { x with posA := x.posA + 1 }
  else if x.posB + 1 = d.f14 + d.tCols then { x with posA := x.posA + 1, posB := d.f14 }
  else { x with posB := x.posB + 1 }

/-- A store slot as it will stand when the Pours issued before are complete. -/
def Cluster.slotAhead (k : Cluster) (q : Nat) : Slot :=
  (k.pours.filter fun p => fld p.w 28 24 == 0x10 + q).foldl (fun x _ => x.nextTile) (k.slot q)

/-- The second case of R295: the position lies past the range, or ROW_BYTES breaks R294. -/
def Slot.pourBad (x : Slot) (dstFmt : Nat) : Bool :=
  let d := x.desc
  if d.pod then (if d.order then decide (d.f14 + d.tCols ≤ x.posB) else decide (d.f10 + d.tRows ≤ x.posA))
  else decide (d.f14 ≤ x.posA) || d.f10 != (if dstFmt = 1 then 256 else 512)

/-- POUR at issue (R155, R181, R216, R264, R265, R295, R359). -/
def State.tryPour (s : State) (c w : Nat) : Option State :=
  let k := s.cl c
  let off := fld w 52 32
  let src := fld w 20 16
  let dst := fld w 28 24
  let toSlot := decide (0x18 ≤ dst)
  let q := dst - 0x10
  let x := k.slot q
  if !pourOk w then some (s.illegal c)
  else if !lsFits off 32 32 then some (s.lsFault c off)
  else
    let n := min 8 (chainCount (s.lsBytes c off 1))
    let ch := s.lsBytes c off (32 + 16 * n)
    if !lsFits off (32 + 16 * n) 32 then some (s.lsFault c off)
    else if toSlot && !(decide (x.state = .running) && !x.ending && !x.desc.fromTst) then some (s.ifault c 0x07 true 0 q)
    else
      match chainFault { src := src, dst := dst, transpose := bitN w 8, slotPod := x.desc.pod, slotFmt := x.tensor.map (·.fmt)
                         c := k.issueView } ch with
      | some (stage, code) =>
        some ((s.setCl c { k with pourFault := true, pourStage := stage, pourCode := code }).ifault c 0x03 true)
      | none =>
        if toSlot && (k.slotAhead q).pourBad (chainDst ch) then some (s.ifault c 0x07 true 0 q)
        else
          let slab := pourSlab w ch
          let dsts := pourDsts w ch
          if (k.pour0.isSome && k.pour1.isSome) || (decide (0x10 ≤ src) && k.mmas.any fun m => decide (m.set = src - 0x10)) ||
              k.loadPending (pourReads w ch) || !k.needsMet (k.needsOf dsts slab) then none
          else
            let fs := k.fillsOf dsts slab
            let p : PourRun := { w := w, pc := k.pc, seq := k.issued, fills := fs, chain := ch, late := k.stepStart }
            let k := { k.markFills fs .issued slab with issued := k.issued + 1 }
            some (s.setCl c (if k.pour0.isNone then { k with pour0 := some p } else { k with pour1 := some p }).retire)

/-! ### Entry -/

/-- An instruction for a unit at issue (R262 to R264): none where it stalls. -/
def State.tryUnit (s : State) (c w : Nat) (starved : Bool) (grid : Option (List Byte)) : Option State :=
  match w % 256 with
  | 0x40 => s.tryTld c w starved grid
  | 0x41 => s.tryTlm c w
  | 0x42 => s.tryTst c w
  | 0x43 => s.tryLutld c w
  | 0x44 => s.tryRtld c w
  | 0x50 => s.tryMma c w
  | _ => s.tryPour c w

/-- Issue an instruction of a unit: it enters, takes its fault, or holds issue (R263, R264). -/
def State.enter (s : State) (c w : Nat) (grid : Option (List Byte)) : State :=
  match s.tryUnit c w false grid with
  | some t => t
  | none => s.modCl c fun k => { k with hold := .stall w (s.tldStarved c w) }

/-- TLD (R339). -/
def execTld (c : BitVec 8) (bits : BitVec 120) (grid : Option (List Byte)) (s : State) : Res :=
  s.issue c.toNat fun _ => s.enter c.toNat (iword 0x40 bits) grid

/-- TLM (R347). -/
def execTlm (c : BitVec 8) (bits : BitVec 120) (s : State) : Res := s.issue c.toNat fun _ => s.enter c.toNat (iword 0x41 bits) none

/-- TST (R348). -/
def execTst (c : BitVec 8) (bits : BitVec 120) (s : State) : Res := s.issue c.toNat fun _ => s.enter c.toNat (iword 0x42 bits) none

/-- LUTLD (R349). -/
def execLutld (c : BitVec 8) (bits : BitVec 120) (s : State) : Res := s.issue c.toNat fun _ => s.enter c.toNat (iword 0x43 bits) none

/-- RTLD (R349). -/
def execRtld (c : BitVec 8) (bits : BitVec 120) (s : State) : Res := s.issue c.toNat fun _ => s.enter c.toNat (iword 0x44 bits) none

/-- MMA (R350). -/
def execMma (c : BitVec 8) (bits : BitVec 120) (s : State) : Res := s.issue c.toNat fun _ => s.enter c.toNat (iword 0x50 bits) none

/-- POUR (R358). -/
def execPour (c : BitVec 8) (bits : BitVec 120) (s : State) : Res := s.issue c.toNat fun _ => s.enter c.toNat (iword 0x58 bits) none

/-- What a stalled instruction waits for of the array. -/
def State.stallNeeds (s : State) (c w : Nat) : List (Nat × Nat × Nat) :=
  let k := s.cl c
  match w % 256 with
  | 0x40 =>
    let x := k.slot (fld w 23 20)
    k.needsOf [fld w 19 16] (if (x.tensor.any fun t => t.fmt.narrow4) && !bitN w 8 then fld w 10 9 else 0)
  | 0x41 => k.needsOf [fld w 19 16] 0
  | 0x58 =>
    let ch := s.lsBytes c (fld w 52 32) 160
    k.needsOf (pourDsts w ch) (pourSlab w ch)
  | _ => []

/-- A stalled instruction tries again (R263, R264): the array has made what it waits for, as far as nothing holds it. -/
def State.retry (s : State) (c w : Nat) (starved : Bool) (grid : Option (List Byte)) : State :=
  let s' := (s.stallNeeds c w).foldl (fun s n => s.runTo c n) s
  if (s'.cl c).hold = .stall w starved then
    match s'.tryUnit c w starved grid with
    | some t => t
    | none => s'.modCl c fun k => { k with hold := .stall w (starved || s'.tldStarved c w) }
  else s'

/-! ### Completion in the load unit -/

/-- A register with the slabs of a TLD (R341, R342, R344). -/
def podReg (old : TileReg) (fmt : Fmt) (sel : Nat) (axis : Bool) (grid : List Int) (clAddr clCap n0 n1 : Nat) (slabs : List SlabData)
    (poison : Bool) : TileReg :=
  let keep := sel == 2
  let of (sl : Nat) : Option SlabData := slabs.find? fun d => decide (d.slab = sl)
  let per := if fmt.narrow4 then 64 else 128
  let s0 := (of 0).map (·.codes)
  let s1 := (of 1).map (·.codes)
  let expsOf (sl : Nat) (f : Bool → Tab Nat → Tab Nat → Tab Nat) (t : Tab Nat) : Tab Nat := match of sl with
    | some d => f (keep || sl == 1) t d.exps
    | none => if keep then t else f true t []
  { bytes := tabOf 0#8 16384 fun q =>
      let sl := if fmt.narrow4 then q % 128 / 64 else 0
      match if sl = 0 then s0 else s1 with
      | some t => tabGet 0#8 t (q / 128 * per + q % per)
      | none => if keep then tabGet 0#8 old.bytes q else 0#8
    tag := { fmt := some fmt, lineAxis := axis, grid := grid, clAddr := clAddr, clCap := clCap, clCount0 := n0, clCount1 := n1
             exps := expsOf 1 (fun k t e => putSlabExps 1 k t e) (expsOf 0 (fun k t e => putSlabExps 0 k t e) old.tag.exps)
             lines := expsOf 1 (fun k t e => putSlabLines 1 k axis t e) (expsOf 0 (fun k t e => putSlabLines 0 k axis t e) old.tag.lines) }
    poison := poison || (keep && old.poison) }

/-- A side-tensor element through the slot's window (R343): its H16 code and poison, or none where it cannot be read.
`side` gives the sectors that reads of another device returned, by address. -/
def State.wideElem (s : State) (c via addr : Nat) (side : Tab (List Byte)) : Option (Nat × Bool) :=
  match s.within c via addr 2 false with
  | none => none
  | some (d, a) =>
    if d = s.me then (if s.readable a 2 false then some (leAt (s.bytes a 2) 0 2, s.poisoned a 2) else none)
    else (tabFind side (a / 32 * 32)).map fun b => (leAt b (a % 32) 2, false)

/-- The wide-channel items of a TLD (R123, R148, R343), with a record for each sector that could not be read. -/
def State.wideItems (s : State) (c via : Nat) (side : Tab (List Byte)) (ws : List (Nat × Nat × Nat)) :
    State × List (Nat × Nat × Bool) :=
  let got := ws.map fun (key, word, addr) => (key, word, addr, s.wideElem c via addr side)
  let bad := (got.filterMap fun g => if g.2.2.2.isNone then some (g.2.2.1 / 32 * 32) else none).eraseDups
  (bad.foldl (fun s a => s.err 1 0xFFFF { cluster := c, addr := a, i0 := 0x40 }) s,
   got.map fun (key, word, _, r) => match r with
     | some (h, p) => (key, word + (encF32 .rne (decH16 h)).1 * 2 ^ 32, p)
     | none => (key, word, true))

/-- Write correction items from an item place on, each with its poison (R148). -/
def State.putItems (s : State) (a : Nat) : List (Nat × Nat × Bool) → State
  | [] => s
  | (_, word, p) :: t => (s.store a (leBytes 8 word) p 0).putItems (a + 8) t

/-- A TLD of pods completes (R148, R341 to R344). -/
def State.finishPods (s : State) (c td : Nat) (fmt : Fmt) (sel : Nat) (axis : Bool) (grid : List Int) (clAddr clCap via : Nat)
    (slabs : List SlabData) (poison : Bool) (side : Tab (List Byte)) : State :=
  let (s, ws) := s.wideItems c via side (slabs.flatMap (·.wides))
  let old := (s.cl c).tile td
  let had := if sel = 2 then old.tag.clCount0 else 0
  let all := sortKeys (((slabs.flatMap (·.items)).map fun i => (i.1, i.2, false)) ++ ws)
  let kept := all.take (clCap - had)
  let n1 := (kept.filter fun i => bitN i.2.1 14).length
  let s := s.putItems (lsBase c + clAddr + 8 * had) kept
  let reg := podReg old fmt sel axis grid clAddr clCap (if sel = 2 then had else kept.length - n1) n1 slabs poison
  let s := s.modCl c fun k => { k with tiles := tabSet k.tiles td reg }
  if clCap - had < all.length then s.clDropped c td clCap else s

/-- Rows handed to a store slot by a TST (R348): items of the slot, those at or beyond ROWS discarded. -/
def State.tstRows (s : State) (c q : Nat) (r : TileReg) : State :=
  let k := s.cl c
  let x := k.slot q
  if decide (x.state = .running ∨ x.state = .paused) && !x.ending then
    let bytes := tabDense 0#8 16384 0 r.bytes
    let rows := (List.range 128).filter fun t => decide (x.posA + t < x.desc.f14)
    let items := rows.map fun t =>
      ({ idx := x.nextIdx + t, addr := x.desc.addr + x.desc.stride * (x.posA + t), bytes := Sys2Proof.Machine.slice bytes (128 * t) 128
         poison := r.poison } : StoreItem)
    s.setCl c (k.setSlot q { x with held := x.held ++ items, nextIdx := x.nextIdx + items.length, posA := x.posA + 128 })
  else s.ifault c 0x07 false 0 q

/-- A lookup table's record (R204, R205): the table with its differences, and their events. -/
def lutOf (b : List Byte) (poison : Bool) : Lut × Flags :=
  let t := fun i => leAt b (0x20 + 4 * i) 4
  let ds := (List.range 255).map fun i =>
    let (d, f) := (decF32 (t (i + 1))).add (decF32 (t i)).neg
    let (c, f2) := encF32 .rne d
    (c, f ||| f2)
  let edge := leAt b 8 1
  ({ invStep := leAt b 0 4, offset := leAt b 4 4, edgeLo := bitN edge 0, edgeHi := bitN edge 1, t := tabOf 0 256 t
     d := tabOf 0 255 fun i => (ds.getD i (0, noFlags)).1, poison := poison },
   ds.foldl (fun a d => a ||| d.2) noFlags)

/-- What a load-unit instruction does when it completes. -/
def State.finishLoad (s : State) (c : Nat) (side : Tab (List Byte)) : LoadOp → State
  | .pods td fmt sel axis grid a n via slabs p => s.finishPods c td fmt sel axis grid a n via slabs p side
  | .raw td bytes p => s.modCl c fun k => { k with tiles := tabSet k.tiles td { bytes := bytes, poison := p } }
  | .tlm td off =>
    let b := (s.lsBytes c off 16384).toArray
    let r : TileReg := { bytes := tabOf 0#8 16384 fun q => b.getD q 0#8, poison := s.poisoned (lsBase c + off) 16384 }
    s.modCl c fun k => { k with tiles := tabSet k.tiles td r }
  | .tst tn off =>
    let r := (s.cl c).tile tn
    s.store (lsBase c + off) (tabDense 0#8 16384 0 r.bytes) r.poison 0
  | .tstSlot tn q => s.tstRows c q ((s.cl c).tile tn)
  | .lut n off =>
    let (t, f) := lutOf (s.lsBytes c off 1056) (s.poisoned (lsBase c + off) 1056)
    (s.modCl c fun k => { k with luts := tabSet k.luts n t }).flagCl c f
  | .rt n off ch => s.fillRt c n off ch

/-- A table load waits for the Pours issued before it (R217, R241). -/
def Cluster.tableWaits (k : Cluster) (l : LoadRun) : Bool := l.op.isTable && k.pours.any fun p => decide (p.seq < l.seq)

/-- TILE_LOAD_COMPLETE (R268, R341 to R349): the target is written in full and the arrival made. -/
def execTileLoadComplete (c : BitVec 8) (side : Tab (List Byte)) (s : State) : Res :=
  let k := s.cl c.toNat
  .next (match k.load0 with
    | none => s
    | some l =>
      if !s.clocked || k.tableWaits l then s
      else
        let s := s.modCl c.toNat fun k => (k.markFills l.fills .done 0).popLoad
        (s.finishLoad c.toNat side l.op).arriveIf (bitN l.w 12) c.toNat (fld l.w 29 24))

/-! ### Pours at work -/

/-- A reload that RT_INV asked for waits, with the place in the issue order that the write took (R254). -/
def Cluster.reloadWaits (k : Cluster) (n seq : Nat) : Bool := k.rtInv.getLsbD n && decide (tabGet 0 k.rtInvAt n ≤ seq)

/-- Reload the tables whose RT_INV waits, once the Pours issued before the write are complete (R254, R255). -/
def State.tryReload (s : State) (c : Nat) : State :=
  (List.range 4).foldl (fun s n =>
    let k := s.cl c
    if !k.rtInv.getLsbD n || (k.pours.any fun p => decide (p.seq < tabGet 0 k.rtInvAt n)) then s
    else (if k.rtLoaded n then s.reloadRt c n else s).modCl c fun k => { k with rtInv := k.rtInv &&& ~~~(BitVec.ofNat 4 (2 ^ n)) }) s

/-- The state of lane `l`'s generator: as loaded, or from the entropy source since the last reset (R209). -/
def State.genOf (s : State) (c l : Nat) : W64 := (tabFind (s.cl c).gens l).getD (Config.entropy (s.genBase + 128 * c + l))

/-- A Pour's sources, operands, tables and chain hold poison (R485). -/
def State.pourPoison (s : State) (c : Nat) (p : PourRun) : Bool :=
  let k := s.cl c
  let src := fld p.w 20 16
  let bad := fun off n => s.poisoned (lsBase c + off) n
  (decide (0x10 ≤ src) && (k.acc (src - 0x10)).poison) || ((pourReads p.w p.chain).any fun r => (k.tile r).poison) ||
    bad (fld p.w 52 32) (32 + 16 * chainCount p.chain) ||
    (chainStages p.chain).any fun g =>
      (g.ops.any fun o => (opKind o == 1 || opKind o == 2) && bad (opVal o) (if opH16 o then 256 else 512)) ||
        (g.kind == 0x01 && ((tabGet {} k.rts (g.sub % 4)).poison || (bitN g.sub 4 && bad g.op3 512))) ||
        (g.kind == 0x06 && (tabGet {} k.luts (g.sub % 4)).poison) || (g.kind == 0x0E && bitN g.sub 0 && bad g.op3 2048) ||
        (g.kind == 0x10 && decide (fld p.w 28 24 < 0x10) && g.sub % 8 == 2 && bad g.op1 16)

/-- A store slot that packs G4 rereads its grid record before its next pod when it must (R249, R252, R253). GRID_INV clears
once none has it still to do. -/
def State.freshGrid (s : State) (c q : Nat) (remote : Option (List Byte)) : State :=
  let x := (s.cl c).slot q
  if !x.gridStale then s
  else
    let s := match s.readGrid c x remote with
      | some (s, g, _) => s.modCl c fun k => k.setSlot q { x with grid := g, gridStale := false }
      | none => s.modCl c fun k => k.setSlot q { x with gridStale := false }
    s.modCl c fun k => { k with gridInv := k.gridInv && k.slots.any fun p => p.2.gridStale && p.2.packsG4 }

/-- POUR_START (R169 to R203, R214, R217, R273): the engine is idle and the source ready. Everything the Pour reads, draws and
computes is taken here. -/
def execPourStart (c : BitVec 8) (grid : Option (List Byte)) (s : State) : Res :=
  let n := c.toNat
  let k := s.cl n
  .next (match k.pour0 with
    | none => s
    | some p =>
      if p.out.isSome || p.late || !s.clocked || (k.loads.any fun l => decide (l.seq < p.seq) && l.op.isTable) ||
          ((List.range 4).any fun n => k.reloadWaits n p.seq) then s
      else
        let dst := fld p.w 28 24
        let s := if 0x18 ≤ dst then s.freshGrid n (dst - 0x10) grid else s
        let k := s.cl n
        let x := k.slot (dst - 0x10)
        let r := pourRun { c := k, ls := s.lsBytes n, src := fld p.w 20 16, dst := dst, transpose := bitN p.w 8, chain := p.chain }
          ((List.range 128).map (s.genOf n)) x
        let k' := { k with
          pour0 := some { p with out := some { r.out with poison := s.pourPoison n p } }
          gens := (List.range 128).map fun l => (l, r.gens.getD l 0#64), arith := k.arith ||| r.flags }
        let k' := if 0x18 ≤ dst then k'.setSlot (dst - 0x10) { x with slCursor := r.cursor } else k'
        let s := r.sideFull.foldl (fun s a => s.podCond n (podFlag 5 true) a) (s.setCl n k')
        let cap := ((chainPack p.chain).map fun g => g.aux / 4).getD 0
        (if r.clFull then s.clDropped n dst cap else s).release n)

/-- A post to the norm watch (R403): into the open window, or discarded, with LATE in a step whose kind has UPDATE. -/
def State.watchPost (s : State) (i v : Nat) : State :=
  let x := tabGet {} s.watch i
  let put (y : WatchInput) : State := { s with watch := tabSet s.watch i y }
  if x.mode = 0 then s
  else if s.step.windowOpen then
    match decF32 v with
    | .fin m e => put { x with posted := true, sum := x.sum + shlInt m (e + 149).toNat }
    | _ => put { x with posted := true, notFinite := true }
  else if bitN ((s.job.sched.kinds.getD s.step.kind {}).mask) 3 && decide (s.step.phase < 7) then put { x with late := true }
  else s

/-- The outputs of a Pour's stages, in stage order (R192, R196, R197, R247, R485). -/
def State.pourVec (s : State) (c : Nat) (poison : Bool) (v : PourVec) : State :=
  let put (s : State) (a : Nat) (vals : List Nat) (p : Bool) : State := s.store (lsBase c + a) (vals.flatMap (leBytes 4)) p 0
  match v with
  | .emit a vals => put s a vals poison
  | .bitmap a b => s.store (lsBase c + a) b poison 0
  | .reduce sub aux a vals =>
    let isMax := sub % 4 == 1
    let old := (List.range 128).map fun k => leAt (s.lsBytes c (a + 4 * k) 4) 0 4
    let p := poison || (bitN sub 3 && s.poisoned (lsBase c + a) 512)
    let (vec, f0) := if bitN sub 3 then
        let l := (List.range 128).map fun k => redCombine isMax (old.getD k 0) (vals.getD k 0)
        (l.map (·.1), l.foldl (fun a x => a ||| x.2) noFlags)
      else (vals, noFlags)
    let s := put s a vec p
    if !bitN sub 4 then s.flagCl c f0
    else
      let (tot, f1) := redTree isMax vec
      let s := (put s (a + 0x200) [tot] p).flagCl c (f0 ||| f1)
      if !bitN sub 5 then s
      else if p then s.devFault 2 3 { poison := true, cluster := c, addr := lsBase c + a, i0 := 4 }
      else s.watchPost (aux % 64) tot

/-- The registers that a Pour writes; poison goes with every row, and a slab 1 write keeps what the register had (R485). -/
def Cluster.putPourRegs (k : Cluster) (p : PourRun) (o : PourOut) : Cluster :=
  o.regs.foldl (fun k r =>
    let x : TileReg := { r.2 with poison := o.poison || (pourSlab p.w p.chain == 2 && (k.tile r.1).poison) }
    { k with tiles := tabSet k.tiles r.1 x }) k

/-- Items handed to a store slot by a Pour (R293, R294); a slot that accepts no more discards them. -/
def Cluster.putPourItems (k : Cluster) (o : PourOut) : Cluster :=
  if o.slot = 0 then k
  else
    let x := k.slot o.slot
    if decide (x.state = .running ∨ x.state = .paused) && !x.ending then
      k.setSlot o.slot { (x.nextTile) with
        held := x.held ++ o.items.map fun it => { it with poison := o.poison }, nextIdx := x.nextIdx + o.items.length }
    else k

/-- POUR_COMPLETE (R173, R197, R214, R268): the rows and the outputs of the stages are written. -/
def execPourComplete (c : BitVec 8) (s : State) : Res :=
  let n := c.toNat
  let k := s.cl n
  .next (match k.pour0 with
    | none => s
    | some p =>
      match p.out with
      | none => s
      | some o =>
        if !s.clocked then s
        else
          let k := ((k.putPourRegs p o).putPourItems o).markFills p.fills .done (pourSlab p.w p.chain)
          let s := s.setCl n { k with pour0 := k.pour1, pour1 := none }
          let s := o.lists.foldl (fun s l => s.store (lsBase n + l.1) l.2 o.poison 0) s
          let s := o.vecs.foldl (fun s v => s.pourVec n o.poison v) s
          (((s.arriveIf (bitN p.w 9) n (fld p.w 69 64)).tryStep n).tryReload n))

end Sys2Proof.Machine
end

