-- ==== Sys2Proof/Machine/Remote.lean ====
section
/-!
DEFINITION. Accesses that are made where the memory is, for another device or for the exchange engine: reads, REDUCE_WRITE and
atomics (R451, R463, R515 to R519), with the exchange engine's arithmetic (R91, R548, R549).
-/
namespace Sys2Proof.Machine

/-- Events of the exchange engine (R91, R555). -/
def State.xeFlags (s : State) (f : Flags) : State :=
  { s with fab := { s.fab with
      xeSat := s.fab.xeSat || (f &&& flagSat) != 0#5, xeNan := s.fab.xeNan || (f &&& flagNanGen) != 0#5
      xeOvf := s.fab.xeOvf || (f &&& flagOvf) != 0#5, xeFtz := s.fab.xeFtz || (f &&& flagFtz) != 0#5 } }

/-- One combination in format 1 F32, 2 H16 or 3 I32 (R517, R548): the exact sum, rounded once; I32 saturates. -/
def combineElem (fmt : Nat) (mode : Mode) (a b : Nat) : Nat × Flags :=
  match fmt with
  | 1 => let (x, f) := (decF32 a).add (decF32 b); let (c, f2) := encF32 mode x; (c, f ||| f2)
  | 2 => let (x, f) := (decH16 a).add (decH16 b); let (c, f2) := encH16 mode x; (c, f ||| f2)
  | _ =>
    let (x, f) := toIntSat .rne (-2147483648) 2147483647 (.ofInt (signed 32 a + signed 32 b))
    (unsigned 32 x, f)

/-- The bytes of one element of a format. -/
def elemSize (fmt : Nat) : Nat := match fmt with | 0 => 1 | 1 => 4 | 2 => 2 | 3 => 4 | _ => 288

/-- Combine two runs of elements; `mode` gives the rounding of each. -/
def combineRun (fmt : Nat) (mode : Nat → Mode) (a b : List Byte) : List Byte × Flags :=
  let n := elemSize fmt
  (List.range (a.length / n)).foldr (fun i (acc : List Byte × Flags) =>
    let (c, f) := combineElem fmt (mode i) (leAt a (n * i) n) (leAt b (n * i) n)
    (leBytes n c ++ acc.1, acc.2 ||| f)) ([], noFlags)

/-- Two S8 pods combined (R548): scaled values, exact sums, exponents from the sums, codes under the mode of each position. -/
def combinePod (mode : Nat → Mode) (a b : List Byte) : List Byte × Flags :=
  let val := fun (p : List Byte) (i : Nat) => e8Scale (podExp p (i / 32)) (.ofInt (signed 8 (podCode .s8 p i)))
  let blocks := (List.range 8).map fun k =>
    let es := (List.range 32).map fun i => let (x, f) := (val a (32 * k + i)).add (val b (32 * k + i)); (PackElem.coded x, f)
    let plan := planBlock .s8 [] 0 0 (es.map (·.1))
    let (codes, _, f) := codeBlock .s8 [] plan [] (fun i => mode (32 * k + i)) (es.map (·.1))
    (plan.exp, codes, es.foldl (fun a (e : PackElem × Flags) => a ||| e.2) f)
  (encodePod .s8 (blocks.flatMap (·.2.1)) (blocks.map (·.1)) [] none, blocks.foldl (fun a x => a ||| x.2.2) noFlags)

/-- A pod with non-zero padding as the engine sees it (R105, R550): reserved header bytes, or codes of a block at 0xFF. -/
def podPadded (p : List Byte) : Bool :=
  leAt p 8 24 != 0 || (List.range 256).any fun i => podExp p (i / 32) == 255 && podCode .s8 p i != 0

/-- A line is taken back from every scalar cache that holds it (R463). -/
def State.recallLine (s : State) (line : Nat) : State :=
  let h := s.lineHome line
  match (s.slice h).dir.find? fun e => decide (e.line = line) with
  | none => s
  | some e =>
    let s := (e.owner.toList ++ e.sharers).foldl (fun s c =>
      match tabFind (s.cl c).cache line with
      | some x => (s.writeBack line x).modCl c fun k => { k with cache := tabDel k.cache line }
      | none => s) s
    let x := s.slice h
    s.setSlice h { x with dir := x.dir.filter fun e => decide (e.line ≠ line) }

/-- The status of an access to memory that is not made (R519), or none where it is allowed: HBM, or the local store of a
cluster that is not fenced. -/
def State.refuses (s : State) (a n : Nat) : Option Nat :=
  match s.place a with
  | .hbm => if a + n ≤ s.memsys.hbmTop then none else some 1
  | .ls c off => if 0x200000 < off + n then some 1 else if (s.cl c).fenced then some 3 else none
  | .unmapped => some 1
  | _ => some 2

/-- REDUCE_WRITE at its destination (R463, R517): each element one read-modify-write under RNE. Poison at the destination is a
device fault (R485), and the bytes stay. -/
def State.reduceAt (s : State) (fmt a : Nat) (bs : List Byte) (cls : Nat) : State ⊕ Nat :=
  match s.refuses a bs.length with
  | some n => .inr n
  | none =>
    let (s, old, p) := s.load a bs.length cls
    if p then .inl (s.devFault 2 3 { poison := true, addr := a, i0 := 5 })
    else
      let (new, f) := combineRun fmt (fun _ => .rne) old bs
      .inl ((s.store a new false cls).xeFlags f)

/-- An atomic at its destination (R463, R518): 0 ADD, 1 FETCH_ADD, 2 SWAP, 3 CAS. An ADD to an EV_ADD register is an arrival.
The old value, or the status of R519. -/
def State.atomicAt (s : State) (op a x y cls : Nat) : (State × Nat) ⊕ Nat :=
  match s.place a with
  | .csr c off =>
    if decide (op = 0 ∧ 0x600 ≤ off ∧ off < 0x7F8) && off % 8 == 0 then
      if (s.cl c).fenced then .inr 3 else .inl (s.arrive c ((off - 0x600) / 8) x, 0)
    else .inr 2
  | _ =>
    match s.refuses a 8 with
    | some n => .inr n
    | none =>
      if a % 8 ≠ 0 then .inr 2
      else
        let s := if a < 0x400000000000 then s.recallLine (a / 128) else s
        let (s, b, p) := s.load a 8 cls
        if p then .inr 4
        else
          let old := leAt b 0 8
          let new := match op with
            | 2 => x
            | 3 => if old = x then y else old
            | _ => old + x
          .inl (s.store a (leBytes 8 new) false cls, old)

/-- The engine's 16-bit draw for element `e` of a collective in round `r` (R549). -/
def State.engineDraw (s : State) (coll e r : Nat) : Nat :=
  let k := if s.job.seeded then BitVec.ofNat 64 s.job.seed else Config.entropy (s.genBase + 32768)
  let x := k + BitVec.ofNat 64 s.step.number * 0x9E3779B97F4A7C15#64 + BitVec.ofNat 64 coll * 0xD1B54A32D192ED03#64 +
    BitVec.ofNat 64 (e * 32 + r) * 0xBF58476D1CE4E5B9#64
  ((seedMix x) >>> 48).toNat

end Sys2Proof.Machine
end

