-- ==== Sys2Proof/Machine/Exch.lean ====
section
/-!
DEFINITION. The exchange engine (R360, R361, R540 to R550): posts and their checks, point-to-point operations, collectives,
verified fetches as far as the engine runs them (R543); and UNIT_ENTRY, which ends what holds issue (R263, R264, R275).
-/
namespace Sys2Proof.Machine

/-! ### Posts -/

/-- The fields of an exchange descriptor (R541), with the KIND of the instruction. -/
def postOf (kind : Nat) (b : List Byte) : PostDesc :=
  { kind := kind, format := leAt b 0 1, rmode := bitN (leAt b 1 1) 0, verify := bitN (leAt b 1 1) 1, partL := leAt b 2 1 % 16
    partR := leAt b 2 1 / 16, aop := leAt b 3 1, count := leAt b 4 4, loc := leAt b 8 8, remote := leAt b 0x10 8
    group := leAt b 0x18 8, operand := leAt b 0x20 8, operand2 := leAt b 0x28 8, collId := leAt b 0x30 4, shard := leAt b 0x34 4
    res := leAt b 0x38 8, flagsRes := leAt b 1 1 / 4 }

/-- A collective (R360). -/
def PostDesc.isColl (d : PostDesc) : Bool := decide (0x10 ≤ d.kind)

/-- The class under which a post's accesses are charged (R478). -/
def PostDesc.cls (d : PostDesc) : Nat := 3 + 8 * (d.partL + 1)

/-- The bytes of a post's buffer. -/
def PostDesc.bytes (d : PostDesc) : Nat := if d.isColl then d.count * elemSize d.format else d.count

/-- A pod buffer in HBM lies at a multiple of 288 (R457, R544). -/
def podPlaced (fmt a : Nat) : Bool := fmt != 4 || decide (0x400000000000 ≤ a) || a % 288 == 0

/-- The member indices of a group record (R545), where it is valid: the members and this device's index. -/
def State.groupOf (s : State) (a : Nat) : Option (List Nat × Nat) :=
  if a % 8 != 0 || !s.isHbm a 8 then none
  else
    let n := leAt (s.bytes a 4) 0 4
    let i := leAt (s.bytes (a + 4) 4) 0 4
    if decide (n < 2 ∨ 131072 < n ∨ n ≤ i) || !s.isHbm a (8 + 4 * n) || s.poisoned a (8 + 4 * n) then none
    else
      let ms := (List.range n).map fun j => leAt (s.bytes (a + 8 + 4 * j) 4) 0 4
      if ms.all (fun m => decide (m < 2 ^ 18)) && decide (ms.eraseDups.length = n) && ms.getD i 0 == s.me then some (ms, i) else none

/-- The first unit of chunk `i` of `n` units over `p` members (R546). -/
def chunkLo (n p i : Nat) : Nat := i * n / p

/-- Every chunk begins at a multiple of 32 bytes (R514; log entry 8). -/
def chunksAligned (d : PostDesc) (p : Nat) : Bool :=
  (List.range (p + 1)).all fun i => (chunkLo d.count p i * elemSize d.format) % 32 == 0

/-- A shard entry that this device replicates (R379). -/
def State.replica (s : State) (i : Nat) : Option Shard :=
  (s.job.shards[i]?).filter fun e => decide (e.owner ≠ s.job.rank)

/-- The checks of R544 on a post, and where its remote end lies: device and address. None where the post is rejected. -/
def State.postCheck (s : State) (c : Nat) (d : PostDesc) : Option (DevId × Nat) :=
  let okFields := decide (d.format ≤ 4) && d.res == 0 && d.flagsRes == 0 && decide (d.aop ≤ 3) && (d.kind == 4 || d.aop == 0) &&
    (d.kind != 4 || d.count == 0) && (d.kind != 3 || (decide (1 ≤ d.format) && decide (d.format ≤ 3))) &&
    (d.kind != 0x10 || d.format != 0)
  if !okFields then none
  else if d.kind = 2 ∧ d.verify then (s.replica d.shard).bind fun e =>
    (s.job.ranks[e.owner]?).map fun dev => (dev, s.job.pubBase + 32 * e.slot)
  else if d.isColl then
    match s.groupOf d.group with
    | none => none
    | some (ms, _) =>
      if d.loc % 32 == 0 && podPlaced d.format d.loc && s.isStore d.loc d.bytes && chunksAligned d ms.length &&
          (d.kind != 0x12 || decide (ms.length ≤ 16384)) then some (s.me, 0)
      else none
  else
    let n := if d.kind = 4 then 8 else d.count
    match s.translate c d.remote n (d.kind != 2) with
    | none => none
    | some (dev, a) =>
      let okLoc := if d.kind = 4 then d.aop == 0 || (d.loc % 8 == 0 && s.isStore d.loc 8)
        else d.loc % 32 == 0 && s.isStore d.loc d.count && podPlaced d.format d.loc
      let okRem := if d.kind = 4 then a % 8 == 0
        else a % 32 == 0 && d.count % 32 == 0 && podPlaced d.format a && (d.format != 4 || d.count % 288 == 0)
      if okLoc && okRem then some (dev, a) else none

/-- Remove a post from the engine. -/
def State.dropPost (s : State) (id : Nat) : State :=
  { s with fab := { s.fab with posts := s.fab.posts.filter fun p => decide (p.id ≠ id) }
           step := { s.step with fetches := s.step.fetches.filter fun f => decide (f.post ≠ id) } }

/-- Change a post. -/
def State.modPost (s : State) (id : Nat) (f : Post → Post) : State :=
  { s with fab := { s.fab with posts := s.fab.posts.map fun p => if p.id = id then f p else p } }

/-- A post of a cluster fails (R304, R520, R544): an imprecise EXCH fault, and the post goes. -/
def State.postFail (s : State) (p : Post) : State :=
  let s := s.dropPost p.id
  if p.owner < 256 then s.ifault p.owner 0x0A false else s

/-! ### Collectives -/

/-- One round of a collective: its number for draws, what is sent to whom and expected from whom (member and chunks), and
whether what comes is combined or taken as it is. -/
structure CollStep where
  r : Nat := 0
  send : List (Nat × List Nat) := []
  recv : List (Nat × List Nat) := []
  combine : Bool := false
  deriving DecidableEq, Repr

/-- The chunks of `p` whose top `r` of `l` index bits are those of member `m`. -/
def chunksOf (p l r m : Nat) : List Nat := (List.range p).filter fun c => (c % 2 ^ l) >>> (l - r) == (m % 2 ^ l) >>> (l - r)

/-- The rounds of recursive doubling (R546). -/
def gatherSteps (p l m : Nat) : List CollStep :=
  if 2 ^ l ≤ m then []
  else (List.range l).map fun i =>
    let r := l - i
    let q := m ^^^ 2 ^ (l - r)
    { send := [(q, chunksOf p l r m)], recv := [(q, chunksOf p l r q)] }

/-- The last round of ALL_GATHER: members below P' hand their whole buffer to those above. -/
def spreadStep (p l m : Nat) : CollStep :=
  let all := List.range p
  if 2 ^ l ≤ m then { recv := [(m - 2 ^ l, all)] } else if m + 2 ^ l < p then { send := [(m + 2 ^ l, all)] } else {}

/-- The rounds of a collective for member `m` of `p` (R546). -/
def collPlan (kind p m : Nat) : List CollStep :=
  let l := Nat.log2 p
  let top := 2 ^ l
  let all := List.range p
  match kind with
  | 0x10 =>
    [if top ≤ m then { send := [(m - top, all)] }
     else if m + top < p then { recv := [(m + top, all)], combine := true } else {}] ++
    (if top ≤ m then [] else (List.range l).map fun i =>
      let r := i + 1
      let q := m ^^^ 2 ^ (l - r)
      { r := r, send := [(q, (chunksOf p l r q))], recv := [(q, chunksOf p l r m)], combine := true }) ++
    [if top ≤ m then { recv := [(m - top, [m])] } else if m + top < p then { send := [(m + top, [m + top])] } else {}]
  | 0x11 =>
    [if top ≤ m then { send := [(m - top, [m])] } else if m + top < p then { recv := [(m + top, [m + top])] } else {}] ++
    gatherSteps p l m ++ [spreadStep p l m]
  | 0x12 => [{ send := (all.filter (decide <| · ≠ m)).map fun j => (j, [j])
               recv := (all.filter (decide <| · ≠ m)).map fun j => (j, [j]) }]
  | _ =>
    (if top ≤ m then [] else (List.range l).filterMap fun i =>
      let r := i + 1
      let w := 2 ^ (l - r)
      if m % (2 * w) = 0 then some { send := [(m + w, chunksOf p l r (m + w))] }
      else if m % (2 * w) = w then some { recv := [(m - w, chunksOf p l r m)] } else none) ++
    gatherSteps p l m ++ [spreadStep p l m]

/-- The byte range of a chunk of a collective's buffer. -/
def PostDesc.chunk (d : PostDesc) (p i : Nat) : Nat × Nat :=
  (chunkLo d.count p i * elemSize d.format, chunkLo d.count p (i + 1) * elemSize d.format)

/-- Send byte ranges of the buffer to a member, each to the same place of its buffer; ALL_TO_ALL moves chunk `j` to the place
of this member's chunk, as far as both reach (log entry 9). Poison does not leave the device (R485). -/
def State.collSend (s : State) (id : Nat) (d : PostDesc) (k : Coll) (to_ : Nat) (chunks : List Nat) : State :=
  let p := k.members.length
  let dev := k.members.getD to_ 0
  chunks.foldl (fun s i =>
    let (lo, hi) := d.chunk p i
    let (at_, lim) := if d.kind = 0x12 then d.chunk p k.me else (lo, hi)
    let n := min (hi - lo) (lim - at_)
    if n = 0 then s
    else
      let (s, bs, bad) := s.load (d.loc + lo) n d.cls
      if bad then s.devFault 2 3 { poison := true, addr := d.loc + lo, i0 := 6 }
      else
        let pk := (writePkts 0x18 at_ s.job.tag d.partR (d.format == 4) bs).map fun q =>
          { q with addr := q.addr / 32 + d.collId * 2 ^ 32 }
        s.sendOp false dev (.post id) 0 pk) s

/-- The ranges that a round expects of a member: those of the chunks, at this member's places. -/
def PostDesc.expects (d : PostDesc) (k : Coll) (chunks : List Nat) (_from : Nat) : List (Nat × Nat) :=
  chunks.map fun i =>
    let (lo, hi) := d.chunk k.members.length i
    if d.kind = 0x12 then let (a, b) := d.chunk k.members.length k.me; (lo, lo + min (hi - lo) (b - a)) else (lo, hi)

/-- What has arrived of a member covers a range. -/
def Coll.covered (k : Coll) (src lo hi : Nat) : Bool :=
  ((k.got.filter fun g => decide (g.1 = src ∧ lo ≤ g.2.1 ∧ g.2.1 < hi)).map fun g => g.2.2.length).sum == hi - lo

/-- Take arrived bytes into the buffer (R547 to R550): combined under the draws of round `r`, or as they are. -/
def State.collTake (s : State) (d : PostDesc) (combine : Bool) (r off : Nat) (bs : List Byte) : State :=
  let a := d.loc + off
  if !combine then s.store a bs false d.cls
  else
    let (s, old, bad) := s.load a bs.length d.cls
    if bad then s.devFault 2 3 { poison := true, addr := a, i0 := 5 }
    else if d.format = 4 then
      let first := off / 288
      let pods := (List.range (bs.length / 288)).map fun i =>
        let x := Sys2Proof.Machine.slice old (288 * i) 288
        let y := Sys2Proof.Machine.slice bs (288 * i) 288
        let mode := fun p => if d.rmode then Mode.sr (s.engineDraw d.collId (256 * (first + i) + p) r) else .rne
        (combinePod mode x y, podPadded x || podPadded y)
      let s := (s.store a (pods.flatMap (·.1.1)) false d.cls).xeFlags (pods.foldl (fun f p => f ||| p.1.2) noFlags)
      if pods.any (·.2) then { s with fab := { s.fab with xePad := true } } else s
    else
      let e := off / elemSize d.format
      let mode := fun i => if d.rmode then Mode.sr (s.engineDraw d.collId (e + i) r) else .rne
      let (new, f) := combineRun d.format mode old bs
      (s.store a new false d.cls).xeFlags f

/-- Run a collective as far as what has arrived lets it: a round is taken when all of it is there, and the next is then sent. -/
def State.collPump (s : State) (id : Nat) : Nat → State
  | 0 => s
  | fuel + 1 =>
    match s.fab.posts.find? fun p => decide (p.id = id) with
    | none => s
    | some p =>
      match p.coll with
      | none => s
      | some k =>
        let plan := collPlan p.desc.kind k.members.length k.me
        match plan[k.round]? with
        | none => s
        | some st =>
          let wants := st.recv.flatMap fun r => (p.desc.expects k r.2 r.1).map fun e => (r.1, e)
          if !(wants.all fun w => k.covered w.1 w.2.1 w.2.2) then s
          else
            let mine (g : Nat × Nat × List Byte) : Bool := wants.any fun w => decide (g.1 = w.1 ∧ w.2.1 ≤ g.2.1 ∧ g.2.1 < w.2.2)
            let s := (k.got.filter mine).foldl (fun s g => s.collTake p.desc st.combine st.r g.2.1 g.2.2) s
            let k := { k with round := k.round + 1, got := k.got.filter fun g => !mine g }
            let s := s.modPost id fun p => { p with coll := some k }
            let s := match plan[k.round]? with
              | some nx => nx.send.foldl (fun (s : State) (x : Nat × List Nat) => s.collSend id p.desc k x.1 x.2) s
              | none => s
            s.collPump id fuel

/-- A collective's rounds are all made. -/
def Post.collDone (p : Post) : Bool :=
  match p.coll with
  | some k => decide ((collPlan p.desc.kind k.members.length k.me).length ≤ k.round)
  | none => true

/-! ### Starting a post -/

/-- The read of the owner's publication record by a verified fetch (R393). -/
def State.fetchRecord (s : State) (p : Post) (e : Shard) : State :=
  s.sendOp false p.dev (.post p.id) 32 (readPkts p.raddr e.image 32 s.job.tag p.desc.partR)

/-- The engine takes up a post (R540 to R546). -/
def State.startPost (s : State) (p : Post) : State :=
  let d := p.desc
  if d.isColl then
    match s.groupOf d.group with
    | none => s
    | some (ms, i) =>
      let k : Coll := { members := ms, me := i }
      let s := s.modPost p.id fun p => { p with coll := some k }
      let plan := collPlan d.kind ms.length i
      let s := match plan[0]? with
        | some st => st.send.foldl (fun (s : State) (x : Nat × List Nat) => s.collSend p.id d k x.1 x.2) s
        | none => s
      s.collPump p.id (plan.length + 1)
  else if d.kind = 2 ∧ d.verify then
    match s.replica d.shard with
    | none => s
    | some e =>
      let s : State := { s with step := { s.step with
        fetches := s.step.fetches ++ [{ post := p.id, entry := d.shard, since := s.now, lastRead := s.now }] } }
      s.fetchRecord p e
  else if p.dev = s.me then s
  else
    match d.kind with
    | 2 => s.sendOp false p.dev (.post p.id) d.count (readPkts p.raddr d.loc d.count s.job.tag d.partR)
    | 4 =>
      let ret := leBytes 8 d.loc
      let pay := match d.aop with
        | 0 => leBytes 8 d.operand
        | 3 => leBytes 8 d.operand ++ leBytes 8 d.operand2 ++ ret
        | _ => leBytes 8 d.operand ++ ret
      s.sendOp false p.dev (.post p.id) (if d.aop = 0 then 0 else 8)
        [{ op := 8 + d.aop, part := d.partR, addr := p.raddr, job := s.job.tag, payload := pay }]
    | k =>
      let (s, bs, bad) := s.load d.loc d.count d.cls
      if bad then (s.devFault 2 3 { poison := true, addr := d.loc, i0 := 6 }).dropPost p.id
      else s.sendOp false p.dev (.post p.id) 0
        (writePkts (if k = 3 then 2 + d.format else 1) p.raddr s.job.tag d.partR (d.format == 4) bs)

/-- The post enters its queue where its checks gave a device and an address, else an imprecise EXCH fault (R361). -/
def State.postTo (s : State) (c w : Nat) (d : PostDesc) : Option (DevId × Nat) → State
  | none => s.ifault c 0x0A false
  | some (dev, a) =>
    let p : Post := { id := s.fab.postNext, owner := c, desc := d, ev := if bitN w 8 then some (fld w 29 24) else none, dev := dev, raddr := a }
    { s with fab := { s.fab with postNext := s.fab.postNext + 1, posts := s.fab.posts ++ [p] } }.startPost p

/-- EXCH posts its operation (R361, R544): a rejection is an imprecise EXCH fault. -/
def State.post (s : State) (c w : Nat) : State :=
  let d := postOf (fld w 23 16) (s.lsBytes c (fld w 52 32) 64)
  let s := s.modCl c Cluster.retire
  s.postTo c w d (if s.poisoned (lsBase c + fld w 52 32) 64 then none else s.postCheck c d)

/-- EXCH at issue (R262, R275, R360): 16 posts of the cluster at most; with REL it first meets the REL condition. -/
def State.enterExch (s : State) (c w : Nat) : State :=
  let hold (h : Hold) (s : State) : State := s.modCl c fun k => { k with hold := h }
  if !onlyBits w [(8, 8), (9, 9), (23, 16), (29, 24), (52, 32)] || fld w 29 24 == 63 then s.illegal c
  else if !lsFits (fld w 52 32) 64 32 then s.lsFault c (fld w 52 32)
  else if 16 ≤ (s.fab.posts.filter fun p => decide (p.owner = c)).length then hold (.stall w false) s
  else if bitN w 9 then
    let s := s.cleanCache c
    let marks := s.marks c
    if s.relDone c marks then s.post c w else hold (.rel w marks) s
  else s.post c w

/-- An EXCH word of a KIND: opcode, KIND and the command's other bits. -/
def exchWord (kind : Nat) (bits : BitVec 120) : Nat :=
  let w := iword 0x60 bits
  w - fld w 23 16 * 2 ^ 16 + kind * 2 ^ 16

/-- EXCH with KIND WRITE (R360). -/
def execExchWrite (c : BitVec 8) (bits : BitVec 120) (s : State) : Res := s.issue c.toNat fun _ => s.enterExch c.toNat (exchWord 0x01 bits)
/-- EXCH with KIND READ (R360, R543). -/
def execExchRead (c : BitVec 8) (bits : BitVec 120) (s : State) : Res := s.issue c.toNat fun _ => s.enterExch c.toNat (exchWord 0x02 bits)
/-- EXCH with KIND REDUCE_WRITE (R360). -/
def execExchReduceWrite (c : BitVec 8) (bits : BitVec 120) (s : State) : Res :=
  s.issue c.toNat fun _ => s.enterExch c.toNat (exchWord 0x03 bits)
/-- EXCH with KIND ATOMIC (R360). -/
def execExchAtomic (c : BitVec 8) (bits : BitVec 120) (s : State) : Res := s.issue c.toNat fun _ => s.enterExch c.toNat (exchWord 0x04 bits)
/-- EXCH with KIND REDUCE_SCATTER (R360, R546). -/
def execReduceScatter (c : BitVec 8) (bits : BitVec 120) (s : State) : Res := s.issue c.toNat fun _ => s.enterExch c.toNat (exchWord 0x10 bits)
/-- EXCH with KIND ALL_GATHER (R360, R546). -/
def execAllGather (c : BitVec 8) (bits : BitVec 120) (s : State) : Res := s.issue c.toNat fun _ => s.enterExch c.toNat (exchWord 0x11 bits)
/-- EXCH with KIND ALL_TO_ALL (R360, R546). -/
def execAllToAll (c : BitVec 8) (bits : BitVec 120) (s : State) : Res := s.issue c.toNat fun _ => s.enterExch c.toNat (exchWord 0x12 bits)
/-- EXCH with KIND BROADCAST (R360, R546). -/
def execBroadcast (c : BitVec 8) (bits : BitVec 120) (s : State) : Res := s.issue c.toNat fun _ => s.enterExch c.toNat (exchWord 0x13 bits)

/-! ### Completion -/

/-- The effect of a point-to-point post whose remote end is this device (R282, R542): the state after it, or a status. -/
def State.localPost (s : State) (p : Post) : State ⊕ Nat :=
  let d := p.desc
  match d.kind with
  | 1 =>
    let (s, bs, bad) := s.load d.loc d.count d.cls
    s.deviceWrite p.raddr bs bad d.cls true
  | 2 =>
    match s.refuses p.raddr d.count with
    | some n => .inr n
    | none =>
      let (s, bs, bad) := s.load p.raddr d.count d.cls
      .inl (s.store d.loc bs bad d.cls)
  | 3 =>
    let (s, bs, bad) := s.load d.loc d.count d.cls
    if bad then .inl (s.devFault 2 3 { poison := true, addr := d.loc, i0 := 5 }) else s.reduceAt d.format p.raddr bs d.cls
  | _ =>
    match s.atomicAt d.aop p.raddr d.operand d.operand2 d.cls with
    | .inr n => .inr n
    | .inl (s, old) => .inl (if d.aop = 0 then s else s.store d.loc (leBytes 8 old) false d.cls)

/-- What a REDUCE_SCATTER leaves outside the member's own chunk is undefined (R546): free values. -/
def State.blurBuffer (s : State) (d : PostDesc) (k : Coll) : State :=
  let (lo, hi) := d.chunk k.members.length k.me
  let n := d.bytes
  let base := s.freeCtr
  let free (off len : Nat) : List Byte := (List.range len).map fun i => Config.freeByte (base + off + i)
  let s := { s with freeCtr := base + n }
  let s := if lo = 0 then s else s.store d.loc (free 0 lo) false d.cls
  if hi = n then s else s.store (d.loc + hi) (free hi (n - hi)) false d.cls

/-- A verified fetch has its image (R393). -/
def State.fetchReady (s : State) (p : Post) : Bool :=
  !(decide (p.desc.kind = 2) && p.desc.verify) || (s.step.fetches.any fun f => decide (f.post = p.id ∧ f.stage = 4))

/-- EXCH_COMPLETE (R268, R542): nothing of the post is outstanding; its arrival is made. -/
def execExchComplete (post : Nat) (s : State) : Res :=
  .next (match s.fab.posts.find? fun p => decide (p.id = post) with
    | none => s
    | some p =>
      if (s.fab.ops.any fun o => decide (o.origin = .post p.id)) || !p.collDone || !s.fetchReady p then s
      else
        let plain := !p.desc.isColl && !(decide (p.desc.kind = 2) && p.desc.verify) && decide (p.dev = s.me)
        match if plain then s.localPost p else .inl s with
        | .inr _ => s.postFail p
        | .inl s =>
          let s := match p.coll with
            | some k => if p.desc.kind = 0x10 then s.blurBuffer p.desc k else s
            | none => s
          match p.ev with
          | some e => (s.dropPost p.id).arrive p.owner e 1
          | none => s.dropPost p.id)

/-- UNIT_ENTRY (R263, R264, R275): an instruction that holds issue enters its unit, or sends, once what it waits for is
there. -/
def execUnitEntry (c : BitVec 8) (grid : Option (List Byte)) (s : State) : Res :=
  let n := c.toNat
  let k := s.cl n
  .next (if !(decide (k.st = .running) && !k.fenced && s.clocked) then s
    else match k.hold with
      | .stall w starved => if w % 256 = 0x60 then
            (if (s.fab.posts.filter fun p => decide (p.owner = n)).length < 16 then s.enterExch n w else s)
          else s.retry n w starved grid
      | .rel w marks =>
        if !s.relDone n marks then s
        else if w % 256 = 0x60 then s.post n w
        else if !bitN w 9 || k.unitsDone then s.sendSignal n w else s
      | _ => s)

end Sys2Proof.Machine
end

