-- ==== Sys2Proof/Machine/Control.lean ====
section
/-!
DEFINITION. What a cluster does beside its instructions: halting and resuming (R298 to R302, R308), writes to its counters,
translation rereads and table reloads (R252, R254, R268, R270, R283, R284).
-/
namespace Sys2Proof.Machine

/-- A program's write reaches the cluster's window: the cluster is present and not fenced (R35, R306). -/
def State.open_ (s : State) (c : Nat) : Bool := !s.absent c && !(s.cl c).fenced

/-- CLUSTER_HALTED (R299): the executing MMA stopped or completed, and every issued Pour and load complete. -/
def execClusterHalted (c : BitVec 8) (s : State) : Res :=
  let k := s.cl c.toNat
  .next (if decide (k.st = .halting) && s.clocked && k.pours.isEmpty && k.loads.isEmpty &&
      (k.mma0.all fun m => m.stopped || !m.started) then
    s.setCl c.toNat { k with st := .halted }
  else s)

/-- HALT_REQ (R298, R308): nothing in IDLE. -/
def Cluster.haltAsk (k : Cluster) : Cluster := if k.st = .idle then k else { k.halt false with haltReq := true }

/-- HALT_REQ (R308), at a present cluster. -/
def execHaltReq (c : BitVec 8) (s : State) : Res :=
  .next (if s.absent c.toNat then s else s.modCl c.toNat Cluster.haltAsk)

/-- RESUME (R301, R302): from HALTED or IDLE, where neither FAULT nor the fence bit is set; a stopped MMA goes on, paused slots
run again. -/
def Cluster.resume (k : Cluster) : Cluster :=
  if k.fault || k.fenced then k
  else match k.st with
    | .idle => { k with st := .running }
    | .halted =>
      { k with st := .running, haltReq := false, mma0 := k.mma0.map fun m => { m with stopped := false }
               slots := k.slots.map fun p => (p.1, if p.2.state = .paused then { p.2 with state := .running } else p.2) }
    | _ => k

/-- RESUME (R301, R302, R308). -/
def execResume (c : BitVec 8) (s : State) : Res :=
  .next (if s.absent c.toNat then s else s.modCl c.toNat Cluster.resume)

/-- EVENT_COUNTER_WRITE (R270, R307): sets e0 to e62; e63 is not a program's to write. -/
def execEventCounterWrite (c : BitVec 8) (e : BitVec 6) (v : W64) (s : State) : Res :=
  .next (if s.open_ c.toNat && e.toNat != 63 then s.modCl c.toNat fun k => k.setEv e.toNat v.toNat else s)

/-- EV_ADD (R268, R307): adds the value written to e0 to e62. -/
def execEvAdd (c : BitVec 8) (e : BitVec 6) (v : W64) (s : State) : Res :=
  .next (if e.toNat = 63 then s else s.arrive c.toNat e.toNat v.toNat)

/-- TRANS_INV (R284, R312): the cluster rereads its entries; stream requests wait for that. -/
def execTransInv (c : BitVec 8) (s : State) : Res :=
  .next (if s.open_ c.toNat then s.modCl c.toNat fun k => { k with transInv := true } else s)

/-- One entry of a reread (R283): one access of 16 bytes. An entry outside HBM, poisoned, or with a Res bit set is not VALID: it
sets TRANS_BAD and is logged, with the register in INFO0 and the entry in INFO1. -/
def State.rereadEntry (s : State) (c i : Nat) : State :=
  let a := (s.cl c).transBase + 16 * i
  let here := s.isHbm a 16
  let (s, b, p) := if here then s.load a 16 0 else (s, [], false)
  let w := leAt b 0 16
  if !here || p || fld w 63 48 != 0 || fld w 127 125 != 0 then
    (s.modCl c fun k => { k with trans := tabDel k.trans i, transBad := true }).err 1 0xFFFF
      { sev := 0, poison := p, cluster := c, addr := a, i0 := 0x38, i1 := i }
  else s.modCl c fun k => { k with trans := tabPut 0 k.trans i w }

/-- TRANSLATION_REREAD_COMPLETE (R283, R284). -/
def execTranslationRereadComplete (c : BitVec 8) (s : State) : Res :=
  let k := s.cl c.toNat
  .next (if k.transInv && !k.stepStart then
    ((List.range 63).foldl (fun s i => s.rereadEntry c.toNat (i + 1)) s).modCl c.toNat fun k => { k with transInv := false }
  else s)

/-- RT_INV on a cluster (R252, R254): the bits of loaded tables are set, at this place of the issue order where they were not. -/
def Cluster.askReload (k : Cluster) (mask : BitVec 4) : Cluster :=
  let asked := (List.range 4).filter fun n => mask.getLsbD n && !k.rtInv.getLsbD n && k.rtLoaded n
  { k with rtInv := asked.foldl (fun m n => m ||| BitVec.ofNat 4 (2 ^ n)) k.rtInv
           rtInvAt := asked.foldl (fun t n => tabSet t n k.issued) k.rtInvAt }

/-- RT_INV (R254). -/
def execRtInv (c : BitVec 8) (mask : BitVec 4) (s : State) : Res :=
  .next (if s.open_ c.toNat then (s.modCl c.toNat fun k => k.askReload mask).tryReload c.toNat else s)

/-- GRID_INV on a cluster (R252): it clears at once where no active store stream packs G4. -/
def Cluster.askGrids (k : Cluster) : Cluster := { k.staleGrids with gridInv := k.slots.any fun p => p.2.packsG4 }

/-- GRID_INV (R252). -/
def execGridInv (c : BitVec 8) (s : State) : Res :=
  .next (if s.open_ c.toNat then s.modCl c.toNat Cluster.askGrids else s)

end Sys2Proof.Machine
end

