-- ==== Sys2Proof/Machine/OppOps.lean ====
section
/-!
DEFINITION. The operating step: power estimates and the job ceiling (R664 to R667), the target level (R676), the requested and the
effective step (R49, R371, R659, R660), their change at synchronised counts (R578, R580, R630, R656, R707, R708) and the
measurement of a phase (R662).
-/
namespace Sys2Proof.Machine

/-- The frequency of an operating step in units of 50 MHz (R655). -/
def stepFreq (p : Nat) : Nat := [30, 27, 24, 21, 18, 15, 10, 5].getD p 5

/-- K of R664, in units that its quotients do not keep. -/
def stepK (p : Nat) : Nat := stepFreq p * (Config.vf p).toNat * (Config.vf p).toNat

/-- The place of the power-table entry of kind `k` and phase `n` (R686). -/
def pwrKey (k n : Nat) : Nat := 5 * k + n

/-- The power-table entry of kind `k` and phase `n` (R662, R663). -/
def State.pwrEnt (s : State) (k n : Nat) : PwrEnt := tabGet {} s.opp.table (pwrKey k n)

/-- A quotient rounded up. -/
def ceilDiv (a b : Int) : Int := -(-a / b)

/-- The estimate of a phase at step `p` (R664), rounded up to a whole watt. -/
def State.estimate (s : State) (e : PwrEnt) (p : Nat) : Nat :=
  let (num, den) : Int × Int := if p = e.stepMeas then ((e.pMeas : Int), 1) else
    (105 * ((s.opp.pIdle : Int) * stepK e.stepMeas + ((e.pMeas : Int) - s.opp.pIdle) * stepK p), 100 * stepK e.stepMeas)
  (if s.pmb.lost then ceilDiv (103 * num) (100 * den) else ceilDiv num den).toNat

/-- CAP_W (R688). -/
def State.capW (s : State) : Nat := fld s.opp.cfg 10 0
/-- BAND_UP (R688). -/
def State.bandUp (s : State) : Nat := fld s.opp.cfg 25 16
/-- BAND_DN (R688). -/
def State.bandDn (s : State) : Nat := fld s.opp.cfg 35 26

/-- The kind of step `n` (R369). -/
def State.kindOf (s : State) (n : Nat) : Nat :=
  let p := s.job.sched.pattern
  if p.isEmpty then 0 else p.getD ((n - s.job.sched.firstStep) % p.length) 0

/-- The record of a step kind. -/
def State.kindRec (s : State) (k : Nat) : StepKind := s.job.sched.kinds.getD k {}

/-- The phases of a step kind, in order (R40, R369). -/
def State.phasesOf (s : State) (k : Nat) : List Nat := (List.range 5).filter fun n => bitN (s.kindRec k).mask n

/-- PREF of a phase (R367). -/
def State.prefOf (s : State) (k n : Nat) : Nat := (s.kindRec k).pref.getD n 7

/-- The affordable step for a step of kind `k` (R665), with its LIMIT_W. -/
def State.affordable (s : State) (k : Nat) : Nat × Nat :=
  let limit := min s.capW (s.hud.pceil + s.bandUp)
  (((List.range 8).find? fun p => (s.phasesOf k).all fun n =>
    decide (s.estimate (s.pwrEnt k n) (max p (s.prefOf k n)) ≤ limit)).getD 7, limit)

/-- Form the affordable step of the step that a barrier will open, as contributed (R665, R666). -/
def State.formAfford (s : State) (step : Nat) : State :=
  let (a, l) := s.affordable (s.kindOf step)
  { s with opp := { s.opp with afford := a, limitW := l } }

/-- TGT_W for a step of kind `k` (R676): the duration-weighted mean of its estimates with CEIL at P0, at most CAP_W. A mean is an
estimate, so it is rounded up (DEDUCED, log entry 10). -/
def State.target (s : State) (k : Nat) : Nat :=
  let es := (s.phasesOf k).map fun n => (s.pwrEnt k n, s.prefOf k n)
  let big := es.foldl (fun m e => max m e.1.dur) 0
  let wt (d : Nat) : Nat := if d = 0 then (if big = 0 then 1 else big) else d
  let num := (es.map fun e => wt e.1.dur * s.estimate e.1 e.2).sum
  let den := (es.map fun e => wt e.1.dur).sum
  min s.capW ((num + den - 1) / den)

/-- The first synchronised count for a request at tick `t` (R578). -/
def nextSync (t : Nat) : Nat := (t + 1024 + 4095) / 4096 * 4096

/-- The lowest of the requested step and every demand (R49, R660). A released loop keeps its demand through the hysteresis wait
(R671). -/
def State.wantStep (s : State) : Nat :=
  max s.opp.requested (max (max s.opp.alertStep s.opp.capStep) (max s.opp.droopStep (max s.opp.thermStep s.opp.coolStep)))

/-- A protection loop is active (R669). -/
def State.protection (s : State) : Bool :=
  s.opp.alertDem || s.opp.capDem || s.opp.droopDem || s.opp.thermDem || s.opp.coolDem

/-- Change every slot domain that is ON. -/
def State.onDomains (s : State) (f : SlotPwr → SlotPwr) : State :=
  { s with pwr := { s.pwr with slots := s.pwr.slots.map fun p => (p.1, if p.2.mode = .on then f p.2 else p.2) } }

/-- A request of step `p` reaches the slot domains (R630, R707): the idle synthesizer is set, and a raise starts its voltage
transition. -/
def State.prepare (s : State) (p : Nat) : State :=
  s.onDomains fun d =>
    let d := { d with synthAt := s.now }
    if p < d.freq ∧ p < d.volt then { d with volt := p, moving := true } else d

/-- Request the step that the sources now want, for the next synchronised count (R578, R580). A return that goes one step at a time
is requested at its counts (R671). -/
def State.schedule (s : State) : State :=
  let p := s.wantStep
  let last := (s.hud.changes.filterMap fun c => match c.2 with
    | .effective q => some q
    | _ => none).getLast?.getD s.opp.effective
  if p = last ∨ (s.opp.oneStep ∧ p < last) then s
  else (State.prepare { s with hud := { s.hud with changes := s.hud.changes ++ [(nextSync s.tick, .effective p)] } } p)

/-- A slot domain changes frequency at a count (R630, R656, R708), or is deferred: late for its voltage, or for its synthesizer. -/
def SlotPwr.change (now p : Nat) (d : SlotPwr) : SlotPwr × Bool × Bool :=
  if p < d.freq then
    if decide (p < d.volt) || d.moving then ({ d with nextFreq := some p }, true, false)
    else if now < d.synthAt + 700 then ({ d with nextFreq := some p }, false, true)
    else ({ d with freq := p, nextFreq := none }, false, false)
  else ({ d with freq := p, nextFreq := none, volt := p, moving := d.moving || decide (d.volt ≠ p) }, false, false)

/-- Every ON domain changes to step `p`, or those alone that were deferred (R630, R708). -/
def State.changeDomains (s : State) (p : Nat) (deferred : Bool) : State :=
  s.pwr.slots.foldl (fun s e =>
    if e.2.mode ≠ .on ∨ (deferred ∧ e.2.nextFreq.isNone) then s
    else
      let (d, rl, cl) := e.2.change s.now (if deferred then e.2.nextFreq.getD p else p)
      let s := s.setDom e.1 d
      let s := if rl then { s with pwr := { s.pwr with raiseLate := satAdd 0xFFFF s.pwr.raiseLate 1 } } else s
      if cl then { s with clk := { s.clk with changeLate := satAdd 0xFFFF s.clk.changeLate 1 } } else s) s

/-- The effective step becomes `p` (R656). A phase whose effective step leaves the requested one does not meet the condition of
R662; the change that the phase itself asked for begins its measurement (DEDUCED, log entry 11). -/
def State.setEffective (s : State) (p : Nat) : State :=
  let o := s.opp
  let own := decide (p = o.requested) && !s.protection
  State.changeDomains { s with opp := { o with
    effective := p, phaseStep := if own then p else o.phaseStep, phaseClean := o.phaseClean && (own || decide (p = o.effective)) } }
    p false

/-- The requested step of phase `n` of kind `k` (R659, R679): the lowest of PREF, CEIL and the paced step. -/
def State.requestedOf (s : State) (k n : Nat) : Nat × Option Nat :=
  let e := s.pwrEnt k n
  let s0 := max (s.prefOf k n) s.opp.ceil
  if bitN (fld s.opp.cfg 52 48) n && !e.deflt then
    let fits (p : Nat) : Bool := decide (s0 ≤ p) && decide (e.busy * stepFreq e.stepMeas * 100 ≤ fld s.opp.cfg 62 56 * 1000 * stepFreq p)
    match (List.range 8).reverse.find? fits with
    | some p => (p, if s0 < p then some p else none)
    | none => (s0, none)
  else (s0, none)

/-- The requested step changes (R371, R659). -/
def State.request (s : State) (p : Nat) (paced : Option Nat) : State :=
  State.schedule { s with opp := { s.opp with requested := p, paced := paced.isSome } }

/-- While no job runs the requested step is P7 (R659). -/
def State.requestIdle (s : State) : State := s.request 7 none

/-- A phase begins to be measured (R662). -/
def State.measureFrom (s : State) : State :=
  { s with opp := { s.opp with
      phaseSum := 0, phaseN := 0, phaseStep := s.opp.effective, phaseClean := !s.protection, phaseFrom := s.tick, phaseBusy := 0
      phaseCyc := 0 } }

/-- A phase ends: its entry, where the effective step was constant and no loop was active (R662). -/
def State.measureEnd (s : State) (k n : Nat) : State :=
  let o := s.opp
  if o.phaseClean && !s.protection then
    let e : PwrEnt :=
      { pMeas := if o.phaseN = 0 then s.pwr.pkgW else o.phaseSum / o.phaseN, stepMeas := o.phaseStep, deflt := false
        busy := o.phaseBusy * 1000 / o.phaseCyc, dur := min 0xFFFFFFFF ((s.tick - o.phaseFrom) / 1000) }
    { s with opp := { o with table := tabSet o.table (pwrKey k n) e } }
  else s

/-- A loop becomes active with a demand, or deepens it (R669); a demand during a hysteresis wait restarts it (R671). -/
def State.demand (s : State) (f : OppSt → OppSt) : State :=
  let o := f s.opp
  State.schedule { s with opp := { o with phaseClean := false, hystAt := if o.hyst then s.tick else o.hystAt } }

/-- A loop is released: the hysteresis wait begins (R671). -/
def State.releaseLoop (s : State) (f : OppSt → OppSt) : State :=
  { s with opp := { f s.opp with hyst := true, hystAt := s.tick } }

end Sys2Proof.Machine
end

