-- ==== Sys2Proof/Machine/Digest.lean ====
section
/-!
DEFINITION. Digests (R389, R423), the images of shards and the bits of them that are padding (R105, R396).
-/
namespace Sys2Proof.Machine

/-- One byte into the CRC-64/XZ register: the ECMA-182 polynomial, reflected (R389). -/
def crcByte (c : W64) (b : Byte) : W64 :=
  (List.range 8).foldl (fun c _ => if c.getLsbD 0 then (c >>> 1) ^^^ 0xC96C5795D7870F42#64 else c >>> 1) (c ^^^ b.zeroExtend 64)

/-- CRC-64/XZ (R389). -/
def crc64 (bs : List Byte) : W64 := ~~~(bs.foldl crcByte (~~~0#64))

/-- The unit vector of bytes: the CRC of each unit of 288 with its number (R389). -/
def unitVector (bs : List Byte) : List W64 :=
  (List.range ((bs.length + 287) / 288)).map fun k => crc64 (leBytes 8 k ++ (bs.drop (288 * k)).take 288)

/-- The digest of bytes under a header term (R389, R423). -/
def digestOf (hdr : List Byte) (bs : List Byte) : Nat := ((unitVector bs).foldl (· ^^^ ·) (crc64 hdr)).toNat

/-- The digest of a published image (R389). -/
def imageDigest (shard version : Nat) (img : List Byte) : Nat :=
  digestOf (leBytes 4 shard ++ leBytes 4 img.length ++ leBytes 8 version) img

/-- The digest of a range of a region (R423). -/
def rangeDigest (shard region offset : Nat) (bs : List Byte) : Nat :=
  digestOf (leBytes 4 shard ++ leBytes 1 region ++ leBytes 8 offset ++ leBytes 4 bs.length) bs

/-! ### The tensors of a shard -/

/-- The tensor descriptors of a shard entry with their wide-channel lists (R379, R380). -/
def State.shardTensors (s : State) (e : Shard) : List (TensorDesc × List Nat) :=
  (List.range e.descCount).filterMap fun i =>
    (tensorOf (s.bytes (e.desc + 64 * i) 64)).map fun t =>
      (t, (List.range t.wideCount).map fun w => leAt (s.bytes (t.wideList + 4 * w) 4) 0 4)

/-- The elements of a shard's tensors: ROWS × COLS of each (R381). -/
def elements (ts : List (TensorDesc × List Nat)) : Nat := (ts.map fun t => t.1.rows * t.1.cols).sum

/-- The bits of byte `o` of pod `k` that are padding (R105). -/
def podMask (t : TensorDesc) (wide : List Nat) (k : Nat) (pod : List Byte) (o : Nat) : Nat :=
  let blocks := t.fmt.podElems / 32
  if o < blocks then 0
  else if o < 32 then
    if t.fmt ≠ .g4 then 255
    else
      let cnt := fld (leAt pod 0x10 16) 2 0
      if cnt ≤ 5 then ((List.range 8).filter fun b => decide (3 + 25 * cnt ≤ 8 * (o - 16) + b)).foldl (fun m b => m + 2 ^ b) 0 else 0
  else
    let (r0, c0) := t.podOrigin k
    let pad (p : Nat) : Bool :=
      t.isPad (r0 + p / 128) (c0 + p % 128) || (t.wideOf wide (r0 + p / 128) (c0 + p % 128)).isSome || podExp pod (p / 32) == 255
    if t.fmt.narrow4 then (if pad (2 * (o - 32)) then 15 else 0) + (if pad (2 * (o - 32) + 1) then 240 else 0)
    else if pad (o - 32) then 255 else 0

/-- The bits of byte `o` of a side-list segment that are padding (R105, R111). -/
def segMask (seg : List Byte) (o : Nat) : Nat :=
  if o < 6 then 0 else if o < 8 then 255
  else if 8 + 4 * leAt seg 4 2 ≤ o then 255
  else if (o - 8) % 4 = 1 then 254 else 0

/-- The bits of the byte at `a` that are inert under one tensor, as the owner's bytes give its pods (R105, R396); none where the
tensor does not describe the byte. -/
def tensorMask (img : Nat → Nat → List Byte) (t : TensorDesc) (wide : List Nat) (a : Nat) : Option Nat :=
  let pods := t.groups * t.panels
  let rowLen := if t.wideAxis then t.rows else t.cols
  let rowBytes := 128 * ((rowLen + 63) / 64)
  if t.podBase ≤ a ∧ a < t.podBase + 288 * pods then
    let k := (a - t.podBase) / 288
    some (podMask t wide k (img (t.podBase + 288 * k) 288) ((a - t.podBase) % 288))
  else if t.fmt = .g4 ∧ t.sideBase ≤ a ∧ a < t.sideBase + 32 * t.sideSectors then
    (List.range pods).findSome? fun k =>
      (podSideIndex t.fmt (img (t.podBase + 288 * k) 288)).bind fun j =>
        let at_ := t.sideBase + 32 * j
        let seg := img at_ 32
        if at_ ≤ a ∧ a < at_ + 32 * segSectors (leAt seg 4 2) then some (segMask seg (a - at_)) else none
  else if t.wideCount ≠ 0 ∧ t.wideBase ≤ a ∧ a < t.wideBase + rowBytes * t.wideCount then
    some (if 2 * rowLen ≤ (a - t.wideBase) % rowBytes then 255 else 0)
  else if t.fmt = .g4 ∧ t.gridAddr ≤ a ∧ a < t.gridAddr + 16 then some (if a = t.gridAddr + 15 then 255 else 0)
  else none

/-- The inert bits of the byte at `a` of a shard's image (R396): padding, and the reserved bytes of descriptors and grid records.
`img` reads the owner's image as it lies at this device's addresses. -/
def State.inertMask (s : State) (e : Shard) (img : Nat → Nat → List Byte) (a : Nat) : Nat :=
  if e.desc ≤ a ∧ a < e.desc + 64 * e.descCount then
    (if [3, 12, 13, 14, 15, 44, 45, 46, 47].contains ((a - e.desc) % 64) then 255 else 0)
  else ((s.shardTensors e).findSome? fun t => tensorMask img t.1 t.2 a).getD 0

/-- Two copies of bytes that begin at `a` differ, and whether in a value bit (R396): none where they agree. -/
def diffClass (mask : Nat → Nat) (a : Nat) (x y : List Byte) : Option Bool :=
  let ds := (List.range (max x.length y.length)).filterMap fun i =>
    let d := (x.getD i 0#8 ^^^ y.getD i 0#8).toNat
    if d = 0 then none else some (decide (d &&& (255 - mask (a + i)) ≠ 0))
  if ds.isEmpty then none else some (ds.any id)

/-- Read an image that lies at `base` from a copy held as bytes. -/
def imageRead (base : Nat) (img : List Byte) (a n : Nat) : List Byte := slice img (a - base) n

/-! ### Publication -/

/-- Publish a shard (R387 to R390): digest over its image, then the record as one write of 32 bytes. A poisoned image is a device
fault (R485) and no record is written. -/
def State.publish (s : State) (e : Shard) (version : Nat) : State :=
  let (s, img, bad) := s.load e.image e.bytes 3
  if bad then s.devFault 2 3 { poison := true, addr := e.image, i0 := 5 }
  else
    s.store (s.job.pubBase + 32 * e.slot)
      (leBytes 4 e.id ++ leBytes 4 e.bytes ++ leBytes 8 version ++ leBytes 8 (imageDigest e.id version img) ++
        leBytes 8 (e.image + 2 ^ 48)) false 3

/-- The shards that this device owns (R379). -/
def State.owned (s : State) : List Shard := s.job.shards.filter fun e => decide (e.owner = s.job.rank)

/-- Publish every owned shard (R390, R435). -/
def State.publishAll (s : State) (version : Nat) : State := s.owned.foldl (fun s e => s.publish e version) s

end Sys2Proof.Machine
end

