-- ==== Sys2Proof/Machine/TwinOps.lean ====
section
/-!
DEFINITION. The state-stream engine (spec/10_state_stream.md): regions and backup space, generations of the delta log, records and
their payloads, sending to the twin and to the snapshot endpoint, commit and rollback.
-/
namespace Sys2Proof.Machine

/-! ### Regions -/

/-- A length padded to a multiple of 32 (R415). -/
def pad32 (n : Nat) : Nat := (n + 31) / 32 * 32

/-- Bytes of a moment held as S8 pods in the shape of the shard's descriptors (R381). -/
def momentPods (ts : List (TensorDesc × List Nat)) : Nat :=
  (ts.map fun t => let d := { t.1 with fmt := Fmt.s8 }; 288 * d.groups * d.panels).sum

/-- The bytes of a pending slot with its header (R381, R400). -/
def pendingSlot (n : Nat) : Nat := 32 + 2 * n

/-- The regions of one owned shard, in the order of R415, without their backup offsets. -/
def State.shardRegions (s : State) (e : Shard) : List Region :=
  let ts := s.shardTensors e
  let n := elements ts
  let reg (k a len : Nat) : Region := { shard := e.id, kind := k, addr := a, bytes := pad32 len, boff := 0 }
  [reg 0 e.image e.bytes, reg 1 e.master (2 * n)] ++
    (if e.opt ≠ 0xFF ∨ e.moment ≠ 0 then [reg 2 e.moment (if e.momS8 then momentPods ts else 2 * n)] else []) ++
    (if e.factored then [reg 3 e.factor ((ts.map fun t => 4 * (t.1.rows + t.1.cols)).sum)] else []) ++
    (if e.slow then [reg 4 e.pend (e.delay * pendingSlot n)] else [])

/-- Regions laid out one after another in the backup space (R415). -/
def layRegions : Nat → List Region → List Region
  | _, [] => []
  | o, r :: t => { r with boff := o } :: layRegions (o + r.bytes) t

/-- The backup space of a job's owned shards (R415). -/
def State.ownedRegions (s : State) : List Region := layRegions 0 (s.owned.flatMap s.shardRegions)

/-- OWNED_BYTES (R415). -/
def State.ownedBytes (s : State) : Nat := (s.ss.regions.map (·.bytes)).sum

/-- A generation (R417). -/
def State.gen (s : State) (g : Nat) : Gen := if g = 0 then s.ss.gen0 else s.ss.gen1

/-- Put a generation. -/
def State.setGen (s : State) (g : Nat) (x : Gen) : State :=
  if g = 0 then { s with ss := { s.ss with gen0 := x } } else { s with ss := { s.ss with gen1 := x } }

/-- Where generation `g` begins (R417). -/
def State.genBaseAddr (s : State) (g : Nat) : Nat := s.ss.logBase + g * s.ownedBytes

/-- Class STATE of the state stream (R418, R424). -/
def stateCls : Nat := 2

/-- Copy bytes, poison with them (R483), in pieces of one sector. -/
def State.copyRun (s : State) (dst src : Nat) : Nat → State
  | 0 => s
  | n + 1 =>
    let s := s.copyRun dst src n
    let a := src + 32 * n
    let p := s.poisoned a 32
    (s.touch a 32 false stateCls).store (dst + 32 * n) (s.bytes a 32) p stateCls

/-- Exclusive or of two lists of bytes. -/
def xorBytes (a b : List Byte) : List Byte := List.zipWith (· ^^^ ·) a b

/-- XOR the bytes at `src` into those at `dst`, in pieces of one sector; poison of either stays. -/
def State.xorRun (s : State) (dst src : Nat) : Nat → State
  | 0 => s
  | n + 1 =>
    let s := s.xorRun dst src n
    let a := src + 32 * n
    let d := dst + 32 * n
    let p := s.poisoned a 32 || s.poisoned d 32
    ((s.touch a 32 false stateCls).touch d 32 false stateCls).store d (xorBytes (s.bytes a 32) (s.bytes d 32)) p stateCls

/-- The copy of every owned region into generation `g` (R418). -/
def State.copyImage (s : State) (g : Nat) : State :=
  s.ss.regions.foldl (fun s r => s.copyRun (s.genBaseAddr g + r.boff) r.addr (r.bytes / 32)) s

/-- XOR every live region into generation `g` (R419). -/
def State.xorGen (s : State) (g : Nat) : State :=
  s.ss.regions.foldl (fun s r => s.xorRun (s.genBaseAddr g + r.boff) r.addr (r.bytes / 32)) s

/-- XOR generation `g` into the live regions (R435). -/
def State.xorLive (s : State) (g : Nat) : State :=
  s.ss.regions.foldl (fun s r => s.xorRun r.addr (s.genBaseAddr g + r.boff) (r.bytes / 32)) s

/-- Copy generation `g` over the live regions (R435). -/
def State.copyBack (s : State) (g : Nat) : State :=
  s.ss.regions.foldl (fun s r => s.copyRun r.addr (s.genBaseAddr g + r.boff) (r.bytes / 32)) s

/-! ### Records -/

/-- The sectors of a range, each with whether it is non-zero (R421). -/
def sectorsOf (bs : List Byte) : List (List Byte × Bool) :=
  (List.range (bs.length / 32)).map fun k => let x := slice bs (32 * k) 32; (x, x.any (· != 0#8))

/-- The bytes of a sector map (R421). -/
def mapLen (sectors : Nat) : Nat := pad32 ((sectors + 7) / 8)

/-- The payload of a DELTA or FULL record (R421): the map, then the non-zero sectors. -/
def encodeSectors (bs : List Byte) : List Byte :=
  let ss := sectorsOf bs
  let bit (k : Nat) : Nat := b2n ((ss.getD k ([], false)).2)
  ((List.range (mapLen ss.length)).map fun i =>
    BitVec.ofNat 8 ((List.range 8).map fun b => bit (8 * i + b) * 2 ^ b).sum) ++
    (ss.filter (·.2)).flatMap (·.1)

/-- The sectors that the flags of a map name, in order. -/
def fillSectors : List Bool → List Byte → List Byte
  | [], _ => []
  | true :: t, bs => slice bs 0 32 ++ fillSectors t (bs.drop 32)
  | false :: t, bs => List.replicate 32 0#8 ++ fillSectors t bs

/-- The range that a payload of `n` bytes covered spells (R421). -/
def decodeSectors (n : Nat) (payload : List Byte) : List Byte :=
  let k := n / 32
  fillSectors ((List.range k).map fun i => bitN ((payload.getD (i / 8) 0#8).toNat) (i % 8)) (payload.drop (mapLen k))

/-- The ranges of a region (R422): offset and length. -/
def rangesOf (bytes : Nat) : List (Nat × Nat) :=
  (List.range ((bytes + 1048575) / 1048576)).map fun i => (1048576 * i, min 1048576 (bytes - 1048576 * i))

/-- The bytes of a record on the wire (R420). -/
def Record.bytes (r : Record) : List Byte :=
  leBytes 1 r.type ++ leBytes 1 r.region ++ leBytes 2 0 ++ leBytes 4 r.shard ++ leBytes 8 r.step ++ leBytes 8 r.seq ++
    leBytes 4 r.origin ++ leBytes 4 r.length ++ leBytes 8 r.offset ++ leBytes 8 r.boff ++ leBytes 8 r.oldDig ++ leBytes 8 r.newDig ++
    r.payload

/-- The length of a record with its payload and difference. -/
def Record.size (r : Record) : Nat := 64 + r.payload.length + r.diff.length

/-- The types of records (R420). -/
def recDelta : Nat := 1
/-- A FULL record. -/
def recFull : Nat := 2
/-- An END record. -/
def recEnd : Nat := 3
/-- A COMMIT record. -/
def recCommit : Nat := 4
/-- A ROLLBACK record. -/
def recRollback : Nat := 5
/-- The model's own types for what a twin answers: STEP_ACK, NAK NEW and NAK OLD (R426, R427; log entry 12). -/
def recAck : Nat := 0x10
/-- NAK NEW. -/
def recNakNew : Nat := 0x11
/-- NAK OLD. -/
def recNakOld : Nat := 0x12

/-- The twin is not there (R413): not bound, or lost. -/
def State.twinGone (s : State) : Bool := s.ss.twin == 0 || s.ss.twin == 3

/-- Send a record or an answer to a device. -/
def State.sendRecord (s : State) (dev : DevId) (r : Record) : State :=
  { s with ss := { s.ss with msgs := s.ss.msgs ++ [(dev, r)] } }

/-- The copy of a record for the snapshot endpoint (R446, R539). -/
def State.exportRecord (s : State) (r : Record) : State :=
  if !s.ss.exportOn then s
  else
    let b := r.bytes
    let a := (s.ss.exportBase + s.ss.exported) % 2 ^ 48
    State.sendOp { s with ss := { s.ss with exported := s.ss.exported + b.length } } false s.ss.exportDest .stream 0
      (writePkts 1 a s.ss.exportTag 0 false b)

/-- A COMMIT or ROLLBACK record takes the next SEQ and goes to the twin and the endpoint (R433, R435). -/
def State.announceStep (s : State) (type step : Nat) : State :=
  let r : Record := { type := type, step := step, seq := s.ss.seq, origin := s.me }
  let s : State := { s with ss := { s.ss with seq := s.ss.seq + 1 } }
  (if s.twinGone then s else s.sendRecord s.ss.twinDev r).exportRecord r

/-- The step below which every record of every update step is acknowledged (R427). -/
def StreamSt.outstanding (x : StreamSt) : List Record := x.formed ++ x.unsent ++ x.sent

/-- Recompute ACKED_STEP where nothing is outstanding (R427). -/
def State.ackIdle (s : State) : State :=
  if s.ss.outstanding.isEmpty then { s with ss := { s.ss with acked := max s.ss.acked s.ss.ended } } else s

/-- The records of the oldest step that waits may go once no earlier step is outstanding (R425). -/
def State.releaseFormed (s : State) : State :=
  match s.ss.formed with
  | [] => s
  | r :: _ =>
    if !(s.ss.unsent.isEmpty && s.ss.sent.isEmpty) then s
    else
      let p := fun (x : Record) => decide (x.step = r.step)
      { s with ss := { s.ss with unsent := s.ss.formed.filter p, formed := s.ss.formed.filter fun x => !p x } }

/-- Send the next record to the twin (R424, R425): END goes last. -/
def State.sendNext (s : State) : State :=
  if s.twinGone || s.ss.stopped then s
  else match s.ss.unsent with
    | [] => s
    | r :: t =>
      if s.ss.credit < r.size then s
      else
        let s : State := { s with ss := { s.ss with unsent := t, sent := s.ss.sent ++ [r], credit := s.ss.credit - r.size } }
        let s := (s.sendRecord s.ss.twinDev r).exportRecord r
        if s.ss.twin = 2 ∧ s.ss.unsent.isEmpty then
          { s with ss := { s.ss with twin := 1, restoring := false, sent := s.ss.sent.filter fun x => decide (x.type ≠ recFull) } }.releaseFormed
        else s

/-- The DELTA records of one region, as generation `g` and the live bytes give them (R419, R422, R423). -/
def State.deltaRecords (s : State) (g step : Nat) (r : Region) : List Record :=
  (rangesOf r.bytes).filterMap fun (off, len) =>
    let d := s.bytes (s.genBaseAddr g + r.boff + off) len
    if d.all (· == 0#8) then none
    else
      let new := s.bytes (r.addr + off) len
      some { type := recDelta, region := r.kind, shard := r.shard, step := step, origin := s.me, length := len, offset := off
             boff := r.boff + off, oldDig := rangeDigest r.shard r.kind off (xorBytes new d)
             newDig := rangeDigest r.shard r.kind off new, payload := encodeSectors d }

/-- Number records from a SEQ on. -/
def numberFrom : Nat → List Record → List Record
  | _, [] => []
  | n, r :: t => { r with seq := n } :: numberFrom (n + 1) t

/-- The records of a step in their order, and END (R420, R422). -/
def State.closeRecords (s : State) (step : Nat) (rs : List Record) : State × List Record :=
  let n := s.ss.seq
  let all := numberFrom n rs ++ [{ type := recEnd, step := step, seq := n + rs.length, origin := s.me, length := rs.length, offset := n }]
  ({ s with ss := { s.ss with seq := n + rs.length + 1 } }, all)

/-- Poison in a run of bytes that records are made from is a device fault (R485). -/
def State.recordPoison (s : State) : State :=
  match s.ss.regions.find? fun r => s.poisoned r.addr r.bytes with
  | some r => s.devFault 2 3 { poison := true, addr := r.addr, i0 := 5 }
  | none => s

/-- UPDATE of update step `u` ends (R419): the generation becomes DELTA and the step's records are formed. Without a twin, under
CONTINUE, the step counts as acknowledged (R413); the endpoint then takes the records as they are formed (log entry 13). -/
def State.formDelta (s : State) : State :=
  let g := s.step.u % 2
  let x := s.gen g
  if x.state ≠ .pre then s
  else
    let s := ((s.xorGen g).setGen g { x with state := .delta }).recordPoison
    let (s, rs) := s.closeRecords s.step.number (s.ss.regions.flatMap (s.deltaRecords g s.step.number))
    if s.twinGone && decide (s.ss.twinless = 1) then
      rs.foldl State.exportRecord { s with ss := { s.ss with acked := s.step.number, twinlessRun := true } }
    else State.releaseFormed { s with ss := { s.ss with formed := s.ss.formed ++ rs } }

/-- FULL records of the whole owned state (R441, R446, R783). -/
def State.fullRecords (s : State) (step : Nat) : List Record :=
  s.ss.regions.flatMap fun r => (rangesOf r.bytes).map fun (off, len) =>
    let new := s.bytes (r.addr + off) len
    { type := recFull, region := r.kind, shard := r.shard, step := step, origin := s.me, length := len, offset := off
      boff := r.boff + off, newDig := rangeDigest r.shard r.kind off new, payload := encodeSectors new }

/-- The bytes of a range after step `n`: the live bytes without what later generations changed. -/
def State.rangeAfter (s : State) (r : Region) (off len n : Nat) : List Byte :=
  let later := [0, 1].filter fun g => decide (n < (s.gen g).step)
  match later.find? fun g => decide ((s.gen g).state = .pre) && (s.gen g).copied with
  | some g => s.bytes (s.genBaseAddr g + r.boff + off) len
  | none => (later.filter fun g => decide ((s.gen g).state = .delta)).foldl
      (fun b g => xorBytes b (s.bytes (s.genBaseAddr g + r.boff + off) len)) (s.bytes (r.addr + off) len)

/-- The FULL record that replaces a DELTA (R428, R429): the range's bytes after the step and the origin's difference. -/
def State.fullFor (s : State) (d : Record) : Record :=
  match s.ss.regions.find? fun r => decide (r.shard = d.shard ∧ r.kind = d.region) with
  | some r =>
    let new := s.rangeAfter r d.offset d.length d.step
    { d with type := recFull, oldDig := 0, newDig := rangeDigest d.shard d.region d.offset new, payload := encodeSectors new
             diff := d.payload }
  | none => { d with type := recFull, oldDig := 0, diff := d.payload }

/-- Resend a record that the twin refused (R428): at the head of what is to be sent. -/
def State.resend (s : State) (seq : Nat) (f : Record → Record) : State :=
  match s.ss.sent.find? fun r => decide (r.seq = seq) with
  | none => s
  | some r =>
    { s with ss := { s.ss with
        sent := s.ss.sent.filter fun x => decide (x.seq ≠ seq), unsent := f r :: s.ss.unsent } }

/-! ### Commit and rollback -/

/-- Return the generations of committed update steps to FREE (R433). -/
def Gen.commit (x : Gen) (step : Nat) : Gen := if x.state = .delta ∧ x.step ≤ step then {} else x

/-- COMMITTED_STEP becomes `c` (R432 to R434). -/
def State.commit (s : State) (c : Nat) : State :=
  if c ≤ s.ss.committed then s
  else
    let kept := (s.step.watchPast.find? fun p => decide (p.1 ≤ c)).map (·.2)
    let s : State := { s with
      ss := { s.ss with committed := c, gen0 := s.ss.gen0.commit c, gen1 := s.ss.gen1.commit c }
      watchKept := kept.getD s.watchKept }
    s.announceStep recCommit c

/-- The version that step `n` expects (R391). -/
def State.expectOf (s : State) (n : Nat) : Nat :=
  (s.step.updated.find? fun u => decide (u < n)).getD (s.job.sched.firstStep - 1)

/-- Undo one generation above step `c` (R435). -/
def State.undoGen (s : State) (g c : Nat) : State :=
  let x := s.gen g
  if x.state = .free ∨ x.step ≤ c then s
  else
    let ran := x.state = .delta ∨ s.step.updateBegun ∧ x.step = s.step.number
    let s := if x.state = .delta then s.xorLive g
      else if s.step.updateBegun && decide (x.step = s.step.number) && x.copied then s.copyBack g else s
    let s : State := if ran then { s with step := { s.step with u := s.step.u - 1 } } else s
    s.setGen g {}

/-- Restore the watch from its committed copy (R407, R435). -/
def State.restoreWatch (s : State) : State :=
  { s with watch := s.watch.map fun p => (p.1, { p.2 with keep := tabGet {} s.watchKept p.1, posted := false, notFinite := false
                                                          sum := 0, observed := false }) }

/-- Roll back to step `c` (R435): generations newest first, republication, watch, u, and the ROLLBACK record. -/
def State.rollback (s : State) (c : Nat) : State :=
  let order := if s.ss.gen0.step < s.ss.gen1.step then [1, 0] else [0, 1]
  let s := order.foldl (fun s g => s.undoGen g c) s
  let drop := fun (l : List Record) => l.filter fun r => decide (r.step ≤ c)
  let s : State := { s with
    step := { s.step with updated := s.step.updated.filter fun n => decide (n ≤ c)
                          watchPast := s.step.watchPast.filter fun p => decide (p.1 ≤ c), updateBegun := false }
    ss := { s.ss with formed := drop s.ss.formed, unsent := drop s.ss.unsent, sent := drop s.ss.sent, ended := min s.ss.ended c
                      acked := if s.twinGone then min s.ss.acked c else s.ss.acked } }
  ((s.publishAll (s.expectOf (c + 1))).restoreWatch).announceStep recRollback c

end Sys2Proof.Machine
end

