-- ==== Sys2Proof/Machine/StepOps.lean ====
section
/-!
DEFINITION. What a training step does on one device (spec/09_training_step.md): the norm watch (R402 to R407), phases (R371), the job
verdict (R406), the opening of a step (R373) and its consequences for power (R659, R676, R677) and for the state stream (R418,
R432).
-/
namespace Sys2Proof.Machine

/-! ### The norm watch -/

/-- An exact value rounded to F32. -/
def toF32 (x : FVal) : Nat := (encF32 .rne x).1

/-- √x of a value that is not negative, rounded to F32 (R404). -/
def sqrtF32 (x : FVal) : Nat :=
  match x with
  | .fin m e =>
    if m ≤ 0 then 0
    else
      let (a, f) : Nat × Int := if e % 2 = 0 then (m.natAbs, e / 2) else (2 * m.natAbs, (e - 1) / 2)
      let n := a * 2 ^ 64
      let r := isqrt (Nat.log2 n / 2 + 1) n
      toF32 (.fin (2 * r + b2n (decide (r * r ≠ n)) : Nat) (f - 33))
  | _ => 0x7FC00000

/-- a / b of finite values, b not zero, rounded to F32 (R406). -/
def divF32 (a b : FVal) : Nat :=
  match a, b with
  | .fin m e, .fin n f =>
    if n = 0 then 0x7FC00000
    else
      let k := Nat.log2 n.natAbs + 40
      let num := m.natAbs * 2 ^ k
      let q := num / n.natAbs
      let y : Int := (2 * q + b2n (decide (q * n.natAbs ≠ num)) : Nat)
      toF32 (.fin (if (m < 0) = (n < 0) then y else -y) (e - f - k - 1))
  | _, _ => 0x7FC00000

/-- 1.0 in F32. -/
def f32One : Nat := 0x3F800000

/-- α of an input: 2 ^ -ALPHA_SHIFT (R402). -/
def WatchInput.alphaV (x : WatchInput) : FVal := .fin 1 (-(x.alpha : Int))

/-- EMA = FMA(α, RNE(v − EMA), EMA) (R404). -/
def WatchInput.ema (x : WatchInput) (v : Nat) : Nat :=
  let e := decF32 x.keep.ema
  let d := decF32 (toF32 ((decF32 v).add e.neg).1)
  toF32 ((x.alphaV.fma d e).1)

/-- An input's observation as its window closes (R403, R404): the watched value, BAD, and whether it trips. -/
def WatchInput.close (x : WatchInput) : WatchInput :=
  if x.mode = 0 ∨ !x.posted then { x with posted := false, notFinite := false, sum := 0, observed := false, nanV := false }
  else
    let o := toF32 (.fin x.sum (-149))
    let inf := match decF32 o with
      | .fin _ _ => false
      | _ => true
    let bad := x.notFinite || inf || (x.mode == 1 && decide (x.sum < 0))
    let v := if bad then 0x7FC00000 else if x.mode = 1 then sqrtF32 (decF32 o) else o
    let l := toF32 (((decF32 x.thresh).mul (decF32 x.keep.ema)).1)
    let trips := x.keep.state = .armed ∧
      (bad ∨ (decF32 l).cmp (decF32 v) = some .lt ∧ (decF32 x.floor).cmp (decF32 v) ≠ some .gt)
    { x with posted := false, notFinite := false, sum := 0, observed := true, nanV := bad, bad := x.bad || bad, v := v, limit := l
             keep := { x.keep with obs := v, state := if trips then .tripped else x.keep.state } }

/-- The device's verdict (R405): the largest POLICY of its tripped inputs; CLAMP on a NaN counts as SKIP_STEP. -/
def State.deviceVerdict (s : State) : Nat :=
  s.watch.foldl (fun m p =>
    if p.2.keep.state = .tripped then max m (if p.2.nanV && decide (p.2.policy = 1) then 2 else p.2.policy) else m) 0

/-- What the job verdict NONE or CLAMP does to an input (R404, R406). -/
def WatchInput.settle (x : WatchInput) : WatchInput :=
  if x.mode = 0 ∨ !x.observed then x
  else match x.keep.state with
    | .learn =>
      if x.nanV then x
      else if x.keep.count = 0 then { x with keep := { x.keep with ema := x.v, count := 1 } }
      else
        let n := x.keep.count + 1
        { x with keep := { x.keep with ema := x.ema x.v, count := n, state := if n = 64 then .armed else .learn } }
    | .armed => { x with keep := { x.keep with ema := x.ema x.v } }
    | .tripped => { x with keep := { x.keep with ema := x.ema x.limit, clamp := divF32 (decF32 x.limit) (decF32 x.v) } }
    | .off => x

/-- An input at the opening of a step (R403, R406): a tripped one is ARMED again, CLAMP is 1.0, the window is empty. -/
def WatchInput.opens (x : WatchInput) : WatchInput :=
  if x.mode = 0 then x
  else { x with posted := false, notFinite := false, sum := 0, observed := false, nanV := false
                keep := { x.keep with clamp := f32One, state := if x.keep.state = .tripped then .armed else x.keep.state } }

/-- Change every watch input. -/
def State.mapWatch (s : State) (f : WatchInput → WatchInput) : State := { s with watch := s.watch.map fun p => (p.1, f p.2) }

/-! ### Phases -/

/-- The kind of the step has UPDATE (R368). -/
def State.hasUpdate (s : State) : Bool := bitN (s.kindRec s.step.kind).mask 3

/-- The phase after `n` in the step's kind (R369, R371). -/
def State.phaseAfter (s : State) (n : Nat) : Option Nat := (s.phasesOf s.step.kind).find? fun m => decide (n < m)

/-- A phase begins (R371): its arrivals start anew, its requested step is asked for, its measurement begins. -/
def State.beginPhase (s : State) (n : Nat) (ask : Bool) : State :=
  let s : State := { s with step := { s.step with phase := n, pref := s.prefOf s.step.kind n, arrived := [], phaseSince := s.now } }
  let (p, paced) := s.requestedOf s.step.kind n
  (if ask then s.request p paced else s).measureFrom

/-- Every logical cluster gets an arrival (R373, R405). -/
def State.arriveAll (s : State) (e : Nat) : State := s.present.foldl (fun s c => s.arrive c e 1) s

/-- Close the observation window and form the device's verdict (R403 to R405). -/
def State.closeWindow (s : State) : State :=
  if s.step.windowOpen then State.mapWatch { s with step := { s.step with windowOpen := false } } WatchInput.close else s

/-- Halt every present cluster (R299, R406, R438). -/
def State.haltAll (s : State) : State := s.present.foldl (fun s c => s.modCl c Cluster.haltAsk) s

/-- The job verdict arrives (R406): NONE and CLAMP let UPDATE run; SKIP_STEP and HALT leave the owned state, the watch and u as they
were. -/
def State.verdictArrives (s : State) (v : Nat) : State :=
  let s : State := { s with step := { s.step with verdict := v, verdictValid := true, posted := false } }
  let s := if v = 0 then s else s.event 1 2 0 (v + 4 * s.step.number)
  let s := if s.job.sched.verdictEn then s.arriveAll s.job.sched.verdictEv else s
  let s : State :=
    if v ≤ 1 then
      State.mapWatch { s with step := { s.step with u := s.step.u + 1, updateBegun := true,
                                                    updated := (s.step.number :: s.step.updated).take 4 } } WatchInput.settle
    else
      let g := (s.step.u + 1) % 2
      if (s.gen g).state = .pre then s.setGen g {} else s
  let s := s.beginPhase 3 true
  if v = 3 then
    State.event { s.haltAll with job := { s.job with state := .halted }, step := { s.step with pausedAt := s.now } } 1 4 0 s.step.number
  else s

/-! ### Steps -/

/-- The watch's kept values (R407). -/
def State.watchKeeps (s : State) : Tab WatchKeep := s.watch.map fun p => (p.1, p.2.keep)

/-- The levels of power at the opening of a step (R676, R677, R682): TGT_W for the next step's kind, the peaks, keep-warm. -/
def State.powerOpens (s : State) (n : Nat) : State :=
  let o := s.opp
  let est := s.opp.tgtW * ((s.phasesOf (s.kindOf n)).map fun p => (s.pwrEnt (s.kindOf n) p).dur).sum
  let none0 := (s.phasesOf (s.kindOf n)).any fun p => (s.pwrEnt (s.kindOf n) p).dur == 0
  { s with
    opp := { o with tgtW := s.target (s.kindOf (n + 1)), peakBefore := o.peakNow, peakNow := 0, kwStep := 0, stepUsed := 0
                    stepEnergy := if none0 then 0 else est
                    defaults := (s.phasesOf (s.kindOf (n + 1))).any fun p => (s.pwrEnt (s.kindOf (n + 1)) p).deflt } }

/-- Step `n` opens (R369, R373, R403, R418, R446): e63 advances on every cluster, its first phase begins. `first` says that it is
the first step or a resume (R795). The first phase's operating step follows at the barrier's EFFECT count (R659). -/
def State.openStep (s : State) (n : Nat) (first : Bool) : State :=
  let kind := s.kindOf n
  let upd := bitN (s.kindRec kind).mask 3
  let s : State := { s with step := { s.step with
    number := n, kind := kind, verdict := 0, verdictValid := false, posted := false, opens := none, starting := false
    expect := s.expectOf n, windowOpen := upd, updateBegun := false } }
  let s := (s.mapWatch WatchInput.opens).arriveAll 63
  let g := (s.step.u + 1) % 2
  let s := if upd then s.setGen g { state := .pre, u := s.step.u + 1, step := n } else s
  let s := match s.step.exportChange with
    | some true =>
      let (s, rs) := s.closeRecords (s.expectOf n) (s.fullRecords (s.expectOf n))
      rs.foldl State.exportRecord { s with ss := { s.ss with exportOn := true, exported := 0, exportLag := false }
                                           step := { s.step with exportChange := none } }
    | some false => { s with ss := { s.ss with exportOn := false }, step := { s.step with exportChange := none } }
    | none => s
  let s := (s.powerOpens n).beginPhase ((s.phasesOf kind).headD 0) false
  if first then s.event 1 1 0 n else s

/-- The share of keep-warm in the energy of the step that ends, in units of 0.01% (R685, R689). -/
def State.powerEnds (s : State) : State :=
  { s with opp := { s.opp with kwLast := min 0xFFFF (s.opp.kwStep * 10000 / s.opp.stepUsed) } }

/-- The last phase of the step has ended (R373, R427): the barrier is entered; its contribution follows. -/
def State.enterBarrier (s : State) : State :=
  let n := s.step.number
  let ends := decide (s.step.endAfter = some n)
  let s := s.powerEnds
  let s : State := { s with
    step := { s.step with phase := 6, posted := false, waitSince := s.now, arrived := [], opens := if ends then none else some (n + 1)
                          watchPast := ((n, s.watchKeeps) :: s.step.watchPast).take 4 }
    ss := { s.ss with ended := n } }
  s.ackIdle

/-- The job ends once every record of the last step is acknowledged (R775). -/
def State.tryEnded (s : State) : State :=
  match s.step.endAfter with
  | some l =>
    if s.job.state = .running ∧ s.step.phase = 7 ∧ l ≤ s.ss.acked then
      State.event { s with job := { s.job with state := .ended }, step := { s.step with endAfter := none } } 1 7 0 l
    else s
  | none => s

/-- A step's first phase is prepared for the EFFECT count at which it begins under ceiling `p` (R578, R630, R659). -/
def State.prepareOpening (s : State) (p : Nat) : State :=
  let (q, _) := State.requestedOf { s with opp := { s.opp with ceil := p } } s.step.kind s.step.phase
  s.prepare (State.wantStep { s with opp := { s.opp with requested := q } })

/-- The closing barrier of the job's last step completes (R374, R775): it opens no step. -/
def State.lastClosing (s : State) (acked : Nat) : State :=
  let s := s.commit acked
  (State.requestIdle { s with step := { s.step with phase := 7, posted := false, opens := none } }).tryEnded

/-- What a SYS operation's result does on a member (R373, R374, R405, R432, R666): `effect` is its EFFECT count. -/
def State.sysResult (s : State) (kind : SysKind) (vals : List Nat) (effect : Nat) : State :=
  let ceil (s : State) (m : Nat) : State :=
    let late := decide (effect < s.tick)
    { s with hud := { s.hud with
        changes := s.hud.changes ++ [(if late then nextSync s.tick else effect, .ceil (7 - m % 8))], syncLate := s.hud.syncLate || late } }
  match kind with
  | .verdict => if s.step.phase = 5 then s.verdictArrives (vals.getD 0 0 % 4) else s
  | .jobStart =>
    match s.step.opens with
    | some n => ((ceil s (vals.getD 0 7)).openStep n true).prepareOpening (7 - vals.getD 0 7 % 8)
    | none => s
  | .stepBarrier =>
    match s.step.opens with
    | some n =>
      if s.step.endAfter.any fun l => decide (l < n) then s.lastClosing (vals.getD 0 0)
      else ((ceil (s.commit (vals.getD 0 0)) (vals.getD 1 7)).openStep n false).prepareOpening (7 - vals.getD 1 7 % 8)
    | none => s
  | .closing => s.lastClosing (vals.getD 0 0)

end Sys2Proof.Machine
end

