-- ==== Sys2Proof/Machine/Huddle.lean ====
section
/-!
DEFINITION. Huddle (spec/13_huddle_and_relay.md R556 to R570): the job tree, operations, frames, program posts and the job stop, with
the barriers that a step enters (R373, R425).
-/
namespace Sys2Proof.Machine

/-! ### Packets in Ethernet bodies -/

/-- The bytes of an Ilric packet (R512). -/
def Packet.bytes (p : Packet) : List Byte :=
  leBytes 1 1 ++ leBytes 1 p.op ++ leBytes 1 p.flags ++ leBytes 1 (p.cls + 16 * p.part) ++ leBytes 4 p.src ++ leBytes 2 p.epoch ++
    leBytes 2 p.payload.length ++ leBytes 4 p.psn ++ leBytes 8 p.addr ++ leBytes 4 p.txTime ++ leBytes 2 p.job ++ leBytes 2 p.aux ++
    p.payload

/-- The packet that a frame's body spells (R512); reserved bits are not looked at (R15). None where VERSION is not 1 or LENGTH does
not fit. -/
def packetOf (b : List Byte) : Option Packet :=
  let n := leAt b 0xA 2 % 8192
  if leAt b 0 1 % 16 ≠ 1 ∨ b.length < 32 + n ∨ 4096 < n then none
  else some
    { op := leAt b 1 1, flags := leAt b 2 1 % 8, cls := leAt b 3 1 % 4, part := leAt b 3 1 / 16, src := leAt b 4 4 % 2 ^ 18
      epoch := leAt b 8 2, psn := leAt b 0xC 4, addr := leAt b 0x10 8, txTime := leAt b 0x18 4, job := leAt b 0x1C 2
      aux := leAt b 0x1E 2, payload := slice b 32 n }

/-- The state after lane `lane`'s receive queue hands over packet `p`; none where it holds none such. -/
def State.takeRx (s : State) (lane : Nat) (p : Packet) : Option State :=
  let here := fun (e : Nat × List Byte) => decide (e.1 = lane ∧ packetOf e.2 = some p)
  if s.fab.rx.any here then some { s with fab := { s.fab with rx := s.fab.rx.eraseP here } } else none

/-- The first copy of a frame acts (R559): a frame whose other copy has acted is discarded. -/
def State.firstCopy (s : State) (key seq copy : Nat) : Option State :=
  if s.hud.seen.contains (key, seq, 1 - copy) then none
  else some { s with hud := { s.hud with seen := ((key, seq, copy) :: s.hud.seen).take 4096 } }

/-- The second copy is dropped, and with it what was kept of the first. -/
def State.dropCopy (s : State) (key seq copy : Nat) : State :=
  { s with hud := { s.hud with seen := s.hud.seen.erase (key, seq, 1 - copy) } }

/-! ### The tree -/

/-- The parent of rank `r` (R560). -/
def treeParent (r : Nat) : Nat := if r % 64 ≠ 0 then r / 64 * 64 else if r % 4096 ≠ 0 then r / 4096 * 4096 else 0

/-- The children of rank `r` among `m` ranks (R560). -/
def treeChildren (m r : Nat) : List Nat :=
  ((if r % 64 = 0 then (List.range 63).map fun i => r + i + 1 else []) ++
    (if r % 4096 = 0 then (List.range 63).map fun i => r + 64 * (i + 1) else []) ++
    (if r = 0 then (List.range 31).map fun i => 4096 * (i + 1) else [])).filter fun c => decide (c < m)

/-- The level of the edge between a rank and its parent (R557). -/
def edgeLevel (child : Nat) : Nat := if child % 64 ≠ 0 then 1 else if child % 4096 ≠ 0 then 2 else 3

/-- The levels of a tree of `m` ranks (R560). -/
def treeLevels (m : Nat) : Nat := if m ≤ 64 then 1 else if m ≤ 4096 then 2 else 3

/-- Send a frame twice on control planes (R559): the first in service at or after `e1`, and at or after `e1 + 8`. -/
def State.sendTwice (s : State) (dev : DevId) (e1 : Nat) (p : Packet) : State :=
  let lane (e : Nat) : Option Nat := ((List.range 16).map fun i => 128 + (e + i) % 16).find? s.laneUp
  let p := { p with cls := 2, src := s.me, txTime := s.tick % 2 ^ 32 }
  let s := match lane (e1 % 16) with
    | some l => s.queueFrame l dev p
    | none => s
  match lane ((e1 + 8) % 16) with
  | some l => s.queueFrame l dev { p with flags := p.flags + 2 }
  | none => s

/-- Send a job-tree frame to a rank. -/
def State.sendTree (s : State) (rank child op : Nat) (sys : Bool) (seq : Nat) (pay : List Byte) : State :=
  match s.job.ranks[rank]? with
  | some dev => s.sendTwice dev seq
      { op := op, flags := b2n sys, epoch := s.hud.treeEpoch, psn := edgeLevel child, job := s.job.tag, payload := pay }
  | none => s

/-! ### Operation blocks -/

/-- COUNT of a block. -/
def OpBlock.count (b : OpBlock) : Nat := b.vals.length

/-- The bytes of a block (R558). -/
def OpBlock.bytes (b : OpBlock) : List Byte :=
  leBytes 8 b.seq ++ leBytes 1 b.vals.length ++ leBytes 3 0 ++ leBytes 4 b.parts ++
    leBytes 8 ((List.range b.ops.length).map fun i => b.ops.getD i 0 * 16 ^ i).sum ++ leBytes 8 b.effect ++ b.vals.flatMap (leBytes 8)

/-- The block that a payload spells (R558). -/
def blockOf (b : List Byte) : OpBlock :=
  let n := min 16 (leAt b 8 1)
  { seq := leAt b 0 8, parts := leAt b 0xC 4, ops := (List.range n).map fun i => leAt b 0x10 8 / 16 ^ i % 16, effect := leAt b 0x18 8
    vals := (List.range n).map fun i => leAt b (0x20 + 8 * i) 8 }

/-- One operation on values of 64 bits (R563). -/
def hudOp (code a b : Nat) : Nat :=
  let sa := signed 64 a
  let sb := signed 64 b
  match code with
  | 0 => (a + b) % 2 ^ 64
  | 1 => max a b
  | 2 => min a b
  | 3 => a &&& b
  | 4 => a ||| b
  | 5 => if sa < sb then b else a
  | _ => if sa < sb then a else b

/-- A block carries a reserved operation code (R563, R568). The model passes an abort on by writing one (log entry 14). -/
def OpBlock.reserved (b : OpBlock) : Bool := b.ops.any fun c => decide (6 < c)

/-- The block that stands for an aborted operation. -/
def OpBlock.abort (b : OpBlock) : OpBlock := { b with ops := b.ops.map fun _ => 15 }

/-- Combine two contributions (R563); differing COUNT or OPS and reserved codes abort the operation (R568). A barrier with no values
carries no codes to differ in. -/
def OpBlock.combine (a b : OpBlock) : OpBlock :=
  if a.ops = b.ops ∧ !a.reserved ∧ !b.reserved then
    { a with parts := a.parts + b.parts,
             vals := (List.range a.vals.length).map fun i => hudOp (a.ops.getD i 0) (a.vals.getD i 0) (b.vals.getD i 0) }
  else { (if a.ops.isEmpty then { b with seq := a.seq } else a).abort with parts := a.parts + b.parts }

/-! ### Completion -/

/-- The last 64 results of a sequence space (R565). -/
def State.doneOps (s : State) (sys : Bool) : List OpBlock := if sys then s.hud.doneSys else s.hud.doneProg

/-- A program's operation completes in its slot (R567 to R569): the result, DONE or ABORTED, and the arrival. -/
def State.slotDoneOp (s : State) (b : OpBlock) : State :=
  match s.hud.slots.find? fun p => decide (p.2.state = 1 ∧ p.2.seq = b.seq) with
  | none => s
  | some (k, x) =>
    let bad := b.reserved || decide (b.vals.length ≠ x.count)
    let vals := if bad then x.vals else (List.range x.count).foldl (fun t v => tabPut 0 t v (b.vals.getD v 0)) x.vals
    let s : State := { s with hud := { s.hud with
      slots := tabSet s.hud.slots k { x with vals := vals, state := if bad then 3 else 2, mismatch := bad } } }
    s.arriveIf x.evEn x.cluster x.ev

/-- An operation is complete at this device (R564, R568, R569). -/
def State.completeOp (s : State) (sys : Bool) (b : OpBlock) : State :=
  let ops := s.hud.ops.filter fun o => !(decide (o.sys = sys) && decide (o.seq = b.seq))
  let h := s.hud
  let s : State := { s with hud := if sys then { h with ops := ops, doneSys := (b :: h.doneSys).take 64 }
    else { h with ops := ops, doneProg := (b :: h.doneProg).take 64 } }
  let s := if b.reserved then State.err { s with hud := { s.hud with mismatch := true } } 4 1 { sev := 2, i0 := b.seq } else s
  if sys then
    match h.sysKinds.find? fun p => decide (p.1 = b.seq) with
    | some (_, kind) =>
      let s : State := { s with hud := { s.hud with sysKinds := s.hud.sysKinds.filter fun p => decide (p.1 ≠ b.seq) } }
      if b.reserved then s else s.sysResult kind b.vals b.effect
    | none => s
  else s.slotDoneOp b

/-- Send the result to every child (R564). -/
def State.sendDown (s : State) (sys : Bool) (b : OpBlock) : State :=
  (treeChildren s.job.ranks.length s.job.rank).foldl (fun s c => s.sendTree c c 0x61 sys b.seq b.bytes) s

/-- A node that holds every contribution (R564): the root forms the result, another sends H_UP. -/
def State.tryForm (s : State) (sys : Bool) (seq : Nat) : State :=
  match s.hud.ops.find? fun o => decide (o.sys = sys ∧ o.seq = seq) with
  | none => s
  | some o =>
    let kids := treeChildren s.job.ranks.length s.job.rank
    if !o.own || o.upAt.isSome || !(kids.all fun c => o.from_.contains c) then s
    else if s.job.rank = 0 then
      let b := { o.block with effect := if sys then (s.tick + 16384 + 4095) / 4096 * 4096 else 0 }
      (s.sendDown sys b).completeOp sys b
    else
      let s := s.sendTree (treeParent s.job.rank) s.job.rank 0x60 sys seq o.block.bytes
      { s with hud := { s.hud with
        ops := s.hud.ops.map fun x => if x.sys = sys ∧ x.seq = seq then { x with upAt := some s.now } else x } }

/-- Add a contribution: of this device, or of a child (R564, R565). -/
def State.contribute (s : State) (sys : Bool) (child : Option Nat) (b : OpBlock) : State :=
  let mark (o : HudOp) : HudOp := match child with
    | none => { o with own := true }
    | some c => { o with from_ := c :: o.from_ }
  let s : State := match s.hud.ops.find? fun o => decide (o.sys = sys ∧ o.seq = b.seq) with
    | none => { s with hud := { s.hud with ops := s.hud.ops ++ [mark { sys := sys, seq := b.seq, block := b }] } }
    | some o =>
      if (match child with | none => o.own | some c => o.from_.contains c) then s
      else { s with hud := { s.hud with
        ops := s.hud.ops.map fun x => if x.sys = sys ∧ x.seq = b.seq then mark { x with block := x.block.combine b } else x } }
  s.tryForm sys b.seq

/-- Nganor posts a system operation (R566). -/
def State.postSys (s : State) (kind : SysKind) (ops vals : List Nat) : State :=
  let n := s.hud.seqSys
  let s : State := { s with hud := { s.hud with seqSys := n + 1, sysKinds := s.hud.sysKinds ++ [(n, kind)] } }
  s.contribute true none { seq := n, ops := ops, parts := 1, vals := vals }

/-- The contribution of a barrier is made once its condition holds: for the job start the tick is LOCKED (R566), for a step barrier
ACKED_STEP has reached the step before (R425), under PAUSE the twin is there (R413). -/
def State.tryBarrier (s : State) : State :=
  let st := s.step
  if !(decide (st.phase = 6) && !st.posted && decide (s.job.state = .running)) then s
  else
    let twinOk := !(s.twinGone && decide (s.ss.twinless = 0) && !s.ss.regions.isEmpty)
    let done (s : State) : State := { s with step := { s.step with posted := true } }
    match st.opens with
    | some n =>
      if st.starting then
        if s.hud.tickState = .locked then
          let s := s.formAfford n
          (done s).postSys .jobStart [2] [7 - s.opp.afford]
        else s
      else if twinOk && decide (st.number - 1 ≤ s.ss.acked) then
        let s := s.formAfford n
        (done s).postSys .stepBarrier [2, 2] [s.ss.acked, 7 - s.opp.afford]
      else s
    | none =>
      if twinOk && decide (st.number - 1 ≤ s.ss.acked) then (done s).postSys .closing [2, 2] [s.ss.acked, 7] else s

/-- The device enters the verdict reduction (R372, R405). -/
def State.enterVerdict (s : State) : State :=
  let s := s.closeWindow
  let v := s.deviceVerdict
  State.postSys { s with step := { s.step with phase := 5, posted := true, waitSince := s.now, arrived := [] } } .verdict [1] [v]

/-- The current phase ends when every logical cluster has arrived (R370 to R373), no pause holds it (R397, R776), and, before UPDATE,
the copy of R418 is complete. -/
def State.tryEndPhase (s : State) : State :=
  let st := s.step
  let n := st.phase
  if !(decide (n < 5) && decide (s.job.state = .running) && s.present.all fun c => st.arrived.contains c) then s
  else
    let next := s.phaseAfter n
    if next = some 3 ∧ !(s.gen ((st.u + 1) % 2)).copied then s
    else
      let s := s.measureEnd st.kind n
      let s := if n = 3 ∧ st.updateBegun then s.formDelta else s
      match next with
      | none => s.enterBarrier.tryBarrier
      | some 3 => s.enterVerdict
      | some m => s.beginPhase m true

/-! ### Rows -/

/-- A job-tree frame of this job's tree (R562). -/
def State.inTree (s : State) (p : Packet) : Bool :=
  decide (p.epoch = s.hud.treeEpoch ∧ p.job = s.job.tag) && decide (s.job.state ≠ .none) && !s.job.ranks.isEmpty

/-- The rank of a device. -/
def State.rankOf (s : State) (d : DevId) : Option Nat :=
  let i := s.job.ranks.idxOf d
  if i < s.job.ranks.length then some i else none

/-- SYS and COPY of FLAGS (R557). -/
def Packet.sys (p : Packet) : Bool := bitN p.flags 0
/-- COPY (R557). -/
def Packet.copy (p : Packet) : Nat := fld p.flags 1 1

/-- The key under which copies of a frame are matched (R559). -/
def Packet.copyKey (p : Packet) : Nat := (p.src * 256 + p.op) * 2 + b2n p.sys

/-- A received frame of Huddle acts once (R559). -/
def State.onceRx (s : State) (lane : Nat) (p : Packet) (seq : Nat) (f : State → State) : State :=
  match s.takeRx lane p with
  | none => s
  | some s =>
    match s.firstCopy p.copyKey seq p.copy with
    | none => s.dropCopy p.copyKey seq p.copy
    | some s => f s

/-- H_UP (R562 to R565, R568): a child's contribution counts once; where the operation is complete the child gets the result
again. -/
def execHUp (lane : Fin 144) (p : Packet) (s : State) : Res :=
  let b := blockOf p.payload
  .next (if p.op ≠ 0x60 then s else s.onceRx lane.val p b.seq fun s =>
    match s.rankOf p.src with
    | none => s
    | some c =>
      if !s.inTree p || !(treeChildren s.job.ranks.length s.job.rank).contains c then s
      else match (s.doneOps p.sys).find? fun d => decide (d.seq = b.seq) with
        | some d => s.sendTree c c 0x61 p.sys b.seq d.bytes
        | none => s.contribute p.sys (some c) b)

/-- H_DOWN (R562, R564): the result is passed on and taken. -/
def execHDown (lane : Fin 144) (p : Packet) (s : State) : Res :=
  let b := blockOf p.payload
  .next (if p.op ≠ 0x61 then s else s.onceRx lane.val p b.seq fun s =>
    if !s.inTree p || decide (s.job.rank = 0) || decide (s.rankOf p.src ≠ some (treeParent s.job.rank)) ||
        !(s.hud.ops.any fun o => decide (o.sys = p.sys ∧ o.seq = b.seq) && o.own) then s
    else (s.sendDown p.sys b).completeOp p.sys b)

/-- Every tree neighbour of this rank (R570). -/
def State.neighbours (s : State) : List Nat :=
  (if s.job.rank = 0 then [] else [treeParent s.job.rank]) ++ treeChildren s.job.ranks.length s.job.rank

/-- Send H_STOP to the neighbours but one (R570). -/
def State.sendStop (s : State) (but : Option Nat) : State :=
  (s.neighbours.filter fun r => decide (some r ≠ but)).foldl
    (fun s r => s.sendTree r (max r s.job.rank) 0x62 false 0 []) s

/-- H_STOP (R570): forwarded once, and failure handling is to begin. -/
def execHStop (lane : Fin 144) (p : Packet) (s : State) : Res :=
  .next (if p.op ≠ 0x62 then s else s.onceRx lane.val p 0 fun s =>
    if !s.inTree p || s.step.stopReceived || !s.jobRuns then s
    else
      let s := s.sendStop (s.rankOf p.src)
      { s with step := { s.step with stopReceived := true, failing := true } })

/-- H_UP_RESEND (R565): 20 µs after the last H_UP without a result. -/
def execHUpResend (sys : Bool) (seq : W32) (s : State) : Res :=
  .next (match s.hud.ops.find? fun o => decide (o.sys = sys ∧ o.seq = seq.toNat) with
    | some o =>
      match o.upAt with
      | some t =>
        if t + 20000 ≤ s.now then
          let s := s.sendTree (treeParent s.job.rank) s.job.rank 0x60 sys o.seq o.block.bytes
          { s with hud := { s.hud with
            resends := satAdd 0xFFFF s.hud.resends 1
            ops := s.hud.ops.map fun x => if x.sys = sys ∧ x.seq = o.seq then { x with upAt := some s.now } else x } }
        else s
      | none => s
    | none => s)

/-- A post slot. -/
def State.slotHp (s : State) (k : Nat) : PostSlot := tabGet {} s.hud.slots k

/-- Put a post slot. -/
def State.setSlotHp (s : State) (k : Nat) (x : PostSlot) : State := { s with hud := { s.hud with slots := tabSet s.hud.slots k x } }

/-- A write of HP_CTL posts the slot (R567, R568, R589): refused where it is POSTED. A reserved COUNT or EV leaves that field as it
was (R22). -/
def State.postSlot (s : State) (k v : Nat) : State :=
  let x := s.slotHp k
  if x.state = 1 then { s with hud := { s.hud with postBusy := true } }
  else
    let cnt := fld v 4 0
    let ev := fld v 13 8
    let s := if 16 < cnt ∨ ev = 63 then s.errReserved (0x780000001000 + 0x100 * k) v else s
    let cnt := if 16 < cnt then x.count else cnt
    let n := s.hud.seqProg
    let x := { x with state := 1, mismatch := false, seq := n, count := cnt, ev := if ev = 63 then x.ev else ev, evEn := bitN v 14
                      cluster := fld v 23 16 }
    let s := State.setSlotHp { s with hud := { s.hud with seqProg := n + 1 } } k x
    s.contribute false none
      { seq := n, ops := (List.range cnt).map fun i => x.ops / 16 ^ i % 16, parts := 1, vals := (List.range cnt).map (tabGet 0 x.vals) }

/-- HP_CTL (R567, R587): a program of the job posts slot `slot`. -/
def execHpCtl (c : BitVec 8) (slot : Fin 8) (v : W64) (s : State) : Res :=
  .next (if s.open_ c.toNat && !s.job.ranks.isEmpty then s.postSlot slot.val v.toNat else s)

end Sys2Proof.Machine
end

