-- ==== Sys2Proof/Machine/JobOps.lean ====
section
/-!
DEFINITION. What job load, start, rerun, pause, resume and failure handling share (R257, R302, R397, R410, R435 to R438, R444, R605,
R746, R776).
-/
namespace Sys2Proof.Machine

/-! ### Clusters under a job -/

/-- The program state of R257 after a job load, with PC, s3 and e63 as a start or a resume gives them (R444). The generators keep
their state until a seeded step reseeds them (R209, R211); the translation entries are reread (R284). -/
def Cluster.loaded (k : Cluster) (c rank pc s3 s4 e63 waitLimit transBase : Nat) (seeded : Bool) : Cluster :=
  { fenced := k.fenced, pc := pc, waitLimit := waitLimit, transBase := transBase, transInv := true, trans := k.trans
    seeded := seeded, seedStep := if seeded then k.seedStep else 0, gens := k.gens
    s := tabOf 0#64 5 fun i => BitVec.ofNat 64 ([0, c, rank, s3, s4].getD i 0)
    e := tabPut 0#64 [] 63 (BitVec.ofNat 64 e63) }

/-- Put every present cluster into the state of R257, to begin with step `first`: s3 holds it, e63 the steps before it (R444). The
scalar cache is written back and emptied. -/
def State.loadClusters (s : State) (first : Nat) : State :=
  s.present.foldl (fun s c =>
    (s.flushCache c).modCl c fun k =>
      k.loaded c s.job.rank (tabGet 0 s.job.entries c) first s.job.sched.firstStep (first - s.job.sched.firstStep) s.job.waitLimit
        s.job.transBase s.job.seeded) s

/-- Nganor starts every cluster of the job (R302). -/
def State.startClusters (s : State) : State := s.present.foldl (fun s c => s.modCl c Cluster.resume) s

/-! ### Ingest windows -/

/-- The ingest entry of window `w` (R599). -/
def State.ingestEntry (s : State) (w : Nat) : Nat := s.job.ingest + 32 * w

/-- Write STATUS of a window's entry (R599). -/
def State.setWindow (s : State) (w st : Nat) : State := s.store (s.ingestEntry w + 0x10) [BitVec.ofNat 8 st] false 1

/-- The arrival of R603. -/
def State.windowArrival (s : State) (w : Nat) : State :=
  let ev := (s.byte (s.ingestEntry w + 0xF)).toNat
  s.arriveIf (bitN ev 7 && fld ev 5 0 != 63) (s.byte (s.ingestEntry w + 0xE)).toNat (fld ev 5 0)

/-- Every REQUESTED window of the selected queue pairs becomes FAILED (R605). -/
def State.failWindows (s : State) (sel : Nat → Bool) (arrival : Bool) : State :=
  (List.range s.job.ingestCount).foldl (fun s w =>
    if (s.byte (s.ingestEntry w + 0x10)).toNat = 1 ∧ sel (leAt (s.bytes (s.ingestEntry w + 0xC) 2) 0 2) then
      let s := s.setWindow w 3
      if arrival then s.windowArrival w else s
    else s) s

/-! ### Pause and resume -/

/-- The job pauses (R397, R776): the phase under way ends only after a resume. -/
def State.pauseJob (s : State) : State :=
  if s.job.state = .running then
    State.event { s with job := { s.job with state := .paused }, step := { s.step with pausedAt := s.now } } 1 3 0 s.step.number
  else s

/-- The job runs again (R776): time spent PAUSED or HALTED does not count toward a stall; halted clusters resume. -/
def State.resumeJob (s : State) : State :=
  if s.job.state = .paused ∨ s.job.state = .halted then
    let d := s.now - s.step.pausedAt
    let s' : State := { s with
      job := { s.job with state := .running }
      step := { s.step with phaseSince := s.step.phaseSince + d, waitSince := s.step.waitSince + d
                            fetches := s.step.fetches.map fun f => { f with since := f.since + d } } }
    (if s.job.state = .halted then s'.startClusters else s').tryEndPhase.tryBarrier
  else s

/-! ### Faults of a job -/

/-- The exchange posts of the clusters are abandoned (R438). -/
def State.dropPosts (s : State) : State :=
  { s with fab := { s.fab with posts := s.fab.posts.filter fun p => decide (256 ≤ p.owner) }
           step := { s.step with fetches := [] } }

/-- Every pending Huddle operation of the job ends as ABORTED, without an arrival (R570). -/
def State.abortOps (s : State) : State :=
  { s with hud := { s.hud with
      ops := [], sysKinds := []
      slots := s.hud.slots.map fun p => (p.1, if p.2.state = 1 then { p.2 with state := 3 } else p.2) } }

/-- Without a job the target of PCEIL is P_IDLE, or the mean PKG_W where none was measured (R676). -/
def State.idleTarget (s : State) : Nat := if s.opp.idleMeasured then s.opp.pIdle else s.pwr.pkgW

/-- The job's end for power (R659, R671, R683): the requested step is P7, a hysteresis wait is abandoned, and keep-warm follows the fall
of PCEIL. -/
def State.powerIdles (s : State) : State :=
  State.requestIdle { s with opp := { s.opp with hyst := false, kwEvent := true, kwEventUsed := 0, tgtW := s.idleTarget } }

/-- Failure handling (R438): job stop, halted clusters, abandoned posts, rollback to COMMITTED_STEP, the report STOPPED. The reference
test of R703 then runs until the job resumes. -/
def State.stopJob (s : State) : State :=
  let s := if s.step.stopReceived then s else s.sendStop none
  let s := ((((s.haltAll).dropPosts).abortOps).failWindows (fun _ => true) false).dropClaims fun _ => true
  let s := s.rollback s.ss.committed
  let s : State := { s with
    job := { s.job with state := .stopped }
    ss := { s.ss with stopped := true, formed := [], unsent := [], sent := [] }
    clk := { s.clk with testing := true }
    step := { s.step with phase := 7, failing := false, faultPending := false, stopReceived := false, endAfter := none, posted := false
                          opens := none, starting := false, windowOpen := false, arrived := [], doorbells := [] } }
  s.powerIdles.event 1 6 0 s.ss.committed

/-- A rerun of the current step (R410, R437): rolled back to the step before, its clusters started as on a resume, it enters its
opening barrier again. -/
def State.rerun (s : State) : State :=
  let n := s.step.number
  let s := (((s.haltAll).dropPosts).abortOps).rollback (n - 1)
  let s := (s.loadClusters n).startClusters
  let s : State := { s with step := { s.step with
    number := n - 1, rerunStep := n, faultPending := false, phase := 6, posted := false, opens := some n, starting := false
    windowOpen := false, arrived := [], doorbells := [], waitSince := s.now } }
  s.tryBarrier

/-! ### The twin's side -/

/-- Change the binding. -/
def State.modBinding (s : State) (f : Binding → Binding) : State := { s with ss := { s.ss with binding := s.ss.binding.map f } }

/-- XOR a record's difference into or out of the backup (R426, R436). -/
def State.xorBackup (s : State) (b : Binding) (r : Record) : State :=
  let a := b.base + r.boff
  s.store a (xorBytes (s.bytes a r.length) (decodeSectors r.length r.payload)) (s.poisoned a r.length) stateCls

/-- The backup returns to its contents after step `c` (R436): the logged records above it are XORed out, newest first. -/
def State.revertBackup (s : State) (c : Nat) : State :=
  match s.ss.binding with
  | none => s
  | some b =>
    let s := ((b.log.filter fun r => decide (c < r.step)).reverse).foldl (fun s r => s.xorBackup b r) s
    s.modBinding fun b => { b with log := b.log.filter fun r => decide (r.step ≤ c), endWait := none }

/-- STEP_ACK is sent once every record of the step has been applied (R427). -/
def State.tryStepAck (s : State) : State :=
  match s.ss.binding with
  | some b =>
    match b.endWait with
    | some e =>
      if (List.range e.length).all fun i => b.applied.contains (e.offset + i) then
        let s := s.modBinding fun b => { b with endWait := none, applied := b.applied.filter fun q => decide (e.offset + e.length ≤ q) }
        s.sendRecord b.source { type := recAck, step := e.step, origin := s.me }
      else s
    | none => s
  | none => s

/-- The twin's connection is lost (R413, R783): TWIN is LOST and the event TWINLESS is sent. -/
def State.twinLost (s : State) : State :=
  State.event { s with ss := { s.ss with twin := 3, restoring := false } } 7 1 0 s.ss.twinDev

/-- Record bytes formed and not yet acknowledged (UNSENT_BYTES, R448). -/
def State.unsentBytes (s : State) : Nat := (s.ss.outstanding.map fun r => 64 + r.payload.length).sum

end Sys2Proof.Machine
end

