-- ==== Sys2Proof/Machine/Training.lean ====
section
/-!
DEFINITION. The rows of training steps: phase arrivals, publication, verified fetches and their resolution, stalls (spec/09), and
failure handling (R438).
-/
namespace Sys2Proof.Machine

/-! ### Phases -/

/-- PHASE_ARRIVE (R370, R371): an arrival that names another phase, or a second one, only sets PHASE_SKEW. -/
def execPhaseArrive (c : BitVec 8) (v : W64) (s : State) : Res :=
  .next (if !(s.open_ c.toNat && s.jobRuns) then s
    else if fld v.toNat 2 0 ≠ s.step.phase ∨ 5 ≤ s.step.phase ∨ s.step.arrived.contains c.toNat then
      { s with step := { s.step with skew := true } }
    else State.tryEndPhase { s with step := { s.step with arrived := c.toNat :: s.step.arrived } })

/-- PREIMAGE_COPY_COMPLETE (R418): the copy into the PRE generation is complete. -/
def execPreimageCopyComplete (s : State) : Res :=
  let g := (s.step.u + 1) % 2
  let x := s.gen g
  .next (if decide (x.state = .pre) && !x.copied && s.jobRuns then ((s.copyImage g).setGen g { x with copied := true }).tryEndPhase else s)

/-! ### Publication -/

/-- PUB_DOORBELL (R385, R386): accepted in UPDATE of a step whose verdict is NONE or CLAMP for an owned SLOT; a refusal is recorded
and still makes the arrival. EV 63 is a reserved encoding (R22). -/
def execPubDoorbell (c : BitVec 8) (v : W64) (s : State) : Res :=
  let w := v.toNat
  let slot := fld w 15 0
  let ev := if fld w 29 24 = 63 then 0 else fld w 29 24
  .next (if !(s.open_ c.toNat && s.jobRuns) then s
    else
      let s := if fld w 29 24 = 63 then s.errReserved 0x780000010018 w else s
      if decide (s.step.phase = 3) && s.step.updateBegun && decide (s.step.verdict ≤ 1) && s.owned.any (fun e => decide (e.slot = slot)) then
        { s with step := { s.step with doorbells := s.step.doorbells ++
            [({ slot := slot, cluster := fld w 23 16, ev := ev, evEn := bitN w 30, version := s.step.number } : Doorbell)] } }
      else
        (State.err { s with step := { s.step with pubRefused := true } } 5 1
          { cluster := c.toNat, i0 := slot, i1 := s.step.verdict }).arriveIf (bitN w 30) (fld w 23 16) ev)

/-- PUBLICATION_RECORD_WRITE (R387 to R389): the digest is formed, the record written and the arrival made. -/
def execPublicationRecordWrite (slot : Nat) (s : State) : Res :=
  .next (match s.step.doorbells.find? fun d => decide (d.slot = slot), s.owned.find? fun e => decide (e.slot = slot) with
    | some d, some e =>
      let s : State := { s with step := { s.step with doorbells := s.step.doorbells.erase d } }
      if s.poisoned e.image e.bytes then s.publish e d.version else (s.publish e d.version).arriveIf d.evEn d.cluster d.ev
    | _, _ => s)

/-! ### Verified fetch -/

/-- Change a verified fetch. -/
def State.modFetch (s : State) (post : Nat) (f : Fetch → Fetch) : State :=
  { s with step := { s.step with fetches := s.step.fetches.map fun x => if x.post = post then f x else x } }

/-- A verified fetch with its post and its shard entry. -/
def State.fetchOf (s : State) (post : Nat) : Option (Fetch × Post × Shard) :=
  match s.step.fetches.find? (fun f => decide (f.post = post)), s.fab.posts.find? (fun p => decide (p.id = post)) with
  | some f, some p => (s.replica f.entry).map fun e => (f, p, e)
  | _, _ => none

/-- The read of the image by a verified fetch (R393). -/
def State.fetchImage (s : State) (f : Fetch) (p : Post) (e : Shard) : State :=
  s.sendOp false p.dev (.post p.id) e.bytes (readPkts f.addr e.image e.bytes s.job.tag p.desc.partR)

/-- The owner's record has come (R393): not VALID or stale, it is read again later; another shard's or too new, the post is
rejected; else the image is read. -/
def State.fetchGot (s : State) (post : Nat) (rec : List Byte) : State :=
  match s.fetchOf post with
  | none => s
  | some (f, p, e) =>
    let image := leAt rec 0x18 8
    let version := leAt rec 8 8
    if !bitN image 48 || decide (version < s.step.expect) then s.modFetch post fun f => { f with stage := 1, lastRead := s.now }
    else if leAt rec 0 4 ≠ e.id ∨ leAt rec 4 4 ≠ e.bytes ∨ s.step.expect < version then s.postFail p
    else
      let f := { f with stage := 2, version := version, digest := leAt rec 0x10 8, addr := image % 2 ^ 48 }
      (s.modFetch post fun _ => f).fetchImage f p e

/-- VERIFIED_FETCH_RECHECK (R393): the record is read again 20 µs after it was last read. -/
def execVerifiedFetchRecheck (post : Nat) (s : State) : Res :=
  .next (match s.fetchOf post with
    | some (f, p, e) =>
      if f.stage = 1 ∧ f.lastRead + 20000 ≤ s.now then
        (s.modFetch post fun f => { f with stage := 0, lastRead := s.now }).fetchRecord p e
      else s
    | none => s)

/-- VERIFIED_FETCH_DIGEST (R389, R393): the image has come; a match completes the fetch, a mismatch refetches it at most twice and
then passes to resolution. -/
def execVerifiedFetchDigest (post : Nat) (s : State) : Res :=
  .next (match s.fetchOf post with
    | some (f, p, e) =>
      if f.stage ≠ 2 ∨ (s.fab.ops.any fun o => decide (o.origin = .post post)) then s
      else
        let (s, img, bad) := s.load e.image e.bytes p.desc.cls
        if bad then s.devFault 2 3 { poison := true, addr := e.image, i0 := 5 }
        else if imageDigest e.id f.version img = f.digest then
          let s := s.modFetch post fun f => { f with stage := 4 }
          if f.reads = 0 then s
          else State.total { s with step := { s.step with fetchRetry := satAdd 0xFFFF s.step.fetchRetry 1 } } 1 1
        else if f.reads < 2 then
          let f := { f with reads := f.reads + 1 }
          (s.modFetch post fun _ => f).fetchImage f p e
        else s.modFetch post fun f => { f with stage := 5 }
    | none => s)

/-- An inert mismatch or a value repair is counted (R378, R396, R792). -/
def State.countDiff (s : State) (value : Bool) : State :=
  if value then State.total { s with step := { s.step with valueRepair := satAdd 0xFFFF s.step.valueRepair 1 } } 3 1
  else State.total { s with step := { s.step with inert := satAdd 0xFFFF s.step.inert 1 } } 2 1

/-- One unit of an image is resolved (R396): the state, and whether owner and twin are in conflict. INFO1 of the record is the unit,
with the class in bit 32: 0 inert, 1 value. -/
def State.resolveUnit (s : State) (e : Shard) (owner twin : List Byte) (k : Nat) : State × Bool :=
  let a := e.image + 288 * k
  let n := min 288 (e.bytes - 288 * k)
  let o := Sys2Proof.Machine.slice owner (288 * k) n
  let t := Sys2Proof.Machine.slice twin (288 * k) n
  let r := s.bytes a n
  let mask := s.inertMask e (imageRead e.image owner)
  let rewrite (s : State) : State := s.store a o false 3
  let log (s : State) (value : Bool) : State :=
    (s.countDiff value).err 5 2 { sev := 1, act := 1, addr := a, i0 := e.id, i1 := k + b2n value * 2 ^ 32 }
  match diffClass mask a o t with
  | none => match diffClass mask a o r with
    | none => (s, false)
    | some v => (log (rewrite s) v, false)
  | some false => (log (rewrite s) false, false)
  | some true => (s.err 5 3 { act := 8, addr := a, i0 := e.id, i1 := k }, true)

/-- MISMATCH_RESOLUTION (R395 to R398): once the step of the record is committed, the three copies are compared unit by unit. `owner`
and `twin` are the bytes of the owner's image and of its twin's backup. -/
def execMismatchResolution (post : Nat) (owner twin : List Byte) (s : State) : Res :=
  .next (match s.fetchOf post with
    | some (f, _, e) =>
      if f.stage ≠ 5 ∨ s.ss.committed < f.version then s
      else
        let (s, conflict) := (List.range ((e.bytes + 287) / 288)).foldl (fun (a : State × Bool) k =>
          let (s, c) := a.1.resolveUnit e owner twin k
          (s, a.2 || c)) (s, false)
        if conflict then (s.event 1 8 0 e.id).pauseJob
        else if imageDigest e.id f.version (s.bytes e.image e.bytes) = f.digest then s.modFetch post fun f => { f with stage := 4 }
        else s.devFault 5 4 { i0 := e.id }
    | none => s)

/-! ### Stalls and failure handling -/

/-- How long the device has waited, in ns, in a phase, in the verdict reduction, in a step barrier or for verified fetches (R375). A
barrier that waits for a twin under PAUSE does not count (R413). -/
def State.waits (s : State) : List Nat :=
  let st := s.step
  let paused := s.twinGone && decide (s.ss.twinless = 0) && !s.ss.regions.isEmpty && !st.posted
  (if st.phase < 5 then [s.now - st.phaseSince] else []) ++
    (if st.phase = 5 ∨ (st.phase = 6 ∧ !paused) then [s.now - st.waitSince] else []) ++
    (st.fetches.filter fun f => decide (f.stage < 4)).map fun f => s.now - f.since

/-- STALL (R375): a wait longer than STALL_LIMIT_MS is reported and failure handling is to begin. -/
def execStall (s : State) : Res :=
  .next (if s.job.state ≠ .running ∨ s.step.failing then s
    else match s.waits.find? fun w => decide (s.job.sched.stallMs * 1000000 < w) with
      | some w => State.event { s with step := { s.step with failing := true } } 1 5 0 (w / 1000000)
      | none => s)

/-- FAILURE_HANDLING (R409, R410, R437, R438): under RERUN a first fault of a step reruns it; otherwise the job stops. -/
def execFailureHandling (s : State) : Res :=
  .next (if !s.jobRuns || !(s.step.failing || s.step.faultPending) then s
    else if !s.step.failing && decide (s.job.sched.policy = 1) && decide (s.job.state = .running) && decide (s.step.phase < 6) &&
        decide (s.step.rerunStep ≠ s.step.number) then s.rerun
    else s.stopJob)

/-! ### Pause and resume of other members -/

/-- JOB_PAUSE_NOTICE (R397, R776). -/
def execJobPauseNotice (s : State) : Res := .next s.pauseJob

/-- JOB_RESUME_NOTICE (R776). -/
def execJobResumeNotice (s : State) : Res := .next s.resumeJob

end Sys2Proof.Machine
end

