-- ==== Sys2Proof/Machine/Twin.lean ====
section
/-!
DEFINITION. The rows of the state stream: records at the twin (R426 to R431, R433, R436), answers at the origin (R427, R428), loss of
the twin (R413), snapshot lag (R447), and the source of a restore (R441).
-/
namespace Sys2Proof.Machine

/-! ### At the twin -/

/-- The binding that a record of origin `r.origin` reaches. -/
def State.boundTo (s : State) (type : Nat) (r : Record) : Option Binding :=
  s.ss.binding.filter fun b => decide (b.source = r.origin ∧ r.type = type)

/-- A record's range lies in the backup; else TWIN is LOST (R783). -/
def Binding.covers (b : Binding) (r : Record) : Bool := decide (r.boff + r.length ≤ b.bytes)

/-- An applied record enters the twin log (R426, R431). -/
def State.logRecord (s : State) (r : Record) : State :=
  (s.modBinding fun b => { b with log := b.log ++ [r], applied := r.seq :: b.applied }).tryStepAck

/-- DELTA_RECORD (R426): the digest before, the XOR, the digest after; NAK OLD or NAK NEW leave the range as it was. -/
def execDeltaRecord (r : Record) (s : State) : Res :=
  .next (match s.boundTo recDelta r with
    | none => s
    | some b =>
      if !b.covers r then s.twinLost
      else if b.applied.contains r.seq then s
      else
        let old := s.bytes (b.base + r.boff) r.length
        let answer (type : Nat) : State := s.sendRecord b.source { type := type, step := r.step, seq := r.seq, origin := s.me }
        if rangeDigest r.shard r.region r.offset old ≠ r.oldDig ∨ s.poisoned (b.base + r.boff) r.length then answer recNakOld
        else if rangeDigest r.shard r.region r.offset (xorBytes old (decodeSectors r.length r.payload)) ≠ r.newDig then answer recNakNew
        else (s.xorBackup b r).logRecord r)

/-- How the twin's backup differs from the old bytes that a FULL record gives (R429): none where it agrees. The descriptors are those of
this device's own shard table where it lists the shard; bytes that it cannot describe are value bytes. -/
def State.backupDiff (s : State) (b : Binding) (r : Record) (new : List Byte) : Option Bool :=
  let old := xorBytes new (decodeSectors r.length r.diff)
  let mine := s.bytes (b.base + r.boff) r.length
  match s.job.shards.find? fun e => decide (e.id = r.shard ∧ r.region = 0) with
  | some e =>
    let img := fun a n => s.bytes (b.base + r.boff - r.offset + (a - e.image)) n
    diffClass (s.inertMask e img) (e.image + r.offset) old mine
  | none => diffClass (fun _ => 0) 0 old mine

/-- FULL_RECORD (R428 to R430): with the origin's difference it replaces a DELTA, and what the backup held is classified; without, it is
part of a resync (R441, R783). -/
def execFullRecord (r : Record) (s : State) : Res :=
  .next (match s.boundTo recFull r with
    | none => s
    | some b =>
      if !b.covers r then s.twinLost
      else
        let new := decodeSectors r.length r.payload
        let s := if r.diff.isEmpty then s else match s.backupDiff b r new with
          | none => s
          | some false =>
            (State.total { s with ss := { s.ss with inert := satAdd 0xFFFF s.ss.inert 1 } } 2 1).err 6 1
              { sev := 1, act := 1, i0 := r.boff, i1 := 0 }
          | some true =>
            let n := satAdd 0xFFFF s.ss.twinValue 1
            ((State.total { s with ss := { s.ss with twinValue := n } } 6 1).err 6 1
              { sev := 1, act := 1, i0 := r.boff, i1 := 1 }).event 7 4 0 n
        let s := s.store (b.base + r.boff) new false stateCls
        if rangeDigest r.shard r.region r.offset new ≠ r.newDig then s.devFault 6 0xFFFF { i0 := r.boff }
        else if r.diff.isEmpty then s
        else s.logRecord { r with payload := r.diff, diff := [] })

/-- END_RECORD (R427): the twin waits for every record of the step and then sends STEP_ACK. -/
def execEndRecord (r : Record) (s : State) : Res :=
  .next (if (s.boundTo recEnd r).isSome then (s.modBinding fun b => { b with endWait := some r }).tryStepAck else s)

/-- COMMIT_RECORD (R431, R433): the twin log drops the records of committed steps. -/
def execCommitRecord (r : Record) (s : State) : Res :=
  .next (if (s.boundTo recCommit r).isSome then
      s.modBinding fun b => { b with log := b.log.filter fun x => decide (r.step < x.step), committed := max b.committed r.step }
    else s)

/-- ROLLBACK_RECORD (R436): the records above the target are XORed out, and STEP_ACK answers. -/
def execRollbackRecord (r : Record) (s : State) : Res :=
  .next (match s.boundTo recRollback r with
    | some b => (s.revertBackup r.step).sendRecord b.source { type := recAck, step := r.step, origin := s.me }
    | none => s)

/-! ### At the origin -/

/-- An answer of this device's twin. -/
def State.fromTwin (s : State) (type : Nat) (r : Record) : Bool :=
  decide (r.type = type ∧ r.origin = s.ss.twinDev) && !s.twinGone

/-- STEP_ACK (R425, R427, R436): ACKED_STEP follows; the next step's records may go, and a barrier that waits for it goes on. -/
def execStepAck (r : Record) (s : State) : Res :=
  .next (if !s.fromTwin recAck r then s
    else
      let s : State := { s with ss := { s.ss with
        acked := r.step, sent := s.ss.sent.filter fun x => decide (r.step < x.step), nakCount := [] } }
      s.releaseFormed.ackIdle.tryBarrier.tryEnded)

/-- NAK_NEW (R428): the record is sent again; after the second for a range, a FULL record. -/
def execNakNew (r : Record) (s : State) : Res :=
  .next (if !s.fromTwin recNakNew r then s
    else
      let n := tabGet 0 s.ss.nakCount r.seq + 1
      let s := State.total { s with ss := { s.ss with nakNew := satAdd 0xFFFF s.ss.nakNew 1, nakCount := tabSet s.ss.nakCount r.seq n } } 4 1
      s.resend r.seq fun d => if 2 ≤ n then s.fullFor d else d)

/-- NAK_OLD (R428): a FULL record at once. -/
def execNakOld (r : Record) (s : State) : Res :=
  .next (if !s.fromTwin recNakOld r then s
    else
      let s := State.total { s with ss := { s.ss with nakOld := satAdd 0xFFFF s.ss.nakOld 1 } } 5 1
      s.resend r.seq s.fullFor)

/-- A device without a twin goes on (R413): under CONTINUE what is outstanding counts as acknowledged; under PAUSE the next closing barrier
waits. -/
def State.runTwinless (s : State) : State :=
  if decide (s.ss.twinless = 1) && s.jobRuns then
    let rest := s.ss.formed ++ s.ss.unsent
    let top := s.ss.outstanding.foldl (fun m r => max m r.step) s.ss.acked
    let s := rest.foldl State.exportRecord s
    let s : State := { s with ss := { s.ss with formed := [], unsent := [], sent := [], acked := top, twinlessRun := true } }
    s.ackIdle.tryBarrier.tryEnded
  else s

/-- TWINLESS (R413): the twin is lost. -/
def execTwinless (s : State) : Res := .next (if s.twinGone then s else s.twinLost.runTwinless)

/-- EXPORT_LAG (R447): the copy to the snapshot endpoint stops. -/
def execExportLag (s : State) : Res :=
  .next (if s.ss.exportOn then
      ((State.err { s with ss := { s.ss with exportOn := false, exportLag := true } } 6 2 { sev := 0, i0 := s.unsentBytes })).event 7 2 0 0
    else s)

/-! ### The source of a restore -/

/-- FULL records of the whole backup space (R441). SOURCE knows no shards: SHARD_ID and REGION are 0 and OFFSET is the backup offset. -/
def State.backupRecords (s : State) (b : Binding) (step : Nat) : List Record :=
  numberFrom 0 ((rangesOf b.bytes).map fun (off, len) =>
    let bs := s.bytes (b.base + off) len
    { type := recFull, step := step, origin := s.me, length := len, offset := off, boff := off, newDig := rangeDigest 0 0 off bs
      payload := encodeSectors bs })

/-- SOURCE_RESTORE_REQUEST (R441, R784): bound to the failed device and its log reaching back to TARGET, SOURCE reverts the backup,
streams it, and unbinds. -/
def execSourceRestoreRequest (failed replacement target : Nat) (s : State) : Res :=
  .next (match s.ss.binding with
    | some b =>
      if b.source ≠ failed ∨ target < b.committed then s
      else
        let s := s.revertBackup target
        let s := (s.backupRecords b target).foldl (fun s r => s.sendRecord replacement r) s
        State.event { s with ss := { s.ss with binding := none, twin := 0 } } 7 1 0 s.ss.twinDev
    | none => s)

end Sys2Proof.Machine
end

