-- ==== Sys2Proof/Machine/Memory.lean ====
section
/-!
DEFINITION. Scalar accesses to HBM through the scalar caches and the directory (R260, R261, R464 to R468), partition regulators (R477 to
R481), the patrol scrub (R487) and stack temperatures (R488, R489).
-/
namespace Sys2Proof.Machine

/-! ### Scalar accesses -/

/-- The size of a scalar access in bytes (R330). -/
def accSize (w : Nat) : Nat := 2 ^ fld w 9 8

/-- A scalar access is a store. -/
def accStore (w : Nat) : Bool := w % 256 == 0x19

/-- The address of a scalar access, of 64 bits (R331). -/
def Cluster.accAddr (k : Cluster) (w : Nat) : Nat :=
  let off := if accStore w then sfld w 63 37 * 32 else sfld w 63 32
  unsigned 64 ((k.sreg (fld w 28 24) : Int) + off)

/-- The value that a load leaves in its register (R330). -/
def loadValue (w v : Nat) : Nat := if bitN w 10 then unsigned 64 (signed (8 * accSize w) v) else v

/-- The bytes that a store writes (R330). -/
def Cluster.storeBytes (k : Cluster) (w : Nat) : List Byte := leBytes (accSize w) (k.sreg (fld w 36 32))

/-- A load that returns poison (R332, R485, R486). -/
def State.loadPoison (s : State) (c a : Nat) : State :=
  ((s.notice a 1).ifault c 0x08 true a).err 2 3 { poison := true, cluster := c, addr := a, i0 := 1 }

/-- A load completes: RD, and PC (R331). -/
def State.loadDone (s : State) (c w v : Nat) : State := s.modCl c fun k => (k.setS (fld w 20 16) (loadValue w v)).retire

/-- A load from a line that the cache holds. -/
def State.cacheLoad (s : State) (c w a : Nat) (x : CacheLine) : State :=
  if bitN x.bad (a % 128 / 32) then s.loadPoison c a else s.loadDone c w (leAt x.data (a % 128) (accSize w))

/-- A store into a line that the cache owns (R467): the bytes become dirty; a sector that is wholly written is sound again. -/
def CacheLine.put (x : CacheLine) (off : Nat) (bs : List Byte) : CacheLine :=
  let dirty := (List.range bs.length).foldl (fun t i => tabSet t (off + i) true) x.dirty
  let k := off / 32
  let whole := decide ((dirty.filter fun p => decide (p.1 / 32 = k)).length = 32)
  { st := .modified, data := patch x.data off bs, dirty := dirty, bad := if whole && bitN x.bad k then x.bad - 2 ^ k else x.bad }

/-- A request for a line goes to its home slice and holds issue. -/
def State.askLine (s : State) (c w line : Nat) (own : Bool) : State :=
  let h := s.lineHome line
  let x := s.slice h
  (s.setSlice h { x with reqs := x.reqs ++ [{ line := line, who := c, own := own }] }).modCl c fun k => { k with hold := .line w }

/-- A scalar access to HBM (R260, R464): a hit completes, a miss or a store to a shared line asks the home slice. -/
def State.scalarHbm (s : State) (c w : Nat) : State :=
  let k := s.cl c
  let a := k.accAddr w
  let line := a / 128
  match tabFind k.cache line with
  | none => s.askLine c w line (accStore w)
  | some x =>
    if !accStore w then s.cacheLoad c w a x
    else if x.st = .shared then s.askLine c w line true
    else s.modCl c fun k => { k with cache := tabSet k.cache line (x.put (a % 128) (k.storeBytes w)) }.retire

/-! ### The directory -/

/-- One line leaves a scalar cache (R467): its dirty bytes are written, and the directory follows. -/
def State.evictLine (s : State) (c line : Nat) : State :=
  match tabFind (s.cl c).cache line with
  | none => s
  | some x =>
    let s := (s.writeBack line x).modCl c fun k => { k with cache := tabDel k.cache line }
    let h := s.lineHome line
    let y := s.slice h
    s.setSlice h { y with dir := dirDrop y.dir line c }

/-- A granted line enters the cache of 64 lines; which line it replaces is not stated (log entry 2). An upgrade keeps the data. -/
def State.fillLine (s : State) (c line : Nat) (st : LineState) : State :=
  match tabFind (s.cl c).cache line with
  | some x => s.modCl c fun k => { k with cache := tabSet k.cache line { x with st := st } }
  | none =>
    let s : State := if 64 ≤ (s.cl c).cache.length then
        let (d, s) := s.draw
        s.evictLine c (((s.cl c).cache.map (·.1)).getD (Config.victim d % 64) 0)
      else s
    let a := line * 128
    let s := s.touch a 128 false 0
    let bad := ((List.range 4).filter fun k => s.poisoned (a + 32 * k) 32).foldl (fun m k => m + 2 ^ k) 0
    s.modCl c fun k => { k with cache := tabSet k.cache line { st := st, data := s.bytes a 128, bad := bad } }

/-- The access that waited for a line is made (R466: a granted owner completes its store). -/
def State.finishLine (s : State) (c line : Nat) : State :=
  match (s.cl c).hold with
  | .line w => if (s.cl c).accAddr w / 128 = line then s.scalarHbm c w else s
  | _ => s

/-- A new entry of a slice's directory of 4,096 in 16 ways (R468): a full set evicts its least recently used entry. The set is the line
modulo 256 (log entry 15). -/
def State.makeRoom (s : State) (h line : Nat) : State :=
  let same := (s.slice h).dir.filter fun e => decide (e.line % 256 = line % 256)
  match if same.length < 16 then none else same.getLast? with
  | none => s
  | some e =>
    let s := s.recallLine e.line
    let x := s.slice h
    s.setSlice h { x with dirEvict := satAdd 0xFFFF x.dirEvict 1 }

/-- Grant a request for a line that nobody owns (R464, R465): ownership invalidates every other sharer; a read by the only holder is
E. -/
def State.grant (s : State) (h : Nat) (r : LineReq) : State :=
  let drop (l : List LineReq) := l.filter fun q => !decide (q.line = r.line ∧ q.who = r.who)
  let others := (((s.slice h).dir.find? fun e => decide (e.line = r.line)).map (·.sharers)).getD []
  let others := others.filter fun c => decide (c ≠ r.who)
  let s := if r.own then others.foldl (fun s c => s.evictLine c r.line) s else s
  let s := if (s.slice h).dir.any fun e => decide (e.line = r.line) then s else s.makeRoom h r.line
  let alone := r.own || others.isEmpty
  let e : DirEntry := if alone then { line := r.line, owner := some r.who } else { line := r.line, sharers := r.who :: others }
  let x := s.slice h
  let s := s.setSlice h { x with dir := e :: x.dir.filter fun e => decide (e.line ≠ r.line), reqs := drop x.reqs }
  (s.fillLine r.who r.line (if alone then .exclusive else .shared)).finishLine r.who r.line

/-- The request that the rotating priority orders: the first at or after the pointer (R465). -/
def firstReq (ptr : Nat) (rs : List LineReq) : Option LineReq :=
  rs.foldl (fun best r => match best with
    | none => some r
    | some b => if (r.who + 260 - ptr) % 260 < (b.who + 260 - ptr) % 260 then some r else best) none

/-- COHERENCE_REQUEST (R464, R465, R466, R468): one request is ordered; a line that another agent owns is recalled first. -/
def execCoherenceRequest (slice : Fin 24) (s : State) : Res :=
  let h := slice.val
  let x := s.slice h
  let busy (l : Nat) : Bool := x.reqs.any fun r => decide (r.line = l) && r.recalled.isSome
  .next (match firstReq x.ptr (x.reqs.filter fun r => !busy r.line) with
    | none => s
    | some r =>
      let x := { x with ptr := (r.who + 1) % 260 }
      match (x.dir.find? fun e => decide (e.line = r.line)).bind (·.owner) with
      | some o =>
        if o = r.who then (s.setSlice h x).grant h r
        else s.setSlice h { x with reqs := x.reqs.map fun q => if q = r then { q with recalled := some o } else q }
      | none => (s.setSlice h x).grant h r)

/-- RECALL_ANSWER (R466, R467): the owner's writeback arrives, and the request that waited is granted. -/
def execRecallAnswer (slice : Fin 24) (line : Nat) (s : State) : Res :=
  let h := slice.val
  .next (match (s.slice h).reqs.find? fun r => decide (r.line = line) && r.recalled.isSome with
    | some r => (s.evictLine (r.recalled.getD 0) line).grant h r
    | none => s)

/-! ### Regulators -/

/-- A partition. -/
def Stack.part (x : Stack) (p : Nat) : Part := tabGet {} x.parts p

/-- A share of the stack's peak that the throttle level lets pass, in units of CAP (R489). -/
def Stack.share (x : Stack) : Nat := match x.level with | 0 => 256 | 1 => 192 | 2 => 128 | _ => 64

/-- REGULATOR_TOKEN_REFILL (R479): every partition of every stack earns CAP × 0.3125 sectors. The stack cap of R489 is kept in a bucket
of 1,024 sectors of its own (log entry 16). -/
def execRegulatorTokenRefill (s : State) : Res :=
  let fill (x : Stack) : Stack :=
    { x with
      tok := imin (16 * 1024) (x.tok + 5 * x.share)
      parts := (List.range 16).map fun p =>
        let y := x.part p
        (p, { y with tok := imin (16 * y.burst) (y.tok + 5 * y.cap) }) }
  .next { s with memsys := { s.memsys with stks := (List.range 12).map fun k => (k, fill (s.stack k)) } }

/-- A partition has a request pending. -/
def Stack.wants (x : Stack) (p : Nat) : Bool := x.queue.any fun r => decide (r.part = p)

/-- The next partition after `last` that a test admits, in rotation. -/
def rotate (last : Nat) (ok : Nat → Bool) : Option Nat := ((List.range 16).map fun i => (last + 1 + i) % 16).find? ok

/-- Admit partition `p`'s oldest request (R479). -/
def Stack.take (x : Stack) (p : Nat) (e1 : Bool) : Stack :=
  match x.queue.find? fun r => decide (r.part = p) with
  | none => x
  | some r =>
    let n := r.sectors
    let step (q : Nat) : Part :=
      let y := x.part q
      let y := if q = p then { y with tok := y.tok - 16 * n, cred := if e1 then y.cred - 256 * n else y.cred,
                                      sectors := (y.sectors + n) % 2 ^ 48 } else y
      if x.wants q then { y with cred := imin (64 * 256) (y.cred + n * y.min) } else { y with cred := 0 }
    { x with
      queue := x.queue.erase r, parts := (List.range 16).map fun q => (q, step q), tok := if x.level = 0 then x.tok else x.tok - 16 * n
      last1 := if e1 then p else x.last1, last2 := if e1 then x.last2 else p }

/-- REGULATOR_ADMIT (R475, R478, R479). -/
def execRegulatorAdmit (stack : Fin 12) (s : State) : Res :=
  let x := s.stack stack.val
  let has (p : Nat) : Bool := x.wants p && decide (16 ≤ (x.part p).tok)
  .next (if decide (0 < x.level) && decide (x.tok < 16) then s
    else match rotate x.last1 fun p => has p && decide (256 ≤ (x.part p).cred) with
      | some p => s.setStack stack.val (x.take p true)
      | none => match rotate x.last2 has with
        | some p => s.setStack stack.val (x.take p false)
        | none => s)

/-! ### Patrol scrub -/

/-- The unit after one in the order of the scrub: HBM sectors, then the words of each local store (R487; log entry 17). -/
def State.scrubNext (s : State) (a : Nat) : Nat :=
  if a < 0x400000000000 then (if a + 32 < s.memsys.hbmTop then a + 32 else lsBase 0)
  else
    let c := (a - 0x400000000000) / 0x1000000
    if a % 0x1000000 + 8 < 0x200000 then a + 8 else if c < 255 then lsBase (c + 1) else 0

/-- PATROL_SCRUB (R486, R487, R831): one unit is read; a correctable error is rewritten and counted, an uncorrectable one poisoned and
logged. -/
def execPatrolScrub (ecc : Ecc) (s : State) : Res :=
  let a := s.memsys.scrub
  let next (s : State) : State := { s with memsys := { s.memsys with scrub := s.scrubNext a } }
  .next (if s.memsys.channels.isEmpty then s
    else match s.place a with
      | .hbm => next (((s.charge a 1 4).ecc a ecc).notice a 1)
      | .ls _ _ => next ((s.ecc a ecc).notice a 1)
      | _ => next s)

/-! ### Stack temperature -/

/-- The level that a reading gives (R489), from the level before it. -/
def levelOf (level t : Nat) : Nat :=
  if 100 ≤ t ∨ (level = 3 ∧ 95 < t) then 3 else if 94 ≤ t ∨ (2 ≤ level ∧ 91 < t) then 2 else if 88 ≤ t ∨ (1 ≤ level ∧ 85 < t) then 1 else 0

/-- A controller acts on a reading (R489): refresh rate, throttle level; entering LEVEL 3 sets HOT, with an event and a record. -/
def State.actTemp (s : State) (k : Nat) (x : Stack) (t : Nat) : State :=
  let l := levelOf x.level t
  let hot := decide (l = 3 ∧ x.level ≠ 3)
  let s := s.setStack k { x with level := l, refresh2x := decide (85 < t) || (x.refresh2x && decide (83 < t)), hot := x.hot || hot }
  if hot then (s.err 2 4 { sev := 0, act := 1, i0 := t, i1 := l }).event 3 5 0 k else s

/-- STACK_TEMP_READ (R488, R489, R491). -/
def execStackTempRead (stack : Fin 12) (temp : BitVec 8) (s : State) : Res :=
  let x := s.stack stack.val
  .next (s.actTemp stack.val { x with temp := temp.toNat, tempMax := max x.tempMax temp.toNat, lastRead := s.now, missing := false }
    temp.toNat)

/-- STACK_TEMP_MISSING (R488): 10 ms without a valid reading act as 100 °C, with a record. -/
def execStackTempMissing (stack : Fin 12) (s : State) : Res :=
  let x := s.stack stack.val
  .next (if x.missing || decide (s.now < x.lastRead + 10000000) || s.memsys.channels.isEmpty then s
    else (s.actTemp stack.val { x with missing := true } 100).err 2 4 { sev := 1, act := 1, i0 := x.temp, i1 := 3 })

end Sys2Proof.Machine
end

