-- ==== Sys2Proof/Machine/Lanes.lean ====
section
/-!
DEFINITION. Lanes and the Ethernet layer (R496 to R506, R536, R833): laser inputs, lane states, received frames.
-/
namespace Sys2Proof.Machine

/-! ### Lane states -/

/-- The engine of a lane. -/
def laneEngine (l : Nat) : Nat := if l < 128 then l / 8 else l - 128

/-- The power that feeds a lane, in hundredths of a dBm (R496, R499). -/
def State.lanePower (s : State) (l : Nat) : Int :=
  let e := tabGet {} s.fab.engines (laneEngine l)
  if l < 128 then (if l % 8 < 4 then e.la else e.lb) else if e.ctrlOnB then e.lb else e.la

/-- A lane leaves UP (R536, R554): FLAP, the event LANE_DOWN, and its queued frames are lost. -/
def State.leaveUp (s : State) (l : Nat) (st : LaneState) (test : Bool) : State :=
  let x := s.lane l
  if x.state ≠ .up then s
  else
    let s := s.setLane l { x with state := st, flap := true, downAt := s.now, test := test }
    State.event { s with fab := { s.fab with tx := s.fab.tx.filter fun f => decide (f.lane ≠ l) } } 5 1 (unitOfLane l) 0

/-- Every context sends what its window and the planes in service now let go. -/
def State.pumpAll (s : State) : State := s.fab.send.foldl (fun s p => s.pump p.1 (pumpFuel s p.1)) s

/-- LASER_POWER_CHANGE (R499): LASER_LOW below 16 dBm; below 14 dBm the lanes that the input feeds go DOWN; the control lane changes its
input. -/
def execLaserPowerChange (engine : Fin 16) (onB : Bool) (power : Int) (s : State) : Res :=
  let e := engine.val
  let x := tabGet {} s.fab.engines e
  let x := if onB then { x with lb := power } else { x with la := power }
  let x := if x.ctrlOnB then (if x.lb < 1400 then { x with ctrlOnB := false } else x)
    else if x.la < 1400 ∧ 1600 ≤ x.lb then { x with ctrlOnB := true } else x
  let s : State := { s with fab := { s.fab with engines := tabSet s.fab.engines e x } }
  .next (((List.range 8).map fun l => 8 * e + l) ++ [128 + e] |>.foldl (fun s l =>
    let p := s.lanePower l
    let s := s.setLane l { s.lane l with laserLow := decide (p < 1600) }
    if p < 1400 then s.leaveUp l .down false else s) s)

/-- LANE_DOWN (R536): loss of signal or alignment, or `codewords` uncorrectable codewords. A MISCABLED lane whose link goes down is
relinked. -/
def execLaneDown (lane : Fin 144) (codewords : BitVec 16) (s : State) : Res :=
  let l := lane.val
  let x := s.lane l
  let s := s.setLane l { x with fecUncorr := satAdd 0xFFFF x.fecUncorr codewords.toNat }
  .next (if x.state = .up then s.leaveUp l .down true
    else if x.state = .out ∧ x.miscabled then s.setLane l { s.lane l with state := .down, downAt := s.now }
    else s)

/-- The optical engines run (R817): from the OPTICAL stage on. -/
def State.lit (s : State) : Bool := s.clocked && s.boot.nganor && decide (3 ≤ s.boot.stage ∧ s.boot.stage ≤ 5)

/-- LANE_UP (R536, R758, R817): alignment held for 100 ms by a lane that is DOWN, has light and is not fenced, from the OPTICAL stage
on. Link UP is the lane's bring-up, so a FENCED entry becomes ACTIVE. -/
def execLaneUp (lane : Fin 144) (s : State) : Res :=
  let l := lane.val
  let x := s.lane l
  .next (if decide (x.state = .down) && !x.fenced && decide (1400 ≤ s.lanePower l) && decide (x.downAt + 100000000 ≤ s.now) && s.lit then
      let s := if (s.unit (unitOfLane l)).state = .fenced then s.unitJoin (unitOfLane l) else s
      ((s.setLane l { x with state := .up, miscabled := false, misTimes := [], test := false }).event 5 2 (unitOfLane l) 0).pumpAll
    else s)

/-- A loopback's result (R830, R833): a failure makes event 14 and fences the entry; a third failure in a row in service retires it. A pass
lets a lane that a failure fenced relink, and link UP returns its entry to ACTIVE (R758). -/
def State.loopback (s : State) (l : Nat) (pass : Bool) : State :=
  let u := unitOfLane l
  let x := s.lane l
  let s := s.setLane l { x with test := false, testAt := s.now, failures := if pass then 0 else x.failures + 1 }
  if pass then
    if x.fenced ∧ (s.unit u).state = .fenced then s.setLane l { s.lane l with state := .down, fenced := false, downAt := s.now } else s
  else
    let (s, perm) := s.history u 14
    if perm || decide (3 ≤ x.failures + 1) then s.retireUnit u 14
    else s.unitLeave u .fenced

/-- LANE_LOOPBACK (R833): of a lane that went DOWN for another cause than R499, MISCABLED or OUT. -/
def execLaneLoopback (lane : Fin 144) (pass : Bool) (s : State) : Res :=
  let x := s.lane lane.val
  .next (if x.test && decide (x.state = .down) then s.loopback lane.val pass else s)

/-- LOOPBACK_RETRY (R833): every 60 s while the lane's entry is FENCED. -/
def execLoopbackRetry (lane : Fin 144) (pass : Bool) (s : State) : Res :=
  let x := s.lane lane.val
  .next (if decide ((s.unit (unitOfLane lane.val)).state = .fenced) && decide (0 < x.failures) && decide (x.testAt + 60000000000 ≤ s.now) then
      s.loopback lane.val pass
    else s)

/-! ### Frames -/

/-- The MAC address of a lane of a device (R502). -/
def macOf (fabric plane : Nat) (dev : DevId) : Nat :=
  0x0E * 2 ^ 40 + fabric * 2 ^ 32 + plane * 2 ^ 24 + (2 * (dev / 2 ^ 17) + dev / 2 ^ 16 % 2) * 2 ^ 16 + dev % 2 ^ 16

/-- This device's MAC address on a lane; the control lanes' PLANE octet is 0x80 + e. -/
def State.mac (s : State) (l : Nat) : Nat := macOf s.fab.fabricId l s.me

/-- MISPLANE advances (R506, R554); the sixteenth within 1 s takes the lane OUT with MISCABLED. -/
def State.misplane (s : State) (l : Nat) : State :=
  let x := s.lane l
  let n := satAdd 0xFFFF x.misplane 1
  let times := s.now :: x.misTimes.filter fun t => decide (s.now < t + 1000000000)
  let s := s.setLane l { x with misplane := n, misTimes := times }
  if times.length < 16 then s
  else
    let s := s.leaveUp l .out false
    let s := s.setLane l { s.lane l with state := .out, miscabled := true, misTimes := [] }
    (s.err 3 1 { sev := 2, unit := unitOfLane l, i0 := l, i1 := n }).event 5 3 (unitOfLane l) 0

/-- The OPs of R513 and of Huddle, the tick and Relay (R557). -/
def knownOp (op : Nat) : Bool :=
  [1, 2, 3, 4, 5, 8, 9, 0xA, 0xB, 0x10, 0x11, 0x12, 0x18, 0x20, 0x40].contains op || decide (0x60 ≤ op ∧ op < 0x70)

/-- A frame is discarded as OTHER (R503, R513, R555). -/
def State.otherFrame (s : State) : State := { s with fab := { s.fab with other := satAdd 0xFFFF s.fab.other 1 } }

/-- FRAME_RECEIVE (R501, R503, R506, R513): an UP lane checks FCS, PAUSE, EtherType and plane; an Ilric packet passes to the Ilric
engine. An accepted IPv4 frame passes to the rows of R592. -/
def execFrameReceive (lane : Fin 144) (f : Frame) (s : State) : Res :=
  let l := lane.val
  let x := s.lane l
  .next (if !s.laneUp l || !s.clocked then s
    else if !f.fcsOk then s.setLane l { x with badFcs := x.badFcs + 1 }
    else if f.etype = 0x8808 then s.setLane l { x with pauseRx := satAdd 0xFFFF x.pauseRx 1 }
    else if f.etype = s.fab.etype then
      if f.dst ≠ s.mac l ∨ f.src / 2 ^ 24 ≠ s.mac l / 2 ^ 24 then s.misplane l
      else match packetOf f.body with
        | some p => if knownOp p.op then { s with fab := { s.fab with rx := s.fab.rx ++ [(l, f.body)] } } else s.otherFrame
        | none => s.otherFrame
    else if f.etype = 0x0800 then (if f.dst ≠ s.mac l then s.misplane l else s)
    else if f.etype = 0x86DD then s
    else s.otherFrame)

end Sys2Proof.Machine
end

