-- ==== Sys2Proof/Machine/Ilric.lean ====
section
/-!
DEFINITION. The Ilric engine (R513 to R531, R537): receive contexts and acknowledgements, operations at their destination, responses at the
requester, windows, retransmission.
-/
namespace Sys2Proof.Machine

/-! ### Receive contexts -/

/-- A receive context. -/
def State.recvCtx (s : State) (k : Nat) : Option RecvCtx := tabFind s.fab.recv k

/-- Put a receive context. -/
def State.setRecv (s : State) (k : Nat) (x : RecvCtx) : State := { s with fab := { s.fab with recv := tabSet s.fab.recv k x } }

/-- The lane on which an ACK goes: that of the latest arrival, or the next in service (log entry 18). -/
def State.ackLane (s : State) (k l : Nat) : Option Nat :=
  let (n, base) := keyLanes k
  ((List.range n).map fun i => base + (l - base + i) % n).find? s.laneUp

/-- An ACK of context `k` (R528): CUM, BITMAP, the echo, LATE and NEW. -/
def State.sendAck (s : State) (k : Nat) (x : RecvCtx) : State :=
  let bits := (List.range 64).foldl (fun m i => if x.got.contains (x.cum + 1 + i) then m + 2 ^ i else m) 0
  let p : Packet := { op := 0x40, cls := 0, src := s.me, epoch := x.epoch, psn := x.cum % 2 ^ 32, addr := bits, txTime := x.lastTx
                      job := x.lateCnt, aux := x.newCnt }
  let s := s.setRecv k { x with newCnt := 0, lateCnt := 0, unacked := 0 }
  match s.ackLane k x.lane with
  | some l => s.queueFrame l (k % 2 ^ 18) p
  | none => s

/-- An ACK that refuses one PSN (R531). -/
def State.sendRnr (s : State) (k : Nat) (x : RecvCtx) (p : Packet) : State :=
  let a : Packet := { op := 0x40, flags := 4, cls := 0, src := s.me, epoch := x.epoch, psn := x.cum % 2 ^ 32, addr := p.psn
                      txTime := p.txTime }
  let s : State := { s with fab := { s.fab with rnrCnt := satAdd 0xFFFF s.fab.rnrCnt 1 } }
  match s.ackLane k x.lane with
  | some l => s.queueFrame l (k % 2 ^ 18) a
  | none => s

/-- CUM passes what has been received. -/
def advanceCum (cum : Nat) (got : List Nat) : Nat → Nat × List Nat
  | 0 => (cum, got)
  | fuel + 1 => if got.contains cum then advanceCum (cum + 1) (got.filter (decide <| · ≠ cum)) fuel else (cum, got)

/-- A packet is late (R526). -/
def State.late (s : State) (tx : Nat) : Bool := decide ((s.fab.dMark : Int) < signed 32 ((s.tick + 2 ^ 32 - tx % 2 ^ 32) % 2 ^ 32))

/-- The context that a packet meets (R527): none where it is discarded. -/
def State.meetCtx (s : State) (k : Nat) (p : Packet) : State × Option RecvCtx :=
  match s.recvCtx k with
  | none =>
    if (s.fab.recv.filter fun q => keyControl q.1 == keyControl k).length < (if keyControl k then 1024 else 16384) then
      (s, some { epoch := p.epoch })
    else ({ s with fab := { s.fab with ctxFull := satAdd 0xFFFF s.fab.ctxFull 1 } }, none)
  | some x =>
    let d := signed 16 ((p.epoch + 65536 - x.epoch) % 65536)
    if d = 0 then (s, some x)
    else if 0 < d then (s, some { epoch := p.epoch })
    else ({ s with fab := { s.fab with stale := satAdd 0xFFFF s.fab.stale 1 } }, none)

/-- A packet of a context is received (R527, R528): `f` processes it, or refuses it (R531). Each PSN takes effect at most once. -/
def State.inOrder (s : State) (lane : Nat) (p : Packet) (f : State → Option State) : State :=
  let k := ctxKey (decide (128 ≤ lane)) p.src
  match s.meetCtx k p with
  | (s, none) => s
  | (s, some x) =>
    let x := { x with lane := lane, lastArrival := s.now }
    let d := signed 32 ((p.psn + 2 ^ 32 - x.cum % 2 ^ 32) % 2 ^ 32)
    let n := x.cum + d.toNat
    if d < 0 ∨ x.got.contains n then s.sendAck k { x with lastTx := p.txTime }
    else if 4096 ≤ d then s.setRecv k x
    else match f (s.setRecv k x) with
      | none => (s.setRecv k x).sendRnr k x p
      | some s =>
        let (cum, got) := advanceCum x.cum (n :: x.got) 4097
        let x := { x with
          cum := cum, got := got, newCnt := x.newCnt + 1, lateCnt := x.lateCnt + b2n (s.late p.txTime), unacked := x.unacked + 1
          firstUnacked := if x.unacked = 0 then s.now else x.firstUnacked, lastTx := p.txTime }
        if 16 ≤ x.unacked then s.sendAck k x else s.setRecv k x

/-- A received packet of one OP that a context orders. -/
def State.rxPacket (s : State) (lane op : Nat) (p : Packet) (f : State → Option State) : State :=
  if p.op ≠ op then s
  else match s.takeRx lane p with
    | some s => s.inOrder lane p f
    | none => s

/-! ### Requests at their destination -/

/-- The tags that a destination accepts for an address (R518, R773). -/
def State.jobOk (s : State) (p : Packet) : Bool :=
  (decide (p.job = s.job.tag) && decide (s.job.state ≠ .none) &&
    (decide (s.job.state ≠ .staging) || (decide (p.op = 1) && s.job.stages.any fun g =>
      decide (g.station = p.src ∧ g.base ≤ p.addr ∧ p.addr + p.payload.length ≤ g.base + g.length)))) ||
  (s.ss.binding.any fun b => decide (p.job = b.tag ∧ b.base ≤ p.addr ∧ p.addr + p.payload.length ≤ b.base + b.bytes))

/-- A request that cannot be performed is answered with STATUS (R519, R555). -/
def State.refuse (s : State) (p : Packet) (code : Nat) : State :=
  let s : State := if code = 2 then { s with fab := { s.fab with denied := satAdd 0xFFFF s.fab.denied 1 } } else s
  let s := if code = 4 then s.devFault 2 3 { poison := true, addr := p.addr, i0 := 6 } else s
  s.answer p.src p.aux [{ op := 0x12, cls := 0, addr := code, job := p.job }]

/-- A DATA request under R518: refused with DENIED where its tag does not match. -/
def State.request1 (s : State) (p : Packet) (f : State → State ⊕ Nat) : Option State :=
  some (if !s.jobOk p then s.refuse p 2
    else match f s with
      | .inl s => s
      | .inr n => s.refuse p n)

/-- The class of a remote operation that names a partition (R478, R512). -/
def Packet.charge (p : Packet) : Nat := 3 + 8 * (p.part + 1)

/-- WRITE (R514, R515, R518, R773). -/
def execWrite (lane : Fin 144) (p : Packet) (s : State) : Res :=
  .next (s.rxPacket lane.val 1 p fun s => s.request1 p fun s => s.deviceWrite p.addr p.payload false p.charge false)

/-- READ (R516, R519): RLEN bytes come back as READ_DATA. -/
def execRead (lane : Fin 144) (p : Packet) (s : State) : Res :=
  .next (s.rxPacket lane.val 2 p fun s => s.request1 p fun s =>
    let ret := leAt p.payload 0 8
    let n := leAt p.payload 8 4
    match s.refuses p.addr n with
    | some k => .inr k
    | none =>
      let (s, bs, bad) := s.load p.addr n p.charge
      if bad then .inr 4
      else .inl (s.answer p.src p.aux ((cutData ret bs (bs.length + 1)).map fun c =>
        { op := 0x10, cls := 0, addr := c.1, job := p.job, payload := c.2 })))

/-- REDUCE_WRITE F32 (R463, R517). -/
def execReduceWriteF32 (lane : Fin 144) (p : Packet) (s : State) : Res :=
  .next (s.rxPacket lane.val 3 p fun s => s.request1 p fun s => s.reduceAt 1 p.addr p.payload p.charge)
/-- REDUCE_WRITE H16 (R463, R517). -/
def execReduceWriteH16 (lane : Fin 144) (p : Packet) (s : State) : Res :=
  .next (s.rxPacket lane.val 4 p fun s => s.request1 p fun s => s.reduceAt 2 p.addr p.payload p.charge)
/-- REDUCE_WRITE I32 (R463, R517). -/
def execReduceWriteI32 (lane : Fin 144) (p : Packet) (s : State) : Res :=
  .next (s.rxPacket lane.val 5 p fun s => s.request1 p fun s => s.reduceAt 3 p.addr p.payload p.charge)

/-- An atomic that returns the old value to the address at `off` of its payload (R518). -/
def State.remoteAtomic (s : State) (p : Packet) (op off : Nat) : Option State :=
  s.request1 p fun s =>
    match s.atomicAt op p.addr (leAt p.payload 0 8) (leAt p.payload 8 8) p.charge with
    | .inr n => .inr n
    | .inl (s, old) => .inl (if op = 0 then s else
        s.answer p.src p.aux [{ op := 0x11, cls := 0, addr := leAt p.payload off 8, job := p.job, payload := leBytes 8 old }])

/-- ATOMIC ADD (R518): at an EV_ADD address it is an arrival (R268). -/
def execAtomicAdd (lane : Fin 144) (p : Packet) (s : State) : Res := .next (s.rxPacket lane.val 8 p fun s => s.remoteAtomic p 0 0)
/-- ATOMIC FETCH_ADD (R518). -/
def execAtomicFetchAdd (lane : Fin 144) (p : Packet) (s : State) : Res := .next (s.rxPacket lane.val 9 p fun s => s.remoteAtomic p 1 8)
/-- ATOMIC SWAP (R518). -/
def execAtomicSwap (lane : Fin 144) (p : Packet) (s : State) : Res := .next (s.rxPacket lane.val 0xA p fun s => s.remoteAtomic p 2 8)
/-- ATOMIC CAS (R518). -/
def execAtomicCas (lane : Fin 144) (p : Packet) (s : State) : Res := .next (s.rxPacket lane.val 0xB p fun s => s.remoteAtomic p 3 16)

/-- COLL_DATA (R531, R545 to R550): taken by the posted collective of its COLL_ID; refused with RNR where none is posted. -/
def execCollData (lane : Fin 144) (p : Packet) (s : State) : Res :=
  .next (s.rxPacket lane.val 0x18 p fun s =>
    if !s.jobOk p then some (s.refuse p 2)
    else match s.fab.posts.find? fun q => decide (q.desc.collId = p.addr / 2 ^ 32) && q.coll.isSome with
      | none => none
      | some q => match q.coll with
        | none => none
        | some k =>
          let i := k.members.idxOf p.src
          if k.members.length ≤ i then some (s.refuse p 2)
          else
            let k := { k with got := k.got ++ [(i, p.addr % 2 ^ 32 * 32, p.payload)] }
            let s := s.modPost q.id fun q => { q with coll := some k }
            some (s.collPump q.id ((collPlan q.desc.kind k.members.length k.me).length + 1)))

/-- CTRL (R513): a control message passes to Nganor. -/
def execCtrl (lane : Fin 144) (p : Packet) (s : State) : Res :=
  .next (s.rxPacket lane.val 0x20 p fun s => some { s with fab := { s.fab with ctrl := s.fab.ctrl ++ [(p.src, p.payload)] } })

/-! ### Responses at the requester -/

/-- Change an operation. -/
def State.modOp (s : State) (opid : Nat) (f : FabOp → FabOp) : State :=
  { s with fab := { s.fab with ops := s.fab.ops.map fun o => if o.opid = opid then f o else o } }

/-- Operations that are complete go: every packet acknowledged and every byte returned, without an error. -/
def State.dropDone (s : State) : State :=
  { s with fab := { s.fab with ops := s.fab.ops.filter fun o => !decide (o.left = 0 ∧ o.toReturn = 0 ∧ o.status = 0) } }

/-- An operation completes with error (R327, R520). A stream item keeps its status until the slot takes it (R297). -/
def State.opFails (s : State) (o : FabOp) (status : Nat) : State :=
  let gone : State := { s with fab := { s.fab with ops := s.fab.ops.filter fun q => decide (q.opid ≠ o.opid) } }
  match o.origin with
  | .item _ _ _ => s.modOp o.opid fun o => { o with status := status }
  | .signal c => gone.ifault c 0x06 false 0 0xF
  | .post id => match s.fab.posts.find? fun p => decide (p.id = id) with
    | some p => State.postFail { s with fab := { s.fab with ops := s.fab.ops.filter fun q => decide (q.origin ≠ .post id) } } p
    | none => gone
  | _ => gone

/-- The operation that a response names: its OPID in AUX and its destination. -/
def State.opOf (s : State) (p : Packet) : Option FabOp :=
  s.fab.ops.find? fun o => decide (o.opid % 65536 = p.aux ∧ o.dest = p.src) && decide (o.origin ≠ .respond)

/-- The class under which returned bytes are written: that of the operation's origin (R478). -/
def State.originCls (s : State) (o : Origin) : Nat :=
  match o with
  | .item c q _ => let d := ((s.cl c).slot q).desc; d.cls + 8 * (d.part + 1)
  | .post id => ((s.fab.posts.find? fun p => decide (p.id = id)).map fun p => p.desc.cls).getD 3
  | .stream => 2
  | _ => 3

/-- Bytes come back to an operation (R516, R542): the first read of a verified fetch is the owner's record (R393); others are written at
their return address. -/
def State.returned (s : State) (p : Packet) : State :=
  match s.opOf p with
  | none => s
  | some o =>
    let s' := (s.modOp o.opid fun o => { o with toReturn := o.toReturn - p.payload.length }).dropDone
    match o.origin with
    | .post id =>
      if s.step.fetches.any fun f => decide (f.post = id ∧ f.stage = 0) then s'.fetchGot id p.payload
      else s'.store p.addr p.payload false (s.originCls o.origin)
    | _ => match s.refuses p.addr p.payload.length with
      | some _ => s'
      | none => s'.store p.addr p.payload false (s.originCls o.origin)

/-- READ_DATA (R516). -/
def execReadData (lane : Fin 144) (p : Packet) (s : State) : Res := .next (s.rxPacket lane.val 0x10 p fun s => some (s.returned p))
/-- ATOMIC_RESULT (R518, R542). -/
def execAtomicResult (lane : Fin 144) (p : Packet) (s : State) : Res := .next (s.rxPacket lane.val 0x11 p fun s => some (s.returned p))
/-- STATUS (R519, R520). -/
def execStatus (lane : Fin 144) (p : Packet) (s : State) : Res :=
  .next (s.rxPacket lane.val 0x12 p fun s => some (match s.opOf p with
    | some o => s.opFails o (p.addr % 256)
    | none => s))

/-! ### Sending: acknowledgements, windows, retransmission -/

/-- The window follows an ACK (R526). -/
def SendCtx.adjust (x : SendCtx) (wMax new late : Nat) : SendCtx :=
  let f := x.f + (new : Rat)
  let m := x.m + (late : Rat)
  let top : Rat := (wMax : Rat)
  let w := if late = 0 then (if top < x.w + (new : Rat) / x.w then top else x.w + (new : Rat) / x.w) else x.w
  if w ≤ f then
    let alpha := if f = 0 then x.alpha else x.alpha + (m / f - x.alpha) / 16
    let w := if 0 < m then (if w * (1 - alpha / 2) < 1 then 1 else w * (1 - alpha / 2)) else w
    { x with w := w, f := 0, m := 0, alpha := alpha }
  else { x with w := w, f := f, m := m }

/-- The destination is unreachable (R529): every operation to it completes with UNREACHABLE. -/
def State.unreachable (s : State) (k opid : Nat) : State :=
  let d := k % 2 ^ 18
  let s : State := match s.sendCtx k with
    | some x => s.setSend k { x with waiting := [], out := [] }
    | none => s
  let s := State.total { s with fab := { s.fab with giveup := satAdd 0xFFFF s.fab.giveup 1 } } 8 1
  let s := (s.err 3 2 { i0 := d, i1 := opid }).event 5 4 0 d
  (s.fab.ops.filter fun o => decide (o.dest = d)).foldl (fun s o => s.opFails o 5) s

/-- Retransmit a packet (R523, R529, R537): on the next plane in service after its last, with RETX set. A timeout excludes that plane for
1 ms; after RNR the retransmission does not count. -/
def State.retransmit (s : State) (k : Nat) (q : SentPkt) (timeout : Bool) : State :=
  if q.rnrAt.isNone ∧ 16 ≤ q.retx then s.unreachable k q.opid
  else match s.sendCtx k with
    | none => s
    | some x =>
      let x := if timeout && q.rnrAt.isNone then
          { x with excl := (q.plane, s.now + 1000000) :: x.excl.filter fun e => decide (e.1 ≠ q.plane) } else x
      let s := State.total { s with fab := { s.fab with retxCnt := satAdd 0xFFFFFFFF s.fab.retxCnt 1 } } 7 1
      match s.nextPlane k x (q.plane + 1) with
      | none => s.setSend k x
      | some lane =>
        let p := { q.pkt with flags := q.pkt.flags % 2 + 2, txTime := s.tick % 2 ^ 32 }
        let q' : SentPkt := { q with pkt := p, sentAt := s.now, plane := lane - (keyLanes k).2, rnrAt := none
                                     retx := if q.rnrAt.isSome then q.retx else q.retx + 1 }
        (s.setSend k { x with out := x.out.map fun y => if y.pkt.psn = q.pkt.psn then q' else y }).queueFrame lane (k % 2 ^ 18) p

/-- A packet is acknowledged: one packet fewer of its operation is outstanding (R515, R520). -/
def State.acked (s : State) (q : SentPkt) : State := s.modOp q.opid fun o => { o with left := o.left - 1 }

/-- An ACK reaches context `k` (R526, R528, R529, R531). -/
def State.takeAck (s : State) (k : Nat) (x : SendCtx) (p : Packet) : State :=
  if bitN p.flags 2 then
    s.setSend k { x with out := x.out.map fun q => if q.pkt.psn = p.addr % 2 ^ 32 then { q with rnrAt := some s.now } else q }
  else
    let done (q : SentPkt) : Bool :=
      let d := signed 32 ((q.pkt.psn + 2 ^ 32 - p.psn) % 2 ^ 32)
      decide (d < 0) || (decide (1 ≤ d ∧ d ≤ 64) && bitN p.addr (d.toNat - 1))
    let acks := x.out.filter done
    let latest := acks.foldl (fun m q => max m q.sentAt) 0
    let x := { x.adjust s.fab.wMax p.aux p.job with out := x.out.filter fun q => !done q, idleSince := s.now }
    let s := (acks.foldl State.acked (s.setSend k x)).dropDone
    let s := (x.out.filter fun (q : SentPkt) => decide (q.sentAt + 4000 < latest) && q.rnrAt.isNone).foldl (fun s q => s.retransmit k q false) s
    s.pump k (pumpFuel s k)

/-- ACK (R526, R528, R529). -/
def execAck (lane : Fin 144) (p : Packet) (s : State) : Res :=
  let k := ctxKey (decide (128 ≤ lane.val)) p.src
  .next (if p.op ≠ 0x40 then s
    else match s.takeRx lane.val p with
      | none => s
      | some s => match s.sendCtx k with
        | some x => if x.epoch = p.epoch then s.takeAck k x p else s
        | none => s)

/-- ACK_TIMER (R528): 2 µs after the first unacknowledged arrival. -/
def execAckTimer (src : Nat) (s : State) : Res :=
  .next (match s.recvCtx src with
    | some x => if decide (0 < x.unacked) && decide (x.firstUnacked + 2000 ≤ s.now) then s.sendAck src x else s
    | none => s)

/-- RETRANSMIT_TIMEOUT (R529, R531, R537). -/
def execRetransmitTimeout (dest psn : Nat) (s : State) : Res :=
  .next (match (s.sendCtx dest).bind fun x => x.out.find? fun q => decide (q.pkt.psn = psn) with
    | none => s
    | some q =>
      let due := match q.rnrAt with
        | some t => t + 20000
        | none => q.sentAt + (if q.retx < 4 then 20000 else 200000)
      if due ≤ s.now then s.retransmit dest q true else s)

/-- SEND_CONTEXT_FREE (R521): a context idle for 100 µs goes, and operations that waited for one are sent. -/
def execSendContextFree (dest : Nat) (s : State) : Res :=
  .next (match s.sendCtx dest with
    | none => s
    | some x =>
      if x.out.isEmpty && x.waiting.isEmpty && decide (x.idleSince + 100000 ≤ s.now) then
        let wait := s.fab.blocked
        let s : State := { s with fab := { s.fab with send := tabDel s.fab.send dest, blocked := [] } }
        wait.foldl (fun s b => s.sendPkt (keyControl b.1) (b.1 % 2 ^ 18) b.2.1 b.2.2) s
      else s)

/-- RECEIVE_CONTEXT_FREE (R530). -/
def execReceiveContextFree (src : Nat) (s : State) : Res :=
  .next (match s.recvCtx src with
    | some x => if x.lastArrival + 4000000 ≤ s.now then { s with fab := { s.fab with recv := tabDel s.fab.recv src } } else s
    | none => s)

/-- PLANE_EXCLUSION_EXPIRE (R537). -/
def execPlaneExclusionExpire (dest plane : Nat) (s : State) : Res :=
  .next (match s.sendCtx dest with
    | some x => State.pump (s.setSend dest { x with excl := x.excl.filter fun e => !decide (e.1 = plane ∧ e.2 ≤ s.now) }) dest (pumpFuel s dest)
    | none => s)

end Sys2Proof.Machine
end

