-- ==== Sys2Proof/Machine/Clock.lean ====
section
/-!
DEFINITION. The reference PLL and its sources, and the generators of the regions (spec/17_clocking.md).
-/
namespace Sys2Proof.Machine

/-- Source 0 A, 1 B or 2 F (R716). -/
def ClockSt.src (k : ClockSt) (i : Nat) : SrcSt := if i = 0 then k.a else if i = 1 then k.b else k.f

/-- Put a source. -/
def ClockSt.setSrc (k : ClockSt) (i : Nat) (x : SrcSt) : ClockSt :=
  if i = 0 then { k with a := x } else if i = 1 then { k with b := x } else { k with f := x }

/-- The eligible sources in order (R695, R716). -/
def ClockSt.eligible (k : ClockSt) : List Nat :=
  let all := [fld k.cfgUsed 1 0, fld k.cfgUsed 3 2, fld k.cfgUsed 5 4]
  (if bitN k.cfgUsed 9 then all.take 1 else all).filter fun i => decide (i < 3)

/-- The best source (R695). -/
def ClockSt.best (k : ClockSt) : Option Nat := k.eligible.find? fun i => decide ((k.src i).state = .qualified)

/-- Change the clock block. -/
def State.modClk (s : State) (f : ClockSt → ClockSt) : State := { s with clk := f s.clk }

/-- A switch to a source starts (R699). SELECTED names it from here on (DEDUCED, log entry 19). -/
def State.startSwitch (s : State) (i : Nat) : State :=
  s.modClk fun k => { k with pll := .switching, selected := i, recheck := false, revertPending := false }

/-- From HOLDOVER a switch starts as soon as a best source exists (R697). -/
def State.leaveHoldover (s : State) : State :=
  if s.clk.pll = .holdover then
    match s.clk.best with
    | some i => s.startSwitch i
    | none => s
  else s

/-- The selected source is LOST (R697): HOLDOVER, the record and the event, and a switch at once where there is a best source. -/
def State.loseSelected (s : State) : State :=
  let i := s.clk.selected
  let s := s.modClk fun k =>
    { k with pll := .holdover, holdoverSeen := true, holdAt := s.now, losses := satAdd 0xFFFF k.losses 1 }
  ((s.err 9 1 { sev := 2, i0 := i }).event 4 1 0 i).leaveHoldover

/-- The PLL follows a source: LOCKED or SWITCHING. -/
def ClockSt.follows (k : ClockSt) : Bool := k.pll == .locked || k.pll == .switching

/-- Source `i` becomes LOST (R694, R702); FAILED outlasts it. -/
def State.loseSource (s : State) (i : Nat) : State :=
  let x := s.clk.src i
  let s := s.modClk fun k => k.setSrc i { x with state := if x.state = .failed then .failed else .lost, good := 0 }
  if s.clk.follows && decide (s.clk.selected = i) then s.loseSelected else s

/-- REF_LOSS (R697, R714). -/
def execRefLoss (s : State) : Res := .next (if s.clk.follows then s.loseSource s.clk.selected else s)

/-- Ask for a switch at the next synchronised count (R700, R704). -/
def State.askSwitch (s : State) : State :=
  { s with hud := { s.hud with changes := s.hud.changes ++ [(nextSync s.tick, .refSwitch)] } }

/-- A source that ranks above the selected one is the best (R700). -/
def ClockSt.better (k : ClockSt) : Bool :=
  match k.best with
  | some i => decide (k.eligible.idxOf i < k.eligible.idxOf k.selected)
  | none => false

/-- While LOCKED, a switch back or a choice made anew is asked for once (R700, R701, R704, R714). -/
def State.wantSwitch (s : State) : State :=
  let k := s.clk
  if k.pll = .locked ∧ !k.revertPending ∧ bitN k.cfgUsed 8 ∧ k.better then
    (s.modClk fun k => { k with revertPending := true }).askSwitch
  else if k.pll = .locked ∧ k.recheck then s.askSwitch
  else s

/-- At a synchronised count (R700, R701, R704): the switch that was asked for starts, if it still stands. -/
def State.countSwitch (s : State) : State :=
  let k := s.clk
  if k.pll = .locked ∧ (k.recheck ∨ k.revertPending) then
    match k.best with
    | some i =>
      if i ≠ k.selected ∧ (k.recheck ∨ k.better) then s.startSwitch i
      else s.modClk fun k => { k with recheck := false, revertPending := false }
    | none => s.modClk fun k => { k with recheck := false, revertPending := false }
  else s

/-- Whether a source's window is good: no loss, and within the frequency limit (R702); F also needs OE0.C UP. -/
def State.goodWindow (s : State) (i : Nat) (r : WindowResult) : Bool :=
  !r.lost && decide (r.ppb.natAbs ≤ if s.clk.pll = .free then 1000000 else 250000) && (i != 2 || s.laneUp 128)

/-- A source at the end of a window (R694, R718). A source whose edges have come back is QUALIFYING. -/
def State.windowOf (s : State) (i : Nat) (r : WindowResult) : State :=
  let x := s.clk.src i
  let x := { x with freq := clampInt (-(2 ^ 31)) (2 ^ 31 - 1) r.ppb }
  if s.goodWindow i r then
    let n := min 10 (x.good + 1)
    s.modClk fun k => k.setSrc i { x with
      good := n, state := if x.state = .failed then .failed else if n = 10 then .qualified else .qualifying }
  else
    let s := (s.modClk fun k => k.setSrc i x).loseSource i
    if r.live && s.goodWindow i { r with lost := false } then
      s.modClk fun k => k.setSrc i { k.src i with state := if (k.src i).state = .failed then .failed else .qualifying }
    else s

/-- REF_MONITOR_WINDOW (R694, R697, R700). -/
def execRefMonitorWindow (a b f : WindowResult) (s : State) : Res :=
  .next (((((s.windowOf 0 a).windowOf 1 b).windowOf 2 f).leaveHoldover).wantSwitch)

/-- PLL_SWITCH_COMPLETE (R699, R700, R714). -/
def execPllSwitchComplete (s : State) : Res :=
  .next (if s.clk.pll = .switching then
    (((s.modClk fun k => { k with pll := .locked, switches := satAdd 0xFFFF k.switches 1 }).event 4 2 0 s.clk.selected).wantSwitch)
  else s)

/-- REF_MON as it reads (R718). -/
def SrcSt.mon (x : SrcSt) : Nat :=
  x.jitter + x.duty * 2 ^ 16 + b2n x.tested * 2 ^ 26 + b2n x.pass * 2 ^ 27 + unsigned 32 x.freq * 2 ^ 32

/-- The test of one source (R702 to R704); of a LOST source none is made. -/
def State.testSource (s : State) (i : Nat) (r : TestResult) : State :=
  let x := s.clk.src i
  if x.state = .lost ∨ (x.state = .failed ∧ x.good = 0) then s
  else
    let ok := decide (r.jitter.toNat ≤ 25 ∧ 450 ≤ r.duty.toNat ∧ r.duty.toNat ≤ 550)
    let x := { x with jitter := r.jitter.toNat, duty := r.duty.toNat, tested := true, pass := ok
                      state := if !ok then .failed else if x.good = 10 then .qualified else .qualifying }
    let s := s.modClk fun k => k.setSrc i x
    if !ok && decide (s.clk.selected = i) then
      ((s.modClk fun k => { k with testFail := true, recheck := true }).err 9 2 { sev := 2, i0 := i, i1 := x.mon }).event 4 3 0 i
    else s

/-- The test of the three sources ends (R703). -/
def State.testSources (s : State) (a b f : TestResult) : State :=
  ((((s.testSource 0 a).testSource 1 b).testSource 2 f).leaveHoldover).wantSwitch

/-- JITTER_TEST_COMPLETE (R703, R704): before the PLL first locks, and in recovery. -/
def execJitterTestComplete (a b f : TestResult) (s : State) : Res :=
  .next (if s.clk.pll = .free ∨ s.clk.testing then s.testSources a b f else s)

/-- The class of a generator, by its row in R705, and its index. -/
def Generator.place : Generator → Nat × Nat
  | .slot k => (0, k.val) | .slice k => (1, k.val) | .mesh k => (2, k.val) | .phy k => (3, k.val) | .engine e => (4, e.val) | .hub => (5, 0)

/-- A slot that a fault takes out (R829, R830, R834): the history event, FENCED or RETIRED, and STOP where its cluster is part of a
job. -/
def State.slotFails (s : State) (k event : Nat) : State :=
  let u := unitId 1 k
  let (s, perm) := s.history u event
  let mapped := decide ((s.unit u).logical < 256)
  let s := if perm then s.retireUnit u event else if (s.unit u).state = .active then s.unitLeave u .fenced else s
  if s.jobRuns && mapped then { s with step := { s.step with failing := true } } else s

/-- GEN_UNLOCK (R702, R710). -/
def execGenUnlock (gen : Generator) (s : State) : Res :=
  let (c, i) := gen.place
  let s := s.modClk fun k => { k with genUnlock := satAdd 0xFFFF k.genUnlock 1 }
  let e : ErrInfo := { sev := 2, i0 := Config.generatorClass c, i1 := i }
  .next (match gen with
    | .slot k =>
      let s := ((s.setDom k.val { s.dom k.val with gated := true }).err 9 3 { e with act := 3, unit := unitId 1 k.val }).event 4 4 0 s.clk.genUnlock
      s.slotFails k.val 3
    | .engine e' =>
      let s := (s.err 9 3 e).event 4 4 0 s.clk.genUnlock
      let s := (((List.range 8).map fun l => 8 * e'.val + l) ++ [128 + e'.val]).foldl (fun s l => s.leaveUp l .down true) s
      if e'.val = 0 then s.loseSource 2 else s
    | _ => (s.devFault 9 3 e).event 4 4 0 s.clk.genUnlock)

end Sys2Proof.Machine
end

