-- ==== Sys2Proof/Machine/Tick.lean ====
section
/-!
DEFINITION. The system tick (R572 to R577) and what happens at a synchronised count (R578 to R580, R656, R671, R700, R701).
-/
namespace Sys2Proof.Machine

/-- The devices of a tick tree (R573). -/
def treeSize : Nat := 131072

/-- The index of a device of this half in the tick tree (R573). -/
def State.treeIndex (s : State) (device : Nat) : Nat := (device + treeSize - s.hud.useRoot) % treeSize

/-- The device at an index of the tick tree. -/
def State.treeDevice (s : State) (i : Nat) : Nat := (i + s.hud.useRoot) % treeSize

/-- A device of this half as an Ilric destination. -/
def State.halfDev (s : State) (device : Nat) : DevId := s.fab.half * 2 ^ 17 + device

/-- The parent of this device by the rule of R573. -/
def State.treeUp (s : State) : Nat := s.treeDevice (treeParent (s.treeIndex s.fab.device))

/-- Change the Huddle block. -/
def State.modHud (s : State) (f : HuddleSt → HuddleSt) : State := { s with hud := f s.hud }

/-- Send a tick frame (R557, R559). -/
def State.sendTick (s : State) (device op child : Nat) (pay : List Byte) : State :=
  s.sendTwice (s.halfDev device) s.fab.device { op := op, psn := edgeLevel (s.treeIndex child), payload := pay }

/-- One exchange of a burst begins: T1 is now. -/
def State.sendSync (s : State) : State :=
  (s.sendTick s.hud.parent 0x64 s.fab.device (leBytes 8 s.tick)).modHud fun h => { h with burstLeft := h.burstLeft - 1 }

/-- The device enters HOLDOVER (R575, R577). -/
def State.tickHoldover (s : State) : State :=
  if s.hud.tickState = .holdover then s.modHud fun h => { h with goodBursts := 0 }
  else
    let s := s.modHud fun h =>
      { h with tickState := .holdover, lockLost := h.lockLost || decide (h.tickState = .locked), goodBursts := 0 }
    (s.err 4 2 { sev := 2, i0 := s.hud.parent }).event 5 6 0 s.hud.parent

/-- The best exchange of a burst: the one with the smallest (T4 − T1) − (T3 − T2) (R574). -/
def bestExchange (b : List (Nat × Nat × Nat × Nat)) : Option (Nat × Nat × Nat × Nat) :=
  let trip (x : Nat × Nat × Nat × Nat) : Int := ((x.2.2.2 : Int) - x.1) - ((x.2.2.1 : Int) - x.2.1)
  b.foldl (fun m x => match m with
    | none => some x
    | some y => if trip x < trip y then some x else some y) none

/-- A burst ends (R574, R575): the offset, one step in ACQUIRING without a job, slewing, and LOCKED after four good bursts. The tick
never moves backward (R572). A job start barrier may have waited for LOCKED (R566). -/
def State.closeBurst (s : State) : State :=
  match bestExchange s.hud.burst with
  | none => s
  | some (t1, t2, t3, t4) =>
    let o : Int := (((t2 : Int) - t1) - ((t4 : Int) - t3)) / 2
    let jump := decide (s.hud.tickState = .acquiring) && !s.hud.stepped && !s.jobRuns && decide (0 < o)
    let n := if o.natAbs ≤ 10 then s.hud.goodBursts + 1 else 0
    let lock := decide (4 ≤ n)
    let s : State := { s with tick := if jump then s.tick + o.toNat else s.tick }
    let s := s.modHud fun h => { h with
      burst := [], offset := o, goodBursts := n, stepped := h.stepped || jump, slew := if jump then 0 else o, slewAcc := 0
      tickState := if lock then .locked else h.tickState }
    if lock then s.tryBarrier else s

/-- TICK_SYNC_BURST (R574): a device with a parent begins its eight exchanges, 4 µs apart. -/
def execTickSyncBurst (s : State) : Res :=
  .next (if s.hud.tickState = .free ∨ s.hud.isRoot ∨ s.now < s.hud.burstAt + 1048576 then s
    else (s.closeBurst.modHud fun h => { h with burst := [], burstAt := s.now, burstLeft := 8 }).sendSync)

/-- T_SYNC (R574): answered with the receive and send times and the state of this device's tick. -/
def execTSync (lane : Fin 144) (p : Packet) (s : State) : Res :=
  .next (if p.op ≠ 0x64 then s else s.onceRx lane.val p (leAt p.payload 0 8) fun s =>
    if s.hud.tickState = .free ∨ p.src / 2 ^ 17 ≠ s.fab.half then s
    else s.sendTick (p.src % 2 ^ 17) 0x65 (p.src % 2 ^ 17)
      (leBytes 8 (leAt p.payload 0 8) ++ leBytes 8 s.tick ++ leBytes 8 s.tick ++ leBytes 1 s.hud.tickState.code ++ leBytes 7 0))

/-- T_REPLY (R574, R575): the exchange is kept; a parent in HOLDOVER takes this device with it. -/
def execTReply (lane : Fin 144) (p : Packet) (s : State) : Res :=
  let b := p.payload
  .next (if p.op ≠ 0x65 then s else s.onceRx lane.val p (leAt b 0 8) fun s =>
    if s.hud.tickState = .free ∨ s.hud.isRoot ∨ p.src ≠ s.halfDev s.hud.parent then s
    else
      let s := s.modHud fun h => { h with
        lastReply := s.now, burst := h.burst ++ [(leAt b 0 8, leAt b 8 8, leAt b 0x10 8, s.tick)] }
      let s := if 8 ≤ s.hud.burst.length then s.closeBurst else s
      if leAt b 0x18 1 = 3 then s.tickHoldover else s)

/-- TICK_PARENT_SILENT (R577): HOLDOVER; then the parent's parent, the root, TICK_ROOT2, which itself then acts as root. -/
def execTickParentSilent (s : State) : Res :=
  let h := s.hud
  .next (if h.tickState = .free ∨ h.isRoot ∨ s.now < h.lastReply + 8000000 then s
    else
      let s := s.tickHoldover
      let here := s.treeIndex s.hud.parent
      if here ≠ 0 then
        let up := if s.hud.parent = s.treeUp then treeParent here else 0
        s.modHud fun h => { h with lastReply := s.now, parent := s.treeDevice up, burst := [] }
      else if s.fab.device = h.tickRoot2 then
        (s.modHud fun h => { h with isRoot := true, tickState := .locked, parent := h.tickRoot2, useRoot := h.tickRoot2, burst := [], slew := 0 }).tryBarrier
      else
        let s := s.modHud fun h => { h with useRoot := h.tickRoot2, lastReply := s.now, burst := [] }
        s.modHud fun h => { h with parent := s.treeUp })

/-! ### Synchronised counts -/

/-- A change falls due (R579, R580, R666, R701). A new ceiling acts on the phase under way, at this count (R659, R673). -/
def State.applyChange (s : State) (c : SyncChange) : State :=
  match c with
  | .ceil p =>
    let s : State := { s with opp := { s.opp with ceil := p } }
    if s.step.phase < 5 then
      let (q, paced) := s.requestedOf s.step.kind s.step.phase
      let s : State := { s with opp := { s.opp with requested := q, paced := paced.isSome } }
      let s := if s.opp.oneStep ∧ s.wantStep < s.opp.effective then s else s.setEffective s.wantStep
      s.schedule
    else s
  | .effective p => s.setEffective p
  | .refCfg v => (s.modClk fun k => { k with cfgUsed := v, recheck := true }).countSwitch.leaveHoldover
  | .refSwitch => s.countSwitch

/-- The estimate of the phase under way at step `p` is within PCEIL + BAND_UP (R671). -/
def State.fits (s : State) (p : Nat) : Bool :=
  decide (4 < s.step.phase) || decide (s.estimate (s.pwrEnt s.step.kind s.step.phase) p ≤ s.hud.pceil + s.bandUp)

/-- A return that goes one step at a time (R671): the next step where its estimate fits, and the preparation of the one after. -/
def State.returnOne (s : State) : State :=
  if !s.opp.oneStep then s
  else if s.opp.effective ≤ s.wantStep then { s with opp := { s.opp with oneStep := false } }
  else
    let p := s.opp.effective - 1
    if s.fits p then
      let s := s.setEffective p
      if p ≤ s.wantStep then { s with opp := { s.opp with oneStep := false } } else s.prepare (p - 1)
    else s

/-- SYNC_COUNT (R578 to R580, R630, R656, R671, R707, R708): what is due, in the order of the requests; then, at a multiple of 4,096, the
domains that were deferred and the return of R671. -/
def execSyncCount (s : State) : Res :=
  let due := s.hud.changes.filter fun c => decide (c.1 ≤ s.tick)
  let late := s.pwr.slots.filter fun e => e.2.nextFreq.isSome
  let s0 := s.modHud fun h => { h with changes := h.changes.filter fun c => decide (s.tick < c.1) }
  .next (if !s.clocked then s
    else
      let s1 := due.foldl (fun s c => s.applyChange c.2) s0
      if s.tick % 4096 = 0 then
        let s1 := if late.isEmpty then s1 else s1.changeDomains s1.opp.effective true
        s1.returnOne
      else s1)

end Sys2Proof.Machine
end

