-- ==== Sys2Proof/Machine/Relay.lean ====
section
/-!
DEFINITION. Relay: demands, tokens and grants over the tick tree (R581 to R586).
-/
namespace Sys2Proof.Machine

/-- The length of a round in ns (R582). -/
def roundNs : Nat := 1048576

/-- The most that PCEIL may rise to (R677). -/
def State.pceilBound (s : State) : Nat := s.opp.stepPeak + s.bandUp

/-- The demand up and down (R582, R677, R732). -/
def State.relayDemand (s : State) : Nat × Nat :=
  let cap := s.hud.rampMax * roundNs / 1000000000
  let up := min (s.opp.tgtW - s.hud.pceil) (s.pceilBound - s.hud.pceil)
  let dn := s.hud.pceil - s.opp.tgtW
  (if s.therm.holdUp then 0 else min cap up, if s.therm.holdDown then 0 else min cap dn)

/-- PCEIL at `t` ns into the round: the grant moves it linearly (R582), never above the bound of R677. -/
def State.pceilAt (s : State) (t : Nat) : Nat :=
  let h := s.hud
  let p := h.moveFrom + h.moveUp * min t roundNs / roundNs - h.moveDown * min t roundNs / roundNs
  if 0 < h.moveUp then max h.moveFrom (min p s.pceilBound) else p

/-- The target without a job (R676). -/
def State.refreshTarget (s : State) : State :=
  if s.jobRuns then s else { s with opp := { s.opp with tgtW := s.idleTarget } }

/-- Send a Relay frame of this round (R557 to R559). -/
def State.sendRelay (s : State) (device op child up down : Nat) : State :=
  s.sendTwice (s.halfDev device) s.hud.round
    { op := op, psn := edgeLevel (s.treeIndex child), addr := s.hud.round, payload := leBytes 4 up ++ leBytes 4 down }

/-- This device takes part in the tick tree: the tick's service is configured. -/
def State.inTickTree (s : State) : Bool := decide (s.hud.tickState ≠ .free)

/-- RELAY_ROUND_START (R582, R585): the grant of the round before begins to move PCEIL; the demand is formed, and a device that leads no
group asks for it. Four rounds of demand without a grant set FALLBACK. -/
def execRelayRoundStart (s : State) : Res :=
  let k := s.tick / roundNs
  .next (if s.hud.round = k ∧ k ≠ 0 then s
    else
      let h := s.hud
      let had := decide (0 < h.demandUp + h.demandDown)
      let missed := if !h.relayMode || h.gotGrant then 0 else if had then h.missed + 1 else 0
      let done := if h.relayMode && !h.fallback then s.pceilAt roundNs else h.pceil
      let s := s.modHud fun h => { h with
        round := k, missed := missed, fallback := h.relayMode && (h.fallback || decide (4 ≤ missed)), pceil := done, moveFrom := done
        moveUp := h.nextUp, moveDown := h.nextDown, nextUp := 0, nextDown := 0, grant := 0, gotGrant := false, levelDone := false
        childUp := [], childDown := [] }
      let s := s.refreshTarget
      let (u, d) := if s.hud.relayMode then s.relayDemand else (0, 0)
      let s := s.modHud fun h => { h with demandUp := u, demandDown := d }
      if s.inTickTree && s.hud.relayMode && s.treeIndex s.fab.device % 64 != 0 then s.sendRelay s.treeUp 0x68 s.fab.device u d else s)

/-- Split `t` tokens by R583: each member's grant, and the member that got the last leftover token. -/
def splitTokens (t : Nat) (ds : List (Nat × Nat)) (last : Option Nat) : List (Nat × Nat) × Option Nat :=
  let total := (ds.map (·.2)).sum
  if total ≤ t then (ds, last)
  else
    let base := ds.map fun d => (d.1, t * d.2 / total, d.2)
    let rest := t - (base.map (·.2.1)).sum
    let ids := base.map (·.1)
    let start := match last with
      | some m => if ids.contains m then ids.idxOf m + 1 else 0
      | none => 0
    let order := (ids.drop start ++ ids.take start).filter fun m => base.any fun b => decide (b.1 = m ∧ b.2.1 < b.2.2)
    let extra := order.take rest
    (base.map fun b => (b.1, b.2.1 + (if extra.contains b.1 then 1 else 0)), extra.getLast?.or last)

/-- This device takes its own share of a grant (R582, R585): a fallback ends. -/
def State.takeGrant (s : State) (up down : Nat) : State :=
  s.modHud fun h => { h with nextUp := up, nextDown := down, grant := up + down, gotGrant := true, fallback := false }

/-- A node's demands in one direction: its own first, then its children's. -/
def State.nodeDemands (s : State) (up : Bool) : List (Nat × Nat) :=
  if up then (s.fab.device, s.hud.demandUp) :: s.hud.childUp else (s.fab.device, s.hud.demandDown) :: s.hud.childDown

/-- A node hands on a grant (R583). -/
def State.giveGrant (s : State) (up down : Nat) : State :=
  let (us, ru) := splitTokens up (s.nodeDemands true) s.hud.rotUp
  let (ds, rd) := splitTokens down (s.nodeDemands false) s.hud.rotDown
  let s := s.modHud fun h => { h with rotUp := ru, rotDown := rd }
  let s := if s.hud.relayMode then s.takeGrant (tabGet 0 us s.fab.device) (tabGet 0 ds s.fab.device) else s
  s.hud.childUp.foldl (fun s c => s.sendRelay c.1 0x69 c.1 (tabGet 0 us c.1) (tabGet 0 ds c.1)) s

/-- SITE_RATE in force (R590): 0 means 76 W/s for each device of the tick tree. -/
def State.siteRateW (s : State) : Nat := if s.hud.siteRate = 0 then 76 * treeSize else s.hud.siteRate

/-- SITE_BURST in force (R590): 0 means one round of minting, rounded up. -/
def State.siteBurstW (s : State) : Nat :=
  if s.hud.siteBurst = 0 then (s.siteRateW * roundNs + 999999999) / 1000000000 else s.hud.siteBurst

/-- When a node's deadline comes, in ns after the round's start (R582): by the highest level that it leads. -/
def levelDeadline (i : Nat) : Nat := if i = 0 then 60000 else if i % 4096 = 0 then 40000 else 20000

/-- RELAY_LEVEL_DEADLINE (R582, R584): a node asks for the sums of its subtree; the root mints and grants. -/
def execRelayLevelDeadline (s : State) : Res :=
  let i := s.treeIndex s.fab.device
  .next (if !s.inTickTree || i % 64 != 0 || s.hud.levelDone || decide (s.tick / roundNs ≠ s.hud.round ∨ s.tick % roundNs < levelDeadline i) then s
    else
      let s := s.modHud fun h => { h with levelDone := true }
      let u := ((s.nodeDemands true).map (·.2)).sum
      let d := ((s.nodeDemands false).map (·.2)).sum
      if i ≠ 0 then s.sendRelay s.treeUp 0x68 s.fab.device u d
      else
        let acc := s.hud.mintAcc + s.siteRateW * roundNs
        let minted := acc / 1000000000
        let pu := min s.siteBurstW (s.hud.poolUp + minted)
        let pd := min s.siteBurstW (s.hud.poolDown + minted)
        let s := s.modHud fun h => { h with mintAcc := acc % 1000000000, poolUp := pu - min pu u, poolDown := pd - min pd d }
        s.giveGrant (min pu u) (min pd d))

/-- R_REQ (R582): a child's demand, before this node's deadline. -/
def execRReq (lane : Fin 144) (p : Packet) (s : State) : Res :=
  let dev := p.src % 2 ^ 17
  .next (if p.op ≠ 0x68 then s else s.onceRx lane.val p p.addr fun s =>
    if !s.inTickTree || s.hud.levelDone || decide (p.addr ≠ s.hud.round ∨ p.src / 2 ^ 17 ≠ s.fab.half ∨ dev = s.fab.device) ||
        decide (s.treeDevice (treeParent (s.treeIndex dev)) ≠ s.fab.device) || decide (s.treeIndex dev = 0) then s
    else s.modHud fun h => { h with
      childUp := tabSet h.childUp dev (leAt p.payload 0 4), childDown := tabSet h.childDown dev (leAt p.payload 4 4) })

/-- R_GRANT (R582, R583): handed on and taken; one of a round that has passed is void and sets GRANT_MISSED. -/
def execRGrant (lane : Fin 144) (p : Packet) (s : State) : Res :=
  .next (if p.op ≠ 0x69 then s else s.onceRx lane.val p p.addr fun s =>
    if !s.inTickTree || decide (p.src ≠ s.halfDev s.treeUp) || decide (s.treeIndex s.fab.device = 0) then s
    else if p.addr < s.hud.round then s.modHud fun h => { h with grantMissed := true }
    else s.giveGrant (leAt p.payload 0 4) (leAt p.payload 4 4))

end Sys2Proof.Machine
end

