-- ==== Sys2Proof/Machine/Power.lean ====
section
/-!
DEFINITION. Power delivery (spec/15_power_delivery.md): droop, boost and stretching (R632 to R635), slot modes (R636 to R638), the alert
(R640, R641), the save and the last-gasp record (R643 to R649).
-/
namespace Sys2Proof.Machine

/-! ### Slot domains -/

/-- The fused voltage of a step in mV (R655). -/
def stepMv (p : Nat) : Nat := (Config.vf p).toNat

/-- The setpoint of a slot domain (R657). -/
def SlotPwr.setpoint (d : SlotPwr) : Nat := stepMv d.volt

/-- Steering (R633): the output lies above the setpoint by the drop, at most 60 mV above it and at most 750 mV. -/
def SlotPwr.steer (d : SlotPwr) (reading : Nat) : SlotPwr :=
  { d with reading := reading, output := min (d.setpoint + (d.output - reading)) (min (d.setpoint + 60) 750) }

/-- A boost ends (R634). -/
def SlotPwr.release (now : Nat) (d : SlotPwr) : SlotPwr := { d with boosting := false, rearmAt := now + 300 }

/-- Boost on a reading (R634). -/
def SlotPwr.boost (now : Nat) (d : SlotPwr) : SlotPwr :=
  if d.boosting then (if d.setpoint - 10 ≤ d.reading ∨ d.boostAt + 100 ≤ now then d.release now else d)
  else if d.reading < d.setpoint - 25 ∧ d.rearmAt ≤ now then
    { d with boosting := true, boostAt := now, boosts := satAdd 0xFFFF d.boosts 1 }
  else d

/-- Stretching on a reading (R635). -/
def SlotPwr.stretch (d : SlotPwr) : SlotPwr :=
  { d with stretching := if d.reading < d.setpoint - 40 then true else if d.setpoint - 30 ≤ d.reading then false else d.stretching }

/-- DROOP_READING (R632 to R635): the domain reading is the least of the calibrated sensors' readings. -/
def execDroopReading (slot : Fin 288) (mv : List Nat) (s : State) : Res :=
  let d := s.dom slot.val
  .next (match mv with
    | [] => s
    | m :: t =>
      if d.mode = .on then s.setDom slot.val (((d.steer (t.foldl min m)).boost s.now).stretch) else s)

/-- BOOST_RELEASE (R634). -/
def execBoostRelease (slot : Fin 288) (s : State) : Res :=
  let d := s.dom slot.val
  .next (if d.boosting then s.setDom slot.val (d.release s.now) else s)

/-- DROOP_HIGH (R635, R669, R830): the cycles and stretched cycles of a slot over 10 ms. More than 0.2% sets DROOP_HIGH, is event 4 of the
history and activates the droop loop; the loop is released when no ON slot is above 0.1%. -/
def execDroopHigh (slot : Fin 288) (cycles stretched : Nat) (s : State) : Res :=
  let d := s.dom slot.val
  let u := unitId 1 slot.val
  .next (if d.mode ≠ .on then s
    else
      let d := { d with stretched := satAdd 0xFFFFFFFF d.stretched stretched, droopHigh := decide (cycles < 1000 * stretched) }
      let s := s.setDom slot.val d
      if 2 * cycles < 1000 * stretched then
        let s := State.err { s with pwr := { s.pwr with droopHigh := true } } 7 2 { sev := 2, unit := u, i0 := d.stretched }
        let s := if s.opp.droopDem then s
          else (s.demand fun o => { o with droopDem := true, droopStep := min 7 (o.effective + 1), droopEvents := satAdd 0xFFFF o.droopEvents 1 }).event
            2 5 u d.stretched
        let (s, perm) := s.history u 4
        if perm then
          let s := s.retireUnit u 4
          if s.jobRuns then { s with step := { s.step with failing := true } } else s
        else s
      else if s.opp.droopDem ∧ !(s.pwr.slots.any fun p => decide (p.2.mode = .on) && p.2.droopHigh) then
        (s.releaseLoop fun o => { o with droopDem := false }).event 2 6 u d.stretched
      else s)

/-- VOLTAGE_TRANSITION_COMPLETE (R629). -/
def execVoltageTransitionComplete (slot : Fin 288) (s : State) : Res :=
  let d := s.dom slot.val
  .next (if d.moving then s.setDom slot.val { d with moving := false, output := d.setpoint } else s)

/-- The sensors that calibrate (R631): readings in order at 500 and 700 mV, each within 15 mV of the reference. -/
def goodSensors (cal : List (Nat × Nat)) : Nat :=
  ((cal.take 16).filter fun c => decide (c.1 < c.2 ∧ 485 ≤ c.1 ∧ c.1 ≤ 515 ∧ 685 ≤ c.2 ∧ c.2 ≤ 715)).length

/-- A slot domain that turns ON at the effective step. -/
def State.wakeDom (s : State) (k : Nat) : State :=
  let d := s.dom k
  s.setDom k { d with mode := .on, freq := s.opp.effective, volt := s.opp.effective, output := stepMv s.opp.effective, moving := false
                      nextFreq := none, gated := false, boosting := false, stretching := false }

/-- The cluster of a slot holds the state of R257 after a reset, its local store zero with valid check bits (R638). -/
def State.blankCluster (s : State) (c : Nat) : State :=
  let a := lsBase c
  let s := s.setCl c { fenced := (s.cl c).fenced }
  { s with mem := s.mem.filter fun e => !decide (a ≤ e.1 ∧ e.1 < a + 0x200000)
           poison := s.poison.filter fun e => !decide (a ≤ e.1 ∧ e.1 < a + 0x200000) }

/-- A sequencer at rest, its stream slots too (R637). -/
def Cluster.atRest (k : Cluster) : Bool :=
  (decide (k.st = .halted) || decide (k.st = .idle)) &&
    k.slots.all fun p => decide (p.2.state = .idle ∨ p.2.state = .paused ∨ p.2.state = .done ∨ p.2.state = .fault)

/-- A slot that is OFF wakes (R638); the first time after a boot it uses its calibration of now, later the boot's (R631). -/
def State.wakeOff (s : State) (k : Nat) (cal : List (Nat × Nat)) : State :=
  let d := s.dom k
  let d := if d.calSensors = 0 then { d with calSensors := goodSensors cal, calOk := decide (12 ≤ goodSensors cal) } else d
  let s := (s.setDom k d).wakeDom k
  let c := (s.unit (unitId 1 k)).logical
  if c < 256 then s.blankCluster c else s

/-- SLOT_MODE_CHANGE (R636 to R638): a FENCED slot at rest enters RETAIN, its scalar cache written back; a slot wakes from RETAIN or OFF
unless it is SPARE or RETIRED. -/
def execSlotModeChange (slot : Fin 288) (on : Bool) (cal : List (Nat × Nat)) (s : State) : Res :=
  let k := slot.val
  let d := s.dom k
  let u := s.unit (unitId 1 k)
  .next (if !s.clocked then s
    else if on then
      if u.state = .spare ∨ u.state = .retired then s
      else match d.mode with
        | .on => s
        | .retain => s.wakeDom k
        | .off => s.wakeOff k cal
    else if d.mode = .on ∧ u.state = .fenced ∧ (u.logical < 256 → (s.cl u.logical).atRest) then
      let s := if u.logical < 256 then s.flushCache u.logical else s
      s.setDom k { s.dom k with mode := .retain, boosting := false, stretching := false }
    else s)

/-! ### The alert -/

/-- Every ON domain goes to P7 at once, and pending step changes are cancelled (R640, R709). -/
def State.dropToP7 (s : State) : State :=
  let s := s.onDomains fun d => { d with freq := 7, nextFreq := none, moving := d.moving || decide (d.volt ≠ 7), volt := 7, gated := d.gated }
  { s with
    opp := { s.opp with effective := 7, phaseClean := false }
    hud := { s.hud with changes := s.hud.changes.filter fun c => match c.2 with
      | .effective _ => false
      | _ => true } }

/-- ALERT_SEEN and ALERT_COUNT (R640). -/
def State.countAlert (s : State) : State :=
  State.total { s with pwr := { s.pwr with alert := true, alertSeen := true, alertCount := satAdd 0xFFFF s.pwr.alertCount 1 } } 9 1

/-- PWR_ALERT_TAKEN (R640, R641, R649, R801). -/
def execPwrAlertTaken (s : State) : Res :=
  .next (if s.boot.pinReset then s
    else if s.pwr.save ≠ .none then s.countAlert
    else if s.pwr.alertHold then { s with pwr := { s.pwr with alert := true } }
    else
      let s := State.countAlert { s with pwr := { s.pwr with alertHold := true } }
      let s := s.dropToP7.demand fun o => { o with alertDem := true, alertStep := 7 }
      (s.err 7 1 { sev := 2, i0 := s.pwr.alertCount }).event 2 1 0 s.pwr.alertCount)

/-- PWR_ALERT_RELEASE (R641): deasserted for 100 µs. -/
def execPwrAlertRelease (s : State) : Res :=
  .next (if s.pwr.alertHold then
    (State.releaseLoop { s with pwr := { s.pwr with alert := false, alertHold := false } } fun o => { o with alertDem := false }).event
      2 2 0 s.pwr.alertCount
  else s)

/-! ### The last-gasp record -/

/-- An error record's bytes (R845). -/
def ErrRec.bytes (r : ErrRec) : List Byte :=
  leBytes 8 r.seq ++ leBytes 8 r.tick ++ leBytes 8 r.step ++ leBytes 4 r.serviceMin ++ leBytes 1 r.source ++ leBytes 1 r.severity ++
    leBytes 1 r.action ++ leBytes 1 r.flags ++ leBytes 2 r.code ++ leBytes 2 r.cluster ++ leBytes 4 r.unit ++ leBytes 8 r.addr ++
    leBytes 8 r.info0 ++ leBytes 8 r.info1

/-- The last-gasp record from offset 0x10 on (R647). -/
def Gasp.tail (g : Gasp) : List Byte :=
  let head :=
    leBytes 8 Config.deviceId.toNat ++ leBytes 4 g.seq ++ leBytes 1 g.cause ++ leBytes 1 g.flags ++ leBytes 2 0 ++ leBytes 8 g.tick ++
      leBytes 8 g.step ++ leBytes 8 g.committed ++ leBytes 8 g.acked ++ leBytes 8 g.unsent ++ leBytes 8 g.sent ++ leBytes 8 g.lastSent ++
      leBytes 8 g.lastAcked ++ leBytes 4 g.flushUs ++ leBytes 2 g.vinT0 ++ leBytes 2 g.vinEnd ++ leBytes 1 g.stepT0 ++ leBytes 1 g.phase ++
      leBytes 2 g.errors.length ++ leBytes 4 g.twin ++ List.replicate 400 0#8
  let errs := g.errors.flatMap ErrRec.bytes
  head ++ errs ++ List.replicate (65024 - errs.length) 0#8

/-- ASCII bytes. -/
def ascii (l : List Nat) : List Byte := l.map (BitVec.ofNat 8)

/-- KT9LGR01. -/
def gaspMagic : List Byte := ascii [0x4B, 0x54, 0x39, 0x4C, 0x47, 0x52, 0x30, 0x31]

/-- The whole record with its CRC (R648). -/
def Gasp.bytes (g : Gasp) : List Byte := gaspMagic ++ leBytes 8 (crc64 g.tail).toNat ++ g.tail

/-! ### The flash -/

/-- A byte of the board flash; erased bytes read 0xFF. -/
def State.flashByte (s : State) (a : Nat) : Byte := tabGet 0xFF#8 s.flash a

/-- Bytes of the flash. -/
def State.flashBytes (s : State) (a n : Nat) : List Byte := (List.range n).map fun i => s.flashByte (a + i)

/-- Program bytes of an erased range (R618). -/
def flashPut (t : Tab Byte) (a : Nat) : List Byte → Tab Byte
  | [] => t
  | b :: r => flashPut (tabPut 0xFF#8 t a b) (a + 1) r

/-- Program the flash. -/
def State.flashWrite (s : State) (a : Nat) (bs : List Byte) : State := { s with flash := flashPut s.flash a bs }

/-- Erase a range of the flash. -/
def State.flashErase (s : State) (a n : Nat) : State := { s with flash := s.flash.filter fun e => !decide (a ≤ e.1 ∧ e.1 < a + n) }

/-- A range of the flash is erased. -/
def State.flashBlank (s : State) (a n : Nat) : Bool := s.flash.all fun e => !decide (a ≤ e.1 ∧ e.1 < a + n)

/-- The last-gasp region (R805). -/
def gaspRegion : Nat := 0xC0000
/-- The last-gasp archive (R805). -/
def gaspArchive : Nat := 0xD0000

/-- A last-gasp record at `a` is valid (R648). -/
def State.gaspValid (s : State) (a : Nat) : Bool :=
  s.flashBytes a 8 == gaspMagic && (crc64 (s.flashBytes (a + 0x10) 65520)).toNat == leAt (s.flashBytes (a + 8) 8) 0 8

/-- RECORD_SEQ of the next record (R647, R808). -/
def State.nextGaspSeq (s : State) : Nat := if s.gaspValid gaspArchive then leAt (s.flashBytes (gaspArchive + 0x18) 4) 0 4 + 1 else 1

/-! ### The save -/

/-- Nganor runs: it has started, and nothing has taken its clocks or its supply. -/
def State.nganorUp (s : State) : Bool := s.boot.nganor && s.clocked

/-- Every VIN domain is off. -/
def State.vinOff (s : State) : State :=
  { s with pwr := { s.pwr with vinOff := true, slots := s.pwr.slots.map fun p => (p.1, { p.2 with mode := .off, boosting := false, stretching := false }) }
           opp := { s.opp with kwActive := false, kwPower := 0 } }

/-- The last-gasp record's fields as they stand at t0 (R647). -/
def State.startGasp (s : State) (cause : Nat) : State :=
  let moving := s.pwr.slots.any fun p => p.2.moving
  { s with pwr := { s.pwr with gasp := {
      seq := s.nextGaspSeq, cause := cause
      flags := (if s.ss.twin = 1 ∧ s.unsentBytes ≠ 0 ∧ cause = 1 then 0 else 4) + 16 * b2n moving + 32 * b2n s.pwr.alert
      tick := s.tick, step := s.step.number, committed := s.ss.committed, acked := s.ss.acked, unsent := s.unsentBytes
      vinT0 := s.pwr.vinMv, vinEnd := s.pwr.vinMv, stepT0 := s.opp.effective, phase := s.step.phase, twin := s.ss.twinDev
      errors := s.log.errs.take 1016 } } }

/-- Exchange posts, ingest and every send but the state stream are abandoned (R644). -/
def State.dropSends (s : State) : State :=
  { s with
    fab := { s.fab with posts := [], ops := [], send := [], tx := [], blocked := [] }
    ing := { s.ing with out := [], qps := s.ing.qps.map fun q => (q.1, { q.2 with out := [] }) } }

/-- VIN_FAIL_TAKEN (R643, R644, R649, R801, R823). -/
def execVinFailTaken (s : State) : Res :=
  .next (if s.boot.pinReset || s.pwr.vinOff || decide (s.pwr.save ≠ .none) || s.therm.tripped then s
    else
      let s0 : State := { s with pwr := { s.pwr with vinFail := true, saveAt := s.now } }
      if !s.boot.nganor then { s0.vinOff with pwr := { s0.vinOff.pwr with save := .saved } }
      else
        let s1 := ((s0.startGasp 1).dropToP7).dropSends
        { s1 with
          pwr := { s1.pwr with save := .clocks, abandonAt := if s1.pwr.flashBusy then s1.now else s1.pwr.abandonAt }
          opp := { s1.opp with kwActive := false, kwPower := 0 }
          ss := { s1.ss with restoring := false } })

/-- VIN_FAIL_GLITCH (R643). -/
def execVinFailGlitch (s : State) : Res :=
  .next (if s.boot.pinReset then s else { s with pwr := { s.pwr with failGlitch := satAdd 0xFFFF s.pwr.failGlitch 1 } })

/-- Insert a record by SEQ. -/
def insertSeq (r : Record) : List Record → List Record
  | [] => [r]
  | x :: t => if r.seq ≤ x.seq then r :: x :: t else x :: insertSeq r t

/-- Records in ascending SEQ. -/
def sortSeq (l : List Record) : List Record := l.foldl (fun t r => insertSeq r t) []

/-- The longest run of records within `n` bytes (R645): what is left out includes an END whose DELTAs are. -/
def withinBytes : Nat → List Record → List Record
  | _, [] => []
  | n, r :: t => if r.size ≤ n then r :: withinBytes (n - r.size) t else []

/-- SAVE_DOMAINS_OFF (R644, R645): the cluster domains are OFF, and the flush begins where the twin is bound and records wait. -/
def execSaveDomainsOff (s : State) : Res :=
  .next (if s.pwr.save ≠ .clocks then s
    else
      let runs := decide (s.ss.twin = 1 ∧ s.unsentBytes ≠ 0)
      let rs := if runs then withinBytes 268435456 (sortSeq s.ss.outstanding) else []
      { s with
        pwr := { s.pwr with save := .flush, flush := rs.map (·.seq), gasp := { s.pwr.gasp with sent := (rs.map (·.size)).sum }, slots := s.pwr.slots.map fun p => (p.1, { p.2 with mode := .off }) }
        ss := { s.ss with formed := [], unsent := rs, sent := [], stopped := s.ss.stopped && !runs } })

/-- The flush fields of the record (R645, R647) as the flush ends. -/
def State.endGasp (s : State) (deadline : Bool) : State :=
  let g := s.pwr.gasp
  let left := s.ss.unsent.map (·.seq)
  let went := s.pwr.flush.filter fun q => !left.contains q
  let open_ := (sortSeq s.ss.outstanding).head?
  let done := decide (g.flags / 4 % 2 = 0) && s.ss.unsent.isEmpty && s.ss.sent.isEmpty
  { s with pwr := { s.pwr with
      save := .handover
      gasp := { g with
        acked := s.ss.acked, flags := g.flags + b2n done + 2 * b2n deadline
        sent := g.sent - (s.ss.unsent.map (·.size)).sum
        lastSent := went.getLast?.getD (2 ^ 64 - 1)
        lastAcked := match open_ with
          | some r => if r.seq = 0 then 2 ^ 64 - 1 else r.seq - 1
          | none => if s.ss.seq = 0 then 2 ^ 64 - 1 else s.ss.seq - 1
        flushUs := if g.flags / 4 % 2 = 0 then (s.now - s.pwr.saveAt) / 1000 else 0
        vinEnd := s.pwr.vinMv } } }

/-- FLUSH_END (R645): every record that it sends is acknowledged, or t0 + 3.50 ms; then every VIN domain turns off (R644). -/
def execFlushEnd (s : State) : Res :=
  let late := decide (s.pwr.saveAt + 3500000 ≤ s.now)
  .next (if s.pwr.save = .flush ∧ (late ∨ (s.ss.unsent.isEmpty ∧ s.ss.sent.isEmpty)) then
    (s.endGasp (late && !(s.ss.unsent.isEmpty && s.ss.sent.isEmpty))).vinOff
  else s)

/-- LAST_GASP_PROGRAMMED (R648, R823): programmed into an erased region alone; an abandoned flash operation is then over. -/
def execLastGaspProgrammed (s : State) : Res :=
  .next (if s.pwr.save = .handover then
    let s := if s.flashBlank gaspRegion 65536 then s.flashWrite gaspRegion s.pwr.gasp.bytes else s
    { s with pwr := { s.pwr with save := .saved, flashBusy := false } }
  else s)

/-- A save that begins at the step of VIN domains off (R646). -/
def State.saveNow (s : State) (cause : Nat) : State :=
  let s0 : State := { s with pwr := { s.pwr with saveAt := s.now } }
  if !s.boot.nganor then { s0.vinOff with pwr := { s0.vinOff.pwr with save := .saved } }
  else
    let s1 := ((((s0.startGasp cause).dropToP7).dropSends).endGasp false).vinOff
    { s1 with ss := { s1.ss with formed := [], unsent := [], sent := [], restoring := false } }

/-- A save under way ends its flush at once (R646, R649). -/
def State.cutSave (s : State) (f : Gasp → Gasp) : State :=
  let s := if s.pwr.save = .clocks ∨ s.pwr.save = .flush then (s.endGasp false).vinOff else s
  if s.pwr.save = .handover then { s with pwr := { s.pwr with gasp := f s.pwr.gasp } } else s

/-- BROWNOUT (R646). -/
def execBrownout (s : State) : Res :=
  .next (if s.boot.pinReset || s.pwr.vinOff || s.therm.tripped then s
    else if s.pwr.save = .none then s.saveNow 2
    else s.cutSave fun g => { g with cause := 3 })

/-- OVERVOLT (R646). -/
def execOvervolt (s : State) : Res :=
  let s0 : State := { s with pwr := { s.pwr with ovSeen := true } }
  .next (if s.boot.pinReset || s.pwr.vinOff || s.therm.tripped then s0
    else if s.pwr.save = .none then s0.saveNow 4
    else s0.cutSave id)

/-- VAUX_LOW (R876): every VIN domain turns off, with no flush and no record. -/
def execVauxLow (s : State) : Res :=
  .next (if s.pwr.vinOff then s else
    { s.vinOff.dropSends with pwr := { s.vinOff.pwr with save := .none } })

/-- VIN_FAIL, the alert, and the trip do not come through here: THERMTRIP stands in Machine/Thermal.lean. -/
def State.tripSave (s : State) : State := s.cutSave fun g => { g with flags := g.flags ||| 8 }

end Sys2Proof.Machine
end

