-- ==== Sys2Proof/Machine/Protect.lean ====
section
/-!
DEFINITION. The rows of spec/16_operating_points.md: samples of package power (R677, R678), the cap loop (R670), hysteresis (R671) and
keep-warm (R681 to R685).
-/
namespace Sys2Proof.Machine

/-- A phase of the running job is under way (R678, R682). -/
def State.inPhase (s : State) : Bool := decide (s.job.state = .running ∧ s.step.phase < 5)

/-- PKG_W_SAMPLE (R652, R662, R677, R678): every 1 ms. -/
def execPkgWSample (w : W16) (s : State) : Res :=
  let n := w.toNat
  let o := s.opp
  let samples := (n :: o.samples).take 1000
  let peakNow := max o.peakNow n
  let band := s.inPhase && !s.protection
  .next (if s.pwr.vinOff then s else
    { s with
      pwr := { s.pwr with pkgW := n }
      therm := { s.therm with secSum := s.therm.secSum + n, secN := s.therm.secN + 1 }
      opp := { o with
        samples := samples, peakNow := peakNow
        stepPeak := if s.jobRuns then max peakNow o.peakBefore else samples.foldl max 0
        phaseSum := if s.inPhase then o.phaseSum + n else o.phaseSum, phaseN := if s.inPhase then o.phaseN + 1 else o.phaseN
        stepUsed := o.stepUsed + 1000 * n
        bandHigh := if band && decide (s.hud.pceil + s.bandUp < n) then satAdd 0xFFFF o.bandHigh 1 else o.bandHigh
        bandLow := if band && decide (n + s.bandDn < s.hud.pceil) then satAdd 0xFFFF o.bandLow 1 else o.bandLow } })

/-- PROT_W (R670). -/
def State.protW (s : State) : Nat := min 2000 (s.capW + 100)

/-- CAP_LOOP_CHECK (R669, R670): the average of the last ten samples. -/
def execCapLoopCheck (s : State) : Res :=
  let ten := s.opp.samples.take 10
  .next (if ten.length < 10 || !s.clocked then s
    else if 10 * s.protW < ten.sum then
      if s.opp.capDem then s.demand fun o => { o with capStep := min 7 (o.capStep + 1) }
      else (s.demand fun o => { o with capDem := true, capStep := min 7 (o.effective + 1), capEvents := satAdd 0xFFFF o.capEvents 1 }).event
        2 3 0 s.pwr.pkgW
    else if s.opp.capDem ∧ ten.sum + 1000 ≤ 10 * s.protW then
      (s.releaseLoop fun o => { o with capDem := false }).event 2 4 0 s.pwr.pkgW
    else s)

/-- The demands of the loops that are active. -/
def OppSt.activeStep (o : OppSt) : Nat :=
  max (max (if o.alertDem then o.alertStep else 0) (if o.capDem then o.capStep else 0))
    (max (if o.droopDem then o.droopStep else 0) (max (if o.thermDem then o.thermStep else 0) (if o.coolDem then o.coolStep else 0)))

/-- The demands of released loops end (R671); the thermal loop goes back to its row for 90 °C once that for 100 °C is over (R723). -/
def State.endDemands (s : State) : OppSt :=
  let o := s.opp
  { o with
    hyst := false, alertStep := if o.alertDem then o.alertStep else 0, capStep := if o.capDem then o.capStep else 0
    droopStep := if o.droopDem then o.droopStep else 0
    thermStep := if o.thermDem then (if s.therm.hot100 then 7 else o.thermBase) else 0, coolStep := if o.coolDem then o.coolStep else 0 }

/-- HYSTERESIS_EXPIRE (R671, R673): HYST_MS in which no loop demanded a step lower than the requested one. -/
def execHysteresisExpire (s : State) : Res :=
  let o := s.opp
  .next (if !o.hyst || !s.clocked || decide (s.tick < o.hystAt + fld o.cfg 47 40 * 1000000 ∨ o.requested < o.activeStep) then s
    else
      let s : State := { s with opp := s.endDemands }
      if s.wantStep < s.opp.effective && !s.fits s.wantStep then
        State.prepare { s with opp := { s.opp with oneStep := true } } (s.opp.effective - 1)
      else s.schedule)

/-- Keep-warm is allowed: in the phases of a job within its budget (R682), or while PCEIL falls after a job's end (R683); never while a
loop is active, in a save or a trip (R684). -/
def State.kwMay (s : State) : Bool :=
  let o := s.opp
  bitN o.kwCfg 0 && !s.protection && !s.pwr.vinFail && decide (s.pwr.save = .none) && !s.therm.tripped && !s.pwr.vinOff &&
    ((s.inPhase && !o.kwLimit) ||
      (!s.jobRuns && o.kwEvent && decide (o.tgtW < s.hud.pceil ∧ o.kwEventUsed < fld o.kwCfg 31 16 * 1000000)))

/-- KEEPWARM_ADJUST (R681 to R685): `w` is the package power; keep-warm moves by at most 4 W toward PCEIL − BAND_DN, and its energy of a
microsecond is accounted. -/
def execKeepwarmAdjust (w : W16) (s : State) : Res :=
  let o := s.opp
  let want : Int := (o.kwPower : Int) + clampInt (-4) 4 ((s.hud.pceil : Int) - s.bandDn - w.toNat)
  let p := if s.kwMay then want.toNat else 0
  let used := o.kwStep + (if s.inPhase then p else 0)
  let total := o.kwUj + p
  .next (State.total { s with opp := { o with
    kwPower := p, kwActive := decide (0 < p), kwUj := total, kwStep := used
    kwEventUsed := o.kwEventUsed + (if s.inPhase then 0 else p)
    kwEvent := o.kwEvent && !s.jobRuns && decide (o.tgtW < s.hud.pceil)
    kwLimit := o.kwLimit || (s.inPhase && bitN o.kwCfg 0 && decide (fld o.kwCfg 15 8 * o.stepEnergy ≤ 1000 * used)) } }
    11 (total / 1000 - o.kwUj / 1000))

end Sys2Proof.Machine
end

