-- ==== Sys2Proof/Machine/Thermal.lean ====
section
/-!
DEFINITION. Cooling and thermal control (spec/18_thermal.md).
-/
namespace Sys2Proof.Machine

/-! ### Junction temperature -/

/-- The row of R723 for 90 °C. -/
def State.throttleRow (s : State) (tj : Nat) : State :=
  if 900 ≤ tj then
    if !s.therm.throttle then
      let p := min 7 (s.opp.effective + 1)
      let s := State.demand { s with therm := { s.therm with
          throttle := true, throttles := satAdd 0xFFFF s.therm.throttles 1, overAt := s.now } }
        fun o => { o with thermDem := true, thermBase := p, thermStep := max p o.thermStep }
      (s.total 10 1).event 3 1 0 tj
    else if s.therm.overAt + 100000000 ≤ s.now then
      State.demand { s with therm := { s.therm with overAt := s.now } } fun o =>
        let p := min 7 (o.thermBase + 1)
        { o with thermBase := p, thermStep := max p o.thermStep }
    else s
  else if s.therm.throttle ∧ tj ≤ 870 ∧ !s.therm.hot100 then
    (State.releaseLoop { s with therm := { s.therm with throttle := false } } fun o => { o with thermDem := false }).event 3 2 0 tj
  else s

/-- The row of R723 for 100 °C: P7 at once; at 90 °C the row above governs. -/
def State.hotRow (s : State) (tj : Nat) : State :=
  if 1000 ≤ tj ∧ !s.therm.hot100 then
    State.demand (State.total { s with therm := { s.therm with hot100 := true, throttles := satAdd 0xFFFF s.therm.throttles 1 } } 10 1).dropToP7
      fun o => { o with thermDem := true, thermStep := 7 }
  else if s.therm.hot100 ∧ tj ≤ 900 then State.releaseLoop { s with therm := { s.therm with hot100 := false } } id
  else s

/-- TJ_SAMPLE (R722, R723): every 100 µs. -/
def execTjSample (tj : BitVec 12) (s : State) : Res :=
  let t := tj.toNat
  let tooHot := decide (950 < t ∧ s.therm.tj ≤ 950)
  .next (if !s.clocked then s
    else
      let s : State := { s with therm := { s.therm with
        tj := t, tjMax := max s.therm.tjMax t, tjOver := s.therm.tjOver || decide (950 < t), tjSum := s.therm.tjSum + t, tjN := s.therm.tjN + 1 } }
      let s := if tooHot then s.err 8 1 { sev := 2, i0 := t } else s
      (s.hotRow t).throttleRow t)

/-- THERMTRIP (R724, R725, R649): clocks stop, sends are abandoned, VIN domains turn off; a save under way programs its record. -/
def execThermtrip (s : State) : Res :=
  .next (if s.therm.tripped ∨ s.pwr.vinOff ∨ s.boot.pinReset then s
    else
      let s := (s.tripSave.dropSends).vinOff
      { s with therm := { s.therm with tripped := true, tripSeen := true } })

/-! ### Coolant -/

/-- RTH in µK/W of a flow in mL/min (R721). -/
def rthOf (flow : Int) : Int :=
  if flow ≤ 1500 then 24000 else if flow ≤ 2000 then 24000 - 8 * (flow - 1500) else if flow ≤ 3000 then 20000 - 3 * (flow - 2000) else 17000

/-- A field's latest value, where the record gives one (R726). -/
def takeField (old : Option (Int × Nat)) (c : Coolant) (bit : Nat) (v : Int) : Option (Int × Nat) :=
  if c.have_ && bitN c.valid bit then some (v, c.at_) else old

/-- A field is stale: no valid record in the last 500 ms (R726). -/
def fieldStale (now : Nat) (f : Option (Int × Nat)) : Bool := f.all fun x => decide (x.2 + 500000000 < now)

/-- The heat balance withdraws the tray's readings (R728). -/
def ThermSt.withdrawn (t : ThermSt) : Bool := t.hb == .coolantFault || t.hb == .sensorFault

/-- COOL_W (R726), at most 16 bits. -/
def coolWatts (inlet flow : Int) : Nat := min 0xFFFF ((8800 - inlet) * 10000 / rthOf flow).toNat

/-- The estimate of the phase under way at step `p`, where a job has one (R723). -/
def State.phaseEstimate (s : State) (p : Nat) : Nat :=
  if s.inPhase then s.estimate (s.pwrEnt s.step.kind s.step.phase) p else 0

/-- The coolant-limit row of R723. -/
def State.coolRow (s : State) : State :=
  let w := s.therm.coolW
  let need := bitN s.therm.cfg 32 && decide (w < s.phaseEstimate s.opp.requested)
  if need then
    let p := ((List.range 8).find? fun p => decide (s.phaseEstimate p ≤ w)).getD 7
    let s' := if s.opp.coolDem ∧ s.opp.coolStep = p then s else s.demand fun o => { o with coolDem := true, coolStep := p }
    if s.opp.coolDem then s' else State.event { s' with therm := { s'.therm with coolDem := true } } 3 3 0 w
  else if s.opp.coolDem then State.releaseLoop { s with therm := { s.therm with coolDem := false } } fun o => { o with coolDem := false }
  else s

/-- COOLANT_EVAL (R726): every 100 ms. -/
def execCoolantEval (s : State) : Res :=
  let c := s.smb.coolant
  let t := s.therm
  let inl := takeField t.inlet c 0 c.inlet
  let out := takeField t.outlet c 1 c.outlet
  let flo := takeField t.flow c 2 c.flow
  let si := fieldStale s.now inl
  let so := fieldStale s.now out
  let sf := fieldStale s.now flo
  let stale := si || so || sf
  let useIn := if si || t.withdrawn then 4000 else (inl.map (·.1)).getD 4000
  let useFl := if sf || t.withdrawn then 1500 else (flo.map (·.1)).getD 1500
  let q := (fld t.cfg 9 0 : Int) * (flo.map (·.1)).getD 0 * ((out.map (·.1)).getD 0 - (inl.map (·.1)).getD 0)
  .next (if !s.nganorUp then s
    else
      let s : State := { s with therm := { t with
        inlet := inl, outlet := out, flow := flo, stale := stale, usingDefaults := stale || t.withdrawn
        staleEvents := if stale && !t.stale then satAdd 0xFFFF t.staleEvents 1 else t.staleEvents
        coolW := if bitN t.cfg 32 then coolWatts useIn useFl else t.coolW
        heat := if stale then [] else (q :: t.heat).take 100 } }
      let s := if stale && !t.stale then s.event 3 6 0 0 else s
      s.coolRow)

/-- A sensor finding (R728). -/
def State.sensorFinding (s : State) : Bool :=
  let v (f : Option (Int × Nat)) : Int := (f.map (·.1)).getD 0
  let i := v s.therm.inlet
  let f := v s.therm.flow
  let same := match s.therm.seqs with
    | a :: b :: c :: _ => a == b && b == c
    | _ => false
  decide (v s.therm.outlet < i - 50) || decide (f < 0 ∨ 10000 < f) || decide (i < 0 ∨ 8000 < i) || (same && decide (s.smb.coolant.valid ≠ 0))

/-- HB enters a state (R728): a fault state is counted, logged and reported. -/
def State.setHb (s : State) (h : HbState) : State :=
  if s.therm.hb = h then s
  else
    let s : State := { s with therm := { s.therm with hb := h } }
    if s.therm.withdrawn then
      let s : State := { s with therm := { s.therm with hbSeen := true, hbFaults := satAdd 0xFFFF s.therm.hbFaults 1, usingDefaults := true } }
      (s.err 8 2 { sev := 2, i0 := h.code, i1 := s.therm.qCool }).event 3 4 0 h.code
    else s

/-- HEAT_BALANCE_CHECK (R727, R728, R733): every second, while no field is stale and 10 s of history are there. -/
def execHeatBalanceCheck (s : State) : Res :=
  let t := s.therm
  let watts := if t.secN = 0 then t.watts else (t.secSum * 1000 / t.secN :: t.watts).take 12
  let s0 : State := { s with therm := { t with watts := watts, secSum := 0, secN := 0 } }
  .next (if !s.nganorUp then s
    else if t.stale || decide (t.heat.length < 100 ∨ watts.length < 12) then s0
    else
      let q : Int := t.heat.sum / 100
      let p : Int := ((watts.drop 2).take 10).sum
      let bad := decide ((fld t.cfg 23 16 : Int) * p + fld t.cfg 31 24 * 10000000 < (q - p * 100).natAbs)
      let s1 : State := { s0 with therm := { s0.therm with
        qCool := min 0xFFFF (q / 1000000).toNat, hbGood := if bad then 0 else t.hbGood + 1, hbBad := if bad then t.hbBad + 1 else 0 } }
      if s.sensorFinding then State.setHb { s1 with therm := { s1.therm with hbGood := 0 } } .sensorFault
      else if 3 ≤ s1.therm.hbBad then s1.setHb .coolantFault
      else if 3 ≤ s1.therm.hbGood then s1.setHb .ok
      else s1)

/-! ### Ramps -/

/-- RAMP_HOLD_CHECK (R732): every 100 ms, the mean of Tj against that of 10 s earlier. -/
def execRampHoldCheck (s : State) : Res :=
  let t := s.therm
  .next (if !s.clocked || decide (t.tjN = 0) then s
    else
      let m := t.tjSum * 1000 / t.tjN
      let means := (m :: t.tjMeans).take 101
      let before := means.getLast?.getD m
      let up := decide (before + 160000 ≤ m)
      let dn := decide (m + 160000 ≤ before)
      { s with therm := { t with
        tjMeans := means, tjSum := 0, tjN := 0, holdUp := up, holdDown := dn, rampHold := up || dn
        rampHolds := if (up || dn) && !t.rampHold then satAdd 0xFFFF t.rampHolds 1 else t.rampHolds } })

/-! ### Forecast -/

/-- The phases of a kind with their power and duration in µs, at the present ceiling (R729). -/
def State.segments (s : State) (k : Nat) : List (Nat × Nat) :=
  (s.phasesOf k).map fun n => (s.estimate (s.pwrEnt k n) (max (s.prefOf k n) s.opp.ceil), (s.pwrEnt k n).dur)

/-- A kind with a phase of no known duration (R729). -/
def State.openEnded (s : State) (k : Nat) : Bool := (s.segments k).any fun e => e.2 == 0

/-- The energy in µJ of segments up to a time in µs. -/
def energyOf : List (Nat × Nat) → Nat → Nat
  | [], _ => 0
  | (w, d) :: r, t => if t ≤ d then w * t else w * d + energyOf r (t - d)

/-- The segments ahead (R729): what is left of the current step, then the kinds of the pattern; the power of a kind of unknown length,
where one comes, holds from there on. -/
def State.ahead (s : State) : List (Nat × Nat) × List (Nat × Nat) :=
  let n := s.step.number
  let gone := (s.tick - s.opp.phaseFrom) / 1000
  let cur := ((s.phasesOf s.step.kind).filter fun m => decide (s.step.phase ≤ m)).map fun m =>
    let e := s.pwrEnt s.step.kind m
    (s.estimate e (max (s.prefOf s.step.kind m) s.opp.ceil), if m = s.step.phase then e.dur - gone else e.dur)
  let kinds := (List.range (max 1 s.job.sched.pattern.length)).map fun i => s.kindOf (n + 1 + i)
  let top (k : Nat) : Nat × Nat := ((s.segments k).foldl (fun m e => max m e.1) 0, 1)
  if s.openEnded s.step.kind then ([], [top s.step.kind])
  else match kinds.find? s.openEnded with
    | some k => (cur ++ (kinds.takeWhile fun k => !s.openEnded k).flatMap s.segments, [top k])
    | none => (cur, kinds.flatMap s.segments)

/-- The energy in µJ from now to a time in µs. -/
def aheadEnergy (a : List (Nat × Nat) × List (Nat × Nat)) (t : Nat) : Nat :=
  let h := (a.1.map (·.2)).sum
  if t ≤ h then energyOf a.1 t
  else
    let p := (a.2.map (·.2)).sum
    let e (d : Nat) : Nat := energyOf a.2 d
    energyOf a.1 h + (t - h) / p * e p + e ((t - h) % p)

/-- The forecast power of second `k` (R729). -/
def State.forecastW (s : State) (k : Nat) : Nat :=
  if s.jobRuns then
    let a := s.ahead
    min s.capW ((aheadEnergy a ((k + 1) * 1000000) - aheadEnergy a (k * 1000000)) / 1000000)
  else min s.capW s.opp.tgtW

/-- FORECAST_FORM (R729, R730). -/
def execForecastForm (s : State) : Res :=
  .next (if !s.nganorUp then s
    else
      let w := (List.range 60).map s.forecastW
      let kinds := s.step.kind :: (List.range s.job.sched.pattern.length).map s.kindOf
      let dflt := s.jobRuns && kinds.any fun k => (s.phasesOf k).any fun n => (s.pwrEnt k n).deflt
      let hint := max 1500 (min 3000 (w.foldl max 0 * 1000 / max 1 (fld s.therm.cfg 9 0)))
      { s with therm := { s.therm with
        flowHint := hint
        forecast := { tick := s.tick, step := s.step.number, flags := b2n dflt + 2 * b2n (!s.jobRuns) + 4 * b2n s.protection, flow := hint
                      tj := s.therm.tj, w := w } } })

end Sys2Proof.Machine
end

