-- ==== Sys2Proof/Machine/Regs.lean ====
section
/-!
DEFINITION. The registers of the device address map as they read (R16 to R21): CSR windows (R307 to R313), cache and regulator
control (R490 to R495), fabric and ingest (R552 to R555, R606), and the control blocks (R376 to R378, R408, R448 to R450, R587 to
R590, R651 to R654, R686 to R690, R715 to R719, R734 to R737, R756, R824, R850).
-/
namespace Sys2Proof.Machine

/-- A register, by name. -/
inductive Reg where
  | seqCtl (c : Nat) | seqStatus (c : Nat) | faultInfo (c : Nat) | faultAddr (c : Nat) | kprog (c : Nat) | waitLimit (c : Nat)
  | transBase (c : Nat) | transCtl (c : Nat) | arithFlags (c : Nat) | podStatus (c : Nat) | accState (c : Nat) | pourState (c : Nat)
  | rngCtl (c : Nat) | tableCtl (c : Nat) | sReg (c k : Nat) | eReg (c k : Nat) | evAdd (c k : Nat) | qStatus (c q : Nat) | qPos (c q : Nat)
  | stackStatus (k : Nat) | stackErrors (k : Nat) | classMap (k : Nat) | partCfg (k p : Nat) | partStat (k p : Nat) | hbmInfo
  | sliceStatus (k : Nat)
  | fabCfg | fabTune | laneStatus (l : Nat) | xeStatus | ilCounts | ilDiscards | ingestReq | ingestStatus
  | huddleStatus | tick | tickStatus | relayCfg | relaySite | relayStatus | hpCtl (k : Nat) | hpOps (k : Nat) | hpStatus (k : Nat)
  | hpVal (k v : Nat)
  | stepStatus | stepNumber | phaseArrive | pubDoorbell | stepCounts | nwState (i : Nat) | nwValue (i : Nat)
  | ssStatus | committedStep | ackedStep | unsentBytes | ssCounts
  | pwrStatus | pwrCounts | slotPwr (k : Nat)
  | oppStatus | oppCfg | kwCfg | oppLevels | oppCounts | kwEnergy | pwrTable (i : Nat)
  | refStatus | refCfg | refMon (i : Nat) | clkCounts
  | thermStatus | thermCfg | coolStatus | thermCounts
  | mbStatus (m : Nat) | mbDoorbell (m : Nat) | mbClaim (m : Nat)
  | bootStatus | rasStatus | rasCounts
  deriving DecidableEq, Repr

/-- A register word from its fields: lowest bit, width, value. -/
def word (fs : List (Nat × Nat × Nat)) : Nat := (fs.map fun f => f.2.2 % 2 ^ f.2.1 * 2 ^ f.1).sum

/-- Word `k` of a table of offsets. -/
def pick (l : List Reg) (k : Nat) : Option Reg := l[k]?

/-! ### Where the registers lie -/

/-- The CSR window (R307): `w` counts words of 8 bytes. -/
def csrReg (c w : Nat) : Option Reg :=
  if w < 14 then
    pick [.seqCtl c, .seqStatus c, .faultInfo c, .faultAddr c, .kprog c, .waitLimit c, .transBase c, .transCtl c, .arithFlags c,
      .podStatus c, .accState c, .pourState c, .rngCtl c, .tableCtl c] w
  else if 0x20 ≤ w ∧ w < 0x40 then some (.sReg c (w - 0x20))
  else if 0x80 ≤ w ∧ w < 0xC0 then some (.eReg c (w - 0x80))
  else if 0xC0 ≤ w ∧ w < 0x100 then some (.evAdd c (w - 0xC0))
  else if 0x100 ≤ w ∧ w < 0x130 then
    if w % 4 = 0 then some (.qStatus c ((w - 0x100) / 4)) else if w % 4 = 1 then some (.qPos c ((w - 0x100) / 4)) else none
  else none

/-- Cache and regulator control (R490). -/
def cacheCtlReg (w : Nat) : Option Reg :=
  let k := w / 0x2000
  let r := w % 0x2000
  if k < 12 then
    if r < 3 then pick [.stackStatus k, .stackErrors k, .classMap k] r
    else if 0x20 ≤ r ∧ r < 0x40 then
      some (if r % 2 = 0 then .partCfg k ((r - 0x20) / 2) else .partStat k ((r - 0x20) / 2))
    else none
  else if w = 0x20000 then some .hbmInfo
  else if 0x40000 ≤ w ∧ w < 0x40000 + 24 * 0x200 ∧ w % 0x200 = 0 then some (.sliceStatus ((w - 0x40000) / 0x200))
  else none

/-- The fabric block and the ingest block (R552, R606). -/
def fabricReg (w : Nat) : Option Reg :=
  if w < 2 then pick [.fabCfg, .fabTune] w
  else if 0x20 ≤ w ∧ w < 0x20 + 144 then some (.laneStatus (w - 0x20))
  else if 0x2000 ≤ w ∧ w < 0x2003 then pick [.xeStatus, .ilCounts, .ilDiscards] (w - 0x2000)
  else if 0x4000 ≤ w ∧ w < 0x4002 then pick [.ingestReq, .ingestStatus] (w - 0x4000)
  else none

/-- The control blocks (R376, R448, R587, R651, R686, R715, R734, R756, R824, R850): 64 KiB each. -/
def controlReg (w : Nat) : Option Reg :=
  let r := w % 0x2000
  match w / 0x2000 with
  | 0 =>
    if r < 7 then
      if r = 0 then some .huddleStatus else if r = 1 then some .tick else if r = 2 then some .tickStatus else if r = 4 then some .relayCfg
      else if r = 5 then some .relaySite else if r = 6 then some .relayStatus else none
    else if 0x200 ≤ r ∧ r < 0x300 then
      let k := (r - 0x200) / 0x20
      let o := r % 0x20
      if o < 3 then pick [.hpCtl k, .hpOps k, .hpStatus k] o else if 16 ≤ o then some (.hpVal k (o - 16)) else none
    else none
  | 1 =>
    if r < 5 then pick [.stepStatus, .stepNumber, .phaseArrive, .pubDoorbell, .stepCounts] r
    else if 0x20 ≤ r ∧ r < 0xA0 then some (if r % 2 = 0 then .nwState ((r - 0x20) / 2) else .nwValue ((r - 0x20) / 2))
    else none
  | 2 => pick [.ssStatus, .committedStep, .ackedStep, .unsentBytes, .ssCounts] r
  | 3 => if r < 2 then pick [.pwrStatus, .pwrCounts] r else if 0x100 ≤ r ∧ r < 0x220 then some (.slotPwr (r - 0x100)) else none
  | 4 =>
    if r < 6 then pick [.oppStatus, .oppCfg, .kwCfg, .oppLevels, .oppCounts, .kwEnergy] r
    else if 0x20 ≤ r ∧ r < 0x34 then some (.pwrTable (r - 0x20)) else none
  | 5 => pick [.refStatus, .refCfg, .refMon 0, .refMon 1, .refMon 2, .clkCounts] r
  | 6 => pick [.thermStatus, .thermCfg, .coolStatus, .thermCounts] r
  | 7 => if r < 64 then pick [.mbStatus (r / 4), .mbDoorbell (r / 4), .mbClaim (r / 4)] (r % 4) else none
  | 8 => if r = 0 then some .bootStatus else none
  | 9 => pick [.rasStatus, .rasCounts] r
  | _ => none

/-- The register that holds the byte at a place of the map, if there is one. -/
def Place.reg : Place → Option Reg
  | .csr c off => csrReg c (off / 8)
  | .cacheCtl off => cacheCtlReg (off / 8)
  | .fabric off => fabricReg (off / 8)
  | .control off => controlReg (off / 8)
  | _ => none

/-! ### What they hold -/

/-- SEQ_STATUS (R309). -/
def Cluster.seqStatus (k : Cluster) : Nat :=
  let (waiting, ev) : Bool × Nat := match k.hold with
    | .wait e _ _ _ => (true, e)
    | _ => (false, 0)
  let stall := match k.hold with
    | .stall _ _ => true
    | _ => false
  let fence := match k.hold with
    | .fence _ _ => true
    | _ => false
  word [(0, 2, k.st.code), (2, 1, b2n k.ended), (3, 1, b2n waiting), (4, 6, ev), (10, 1, b2n stall), (11, 1, b2n fence),
    (12, 1, b2n k.fenced), (32, 21, k.pc)]

/-- KPROG (R311). -/
def Cluster.kprog (k : Cluster) : Nat :=
  let on := k.mma0.any (·.stopped)
  word [(0, 25, if on then k.kDone else 0), (25, 1, b2n on), (26, 1, b2n k.mma1.isSome), (32, 21, if on then k.mmaPc else 0)]

/-- ACC_STATE (R165). -/
def Cluster.accStateWord (k : Cluster) : Nat :=
  let busy (n : Nat) : Bool := k.mmas.any fun m => decide (m.set = n)
  word [(0, 8, unsigned 8 k.a0.xref), (8, 8, unsigned 8 k.a1.xref), (16, 1, b2n k.a0.sat), (17, 1, b2n k.a1.sat), (18, 1, b2n k.clFull),
    (19, 1, b2n (busy 0)), (20, 1, b2n (busy 1))]

/-- POUR_STATE (R219): a started Pour has read its rows. -/
def Cluster.pourStateWord (k : Cluster) : Nat :=
  word [(0, 1, b2n (!k.pours.isEmpty)), (1, 1, b2n (k.pour0.any (·.out.isNone) && k.corrPending)),
    (8, 8, if k.pour0.any (·.out.isSome) then 128 else 0), (16, 4, k.pourStage), (20, 4, k.pourCode), (24, 1, b2n k.pourFault)]

/-- Q_STATUS (R313). -/
def Slot.statusWord (x : Slot) (q : Nat) : Nat :=
  word [(0, 3, x.state.code), (16, 16, if q < 8 then x.dist else 0), (32, 32, min 0xFFFFFFFF x.done)]

/-- Q_POS (R313). -/
def Slot.posWord (x : Slot) (q : Nat) : Nat :=
  if q < 8 then word [(0, 32, x.take), (32, 32, x.fetch)]
  else if x.desc.pod then word [(0, 32, x.posA), (32, 32, x.posB)]
  else word [(0, 32, x.posA)]

/-- PART_CFG (R494). -/
def Part.cfgWord (p : Part) : Nat := word [(0, 9, p.min), (16, 9, p.cap), (32, 16, p.burst)]

/-- LANE_STATUS (R554). -/
def LaneSt.statusWord (x : LaneSt) : Nat :=
  word [(0, 2, x.state.code), (2, 1, b2n x.laserLow), (3, 1, b2n x.miscabled), (4, 1, b2n x.flap), (16, 16, x.fecUncorr),
    (32, 16, x.pauseRx), (48, 16, x.misplane)]

/-- FAB_CFG (R553). -/
def Fabric.cfgWord (f : Fabric) : Nat :=
  word [(0, 8, f.fabricId), (8, 1, f.half), (9, 17, f.device), (32, 12, f.vlanBase), (48, 16, f.etype)]

/-- FAB_TUNE (R553). -/
def Fabric.tuneWord (f : Fabric) : Nat := word [(0, 16, f.dMark), (16, 16, f.wInit), (32, 16, f.wMax)]

/-- TICK_STATUS (R588). -/
def HuddleSt.tickWord (h : HuddleSt) : Nat :=
  word [(0, 2, h.tickState.code), (2, 1, b2n h.isRoot), (3, 1, b2n h.lockLost), (4, 16, unsigned 16 (clampInt (-32768) 32767 h.offset)),
    (24, 17, h.parent)]

/-- STEP_STATUS (R377). -/
def State.stepWord (s : State) : Nat :=
  word [(0, 3, s.step.phase), (3, 3, s.step.pref), (6, 3, s.opp.effective), (9, 2, s.step.verdict), (11, 1, b2n s.step.verdictValid),
    (12, 2, s.step.kind), (14, 9, s.step.arrived.length), (23, 1, b2n s.step.skew), (24, 1, b2n s.step.pubRefused)]

/-- NW_STATE (R408). -/
def WatchInput.stateWord (x : WatchInput) : Nat :=
  word [(0, 2, x.keep.state.code), (2, 7, x.keep.count), (9, 1, b2n x.bad), (10, 1, b2n x.late), (32, 32, x.keep.clamp)]

/-- SS_STATUS (R449). -/
def StreamSt.statusWord (x : StreamSt) : Nat :=
  word [(0, 2, x.twin), (2, 1, b2n x.twinlessRun), (3, 1, b2n x.exportOn), (4, 2, x.gen0.state.code), (6, 2, x.gen1.state.code),
    (8, 1, b2n x.stopped), (9, 1, b2n x.restoring), (10, 1, b2n x.exportLag)]

/-- SLOT_PWR (R654). -/
def SlotPwr.word (d : SlotPwr) : Nat :=
  Sys2Proof.Machine.word [(0, 2, d.mode.code), (2, 1, b2n d.calOk), (3, 5, d.calSensors), (16, 16, d.boosts), (32, 32, d.stretched)]

/-- OPP_STATUS (R687). -/
def OppSt.statusWord (o : OppSt) : Nat :=
  word [(0, 3, o.requested), (3, 3, o.ceil), (6, 3, o.effective), (9, 3, o.afford), (12, 1, b2n o.alertDem), (13, 1, b2n o.capDem),
    (14, 1, b2n o.droopDem), (15, 1, b2n o.thermDem), (16, 1, b2n o.hyst), (17, 1, b2n o.paced), (18, 1, b2n o.defaults),
    (19, 1, b2n o.kwActive), (20, 1, b2n o.kwLimit)]

/-- PWR_TABLE (R690). -/
def PwrEnt.word (e : PwrEnt) : Nat :=
  Sys2Proof.Machine.word [(0, 16, e.pMeas), (16, 3, e.stepMeas), (19, 1, b2n e.deflt), (20, 10, e.busy), (32, 32, e.dur)]

/-- REF_STATUS (R717) at a time. -/
def ClockSt.statusWord (k : ClockSt) (now : Nat) : Nat :=
  word [(0, 2, k.selected), (2, 2, k.pll.code), (4, 2, k.a.state.code), (6, 2, k.b.state.code), (8, 2, k.f.state.code),
    (10, 1, b2n k.revertPending), (11, 1, b2n k.holdoverSeen), (12, 1, b2n k.testFail),
    (16, 16, if k.pll = .holdover then min 0xFFFF ((now - k.holdAt) / 1000000000) else 0)]

/-- Whether an event matches a mask (R753). -/
def EventRec.masked (e : EventRec) (mask : Nat) : Bool := bitN mask (e.cls - 1)

/-- The events of the ring that a mailbox's mask lets through and that lie past `from_`, oldest first (R755). -/
def State.eventsPast (s : State) (m from_ : Nat) : List EventRec :=
  let x := s.box m
  (s.log.events.filter fun e => decide (from_ < e.seq) && e.masked x.mask).reverse

/-- MB_STATUS (R756). -/
def State.mbWord (s : State) (m : Nat) : Nat :=
  let x := s.box m
  let owner := match x.owner with
    | some (.cluster c) => c
    | _ => 0x100
  word [(0, 2, x.state.code), (2, 2, x.abort), (4, 1, b2n (decide (m < 12) && !(s.eventsPast m x.cursor).isEmpty)),
    (5, 1, b2n (decide (m = 0) || x.owner.isSome)), (8, 8, x.seqLo), (16, 9, if 12 ≤ m then owner else 0), (32, 16, x.lastStatus)]

/-- BOOT_STATUS (R824). -/
def State.bootWord (s : State) : Nat :=
  let b := s.boot
  word [(0, 3, b.stage), (3, 3, b.cause), (6, 2, b.source), (8, 1, b.slot), (9, 1, b2n b.fallback), (10, 1, b2n b.lastGasp),
    (11, 1, b2n s.dbg.unlocked), (12, 1, b2n b.bcrValid), (13, 1, b2n b.bistRan), (14, 2, b.bootSel), (32, 32, b.announceMs)]

/-- The units of a class whose entry meets a test. -/
def State.countUnits (s : State) (cls : Nat) (f : Nat → UnitEnt → Bool) : Nat :=
  (s.units.filter fun p => decide (p.1 / 2 ^ 28 = cls) && f (p.1 % 2 ^ 28) p.2).length

/-- RAS_STATUS (R850). -/
def State.rasWord (s : State) : Nat :=
  let gone (_ : Nat) (e : UnitEnt) : Bool := decide (e.state = .retired)
  word [(0, 8, s.countUnits 1 fun k e => decide (k < 144 ∧ e.state = .spare)), (8, 8, s.countUnits 1 fun k e => decide (144 ≤ k ∧ e.state = .spare)),
    (16, 10, s.countUnits 2 fun _ e => decide (e.state = .retired) || e.pending), (26, 9, s.countUnits 3 gone),
    (35, 8, s.countUnits 4 gone + s.countUnits 5 gone), (43, 1, s.ras.copy), (44, 1, b2n s.ras.fresh), (45, 1, b2n s.ras.writeFail)]

/-- PENDING_REPAIRS (R850): repair entries that this boot has not applied, and PENDING retirements. -/
def State.pendingRepairs (s : State) : Nat := s.ras.repairs.length - s.ras.applied + (s.units.filter fun p => p.2.pending).length

/-- What a register holds (R16); a write-only one reads as zero. -/
def State.regVal (s : State) : Reg → Nat
  | .seqCtl c => b2n (s.cl c).haltReq
  | .seqStatus c => (s.cl c).seqStatus
  | .faultInfo c => (s.cl c).faultInfo
  | .faultAddr c => (s.cl c).faultAddr
  | .kprog c => (s.cl c).kprog
  | .waitLimit c => (s.cl c).waitLimit
  | .transBase c => (s.cl c).transBase
  | .transCtl c => word [(0, 1, b2n (s.cl c).transInv), (1, 1, b2n (s.cl c).transBad)]
  | .arithFlags c => (s.cl c).arith.toNat
  | .podStatus c => word [(0, 6, (s.cl c).podFlags.toNat), (16, 16, (s.cl c).podCount)]
  | .accState c => (s.cl c).accStateWord
  | .pourState c => (s.cl c).pourStateWord
  | .rngCtl c => word [(0, 1, b2n (s.cl c).seeded), (32, 32, (s.cl c).seedStep)]
  | .tableCtl c =>
    let k := s.cl c
    word [(0, 4, k.rtInv.toNat), (4, 1, b2n k.gridInv), (8, 4, ((List.range 4).map fun n => if k.rtLoaded n then 2 ^ n else 0).sum),
      (12, 4, k.rtStale.toNat)]
  | .sReg c k => if (s.cl c).st = .halted then (s.cl c).sreg k else 0
  | .eReg c k => (s.cl c).ev k
  | .evAdd _ _ => 0
  | .qStatus c q => ((s.cl c).slot q).statusWord q
  | .qPos c q => ((s.cl c).slot q).posWord q
  | .stackStatus k =>
    let x := s.stack k
    word [(0, 8, x.temp), (8, 2, x.level), (10, 1, b2n x.refresh2x), (11, 1, b2n x.hot), (12, 8, x.tempMax)]
  | .stackErrors k => word [(0, 32, (s.stack k).ce), (32, 16, (s.stack k).ue)]
  | .classMap k => word ((List.range 5).map fun i => (4 * i, 4, (s.stack k).classMap.getD i 0))
  | .partCfg k p => ((s.stack k).part p).cfgWord
  | .partStat k p =>
    word [(0, 48, ((s.stack k).part p).sectors), (48, 1, b2n ((s.stack k).wants p && decide (((s.stack k).part p).tok < 16)))]
  | .hbmInfo => word [(0, 48, s.memsys.hbmTop), (48, 10, s.memsys.channels.length)]
  | .sliceStatus k => word [(0, 16, (s.slice k).ways), (16, 16, (s.slice k).ce), (32, 16, (s.slice k).dirEvict)]
  | .fabCfg => s.fab.cfgWord
  | .fabTune => s.fab.tuneWord
  | .laneStatus l => (s.lane l).statusWord
  | .xeStatus =>
    word [(0, 1, b2n s.fab.xeSat), (1, 1, b2n s.fab.xeNan), (2, 1, b2n s.fab.xeOvf), (3, 1, b2n s.fab.xeFtz), (4, 1, b2n s.fab.xePad),
      (16, 16, s.fab.posts.length)]
  | .ilCounts => word [(0, 32, s.fab.retxCnt), (32, 16, s.fab.giveup), (48, 16, s.fab.rnrCnt)]
  | .ilDiscards => word [(0, 16, s.fab.ctxFull), (16, 16, s.fab.stale), (32, 16, s.fab.other), (48, 16, s.fab.denied)]
  | .ingestReq => 0
  | .ingestStatus =>
    word [(0, 1, b2n s.ing.refused), (1, 1, b2n s.ing.qpError), (16, 16, s.ing.cnpSent), (32, 16, s.ing.stray)]
  | .huddleStatus =>
    word [(0, 16, s.hud.treeEpoch), (16, 2, s.hud.levels), (18, 1, b2n s.hud.postBusy), (19, 1, b2n s.hud.mismatch),
      (20, 1, b2n s.hud.syncLate), (32, 16, s.hud.resends)]
  | .tick => s.tick % 2 ^ 64
  | .tickStatus => s.hud.tickWord
  | .relayCfg => word [(0, 1, b2n s.hud.relayMode), (16, 16, s.hud.rampRate), (32, 16, s.hud.rampMax)]
  | .relaySite => word [(0, 32, s.hud.siteRate), (32, 32, s.hud.siteBurst)]
  | .relayStatus =>
    word [(0, 16, s.hud.pceil), (16, 16, min 0xFFFF s.hud.grant), (32, 1, b2n s.hud.fallback), (33, 1, b2n s.hud.grantMissed)]
  | .hpCtl _ => 0
  | .hpOps k => (s.slotHp k).ops % 2 ^ 64
  | .hpStatus k => word [(0, 2, (s.slotHp k).state), (2, 1, b2n (s.slotHp k).mismatch), (32, 32, (s.slotHp k).seq)]
  | .hpVal k v => tabGet 0 (s.slotHp k).vals v % 2 ^ 64
  | .stepStatus => s.stepWord
  | .stepNumber => s.step.number
  | .phaseArrive => 0
  | .pubDoorbell => 0
  | .stepCounts => word [(0, 16, s.step.fetchRetry), (16, 16, s.step.inert), (32, 16, s.step.valueRepair)]
  | .nwState i => (tabGet {} s.watch i).stateWord
  | .nwValue i => word [(0, 32, (tabGet {} s.watch i).keep.ema), (32, 32, (tabGet {} s.watch i).keep.obs)]
  | .ssStatus => s.ss.statusWord
  | .committedStep => s.ss.committed
  | .ackedStep => s.ss.acked
  | .unsentBytes => s.unsentBytes
  | .ssCounts => word [(0, 16, s.ss.nakNew), (16, 16, s.ss.nakOld), (32, 16, s.ss.inert), (48, 16, s.ss.twinValue)]
  | .pwrStatus =>
    word [(0, 16, s.pwr.vinMv), (16, 1, b2n s.pwr.alert), (17, 1, b2n s.pwr.alertSeen), (18, 1, b2n s.pwr.vinFail),
      (19, 1, b2n s.pmb.lost), (20, 1, b2n s.pwr.droopHigh), (21, 1, b2n s.pwr.ovSeen), (32, 16, s.pwr.pkgW)]
  | .pwrCounts => word [(0, 16, s.pwr.alertCount), (16, 16, s.pwr.failGlitch), (32, 16, s.pwr.raiseLate)]
  | .slotPwr k => (s.dom k).word
  | .oppStatus => s.opp.statusWord
  | .oppCfg => s.opp.cfg
  | .kwCfg => s.opp.kwCfg
  | .oppLevels => word [(0, 16, s.opp.tgtW), (16, 16, s.opp.limitW), (32, 16, s.opp.pIdle), (48, 16, s.opp.stepPeak)]
  | .oppCounts => word [(0, 16, s.opp.capEvents), (16, 16, s.opp.droopEvents), (32, 16, s.opp.bandHigh), (48, 16, s.opp.bandLow)]
  | .kwEnergy => word [(0, 48, min (2 ^ 48 - 1) (s.opp.kwUj / 1000)), (48, 16, s.opp.kwLast)]
  | .pwrTable i => (tabGet {} s.opp.table i).word
  | .refStatus => s.clk.statusWord s.now
  | .refCfg => s.clk.cfg
  | .refMon i => (s.clk.src i).mon
  | .clkCounts => word [(0, 16, s.clk.switches), (16, 16, s.clk.losses), (32, 16, s.clk.changeLate), (48, 16, s.clk.genUnlock)]
  | .thermStatus =>
    word [(0, 12, s.therm.tj), (12, 1, b2n s.therm.throttle), (13, 1, b2n s.therm.hot100), (14, 1, b2n s.therm.tjOver),
      (15, 1, b2n s.therm.tripSeen), (16, 1, b2n s.therm.rampHold), (17, 1, b2n s.therm.coolDem), (32, 12, s.therm.tjMax)]
  | .thermCfg => s.therm.cfg
  | .coolStatus =>
    word [(0, 16, s.therm.qCool), (16, 1, b2n s.therm.stale), (17, 2, s.therm.hb.code), (19, 1, b2n s.therm.hbSeen),
      (20, 1, b2n s.therm.usingDefaults), (32, 16, s.therm.coolW), (48, 16, s.therm.flowHint)]
  | .thermCounts =>
    word [(0, 16, s.therm.throttles), (16, 16, s.therm.staleEvents), (32, 16, s.therm.hbFaults), (48, 16, s.therm.rampHolds)]
  | .mbStatus m => s.mbWord m
  | .mbDoorbell _ => 0
  | .mbClaim m => match (s.box m).owner with
    | some (.cluster c) => c
    | _ => 0x100
  | .bootStatus => s.bootWord
  | .rasStatus => s.rasWord
  | .rasCounts => word [(0, 32, s.log.errSeq), (32, 16, s.log.dropped), (48, 16, s.pendingRepairs)]

/-- The 8 bytes of a register, as a response carries them. -/
def State.regBytes (s : State) (r : Reg) : List Byte := leBytes 8 (s.regVal r)

/-- The bytes of registers in order. -/
def State.regsBytes (s : State) (rs : List Reg) : List Byte := rs.flatMap s.regBytes

end Sys2Proof.Machine
end

