-- ==== Sys2Proof/Machine/RegRules.lean ====
section
/-!
DEFINITION. The fields of the configuration registers with what their tables mark reserved (R22, R494, R553, R590, R688, R716, R736),
and how a value enters each register.
-/
namespace Sys2Proof.Machine

/-- A field of a configuration register: lowest bit, width, whether it is Res, and the values that are not reserved. -/
structure CfgField where
  lo : Nat
  width : Nat
  res : Bool := false
  ok : Nat → Bool := fun _ => true

/-- A reserved field (R21). -/
def resField (lo width : Nat) : CfgField := { lo := lo, width := width, res := true, ok := fun v => v == 0 }

/-- A field that holds values from `a` to `b`. -/
def rangeField (lo width a b : Nat) : CfgField := { lo := lo, width := width, ok := fun v => decide (a ≤ v ∧ v ≤ b) }

/-- A field that takes every value. -/
def anyField (lo width : Nat) : CfgField := { lo := lo, width := width }

/-- The field's value in a word. -/
def CfgField.get (f : CfgField) (w : Nat) : Nat := w / 2 ^ f.lo % 2 ^ f.width

/-- OPP_CFG (R688). -/
def oppCfgFields : List CfgField :=
  [rangeField 0 11 200 2000, resField 11 5, rangeField 16 10 50 1000, rangeField 26 10 50 1000, resField 36 4, rangeField 40 8 1 255,
    anyField 48 5, resField 53 3, rangeField 56 7 50 98, resField 63 1]

/-- KW_CFG (R688). -/
def kwCfgFields : List CfgField := [anyField 0 1, resField 1 7, rangeField 8 8 0 100, rangeField 16 16 0 20000, resField 32 32]

/-- RELAY_CFG (R590). -/
def relayCfgFields : List CfgField := [anyField 0 1, resField 1 15, rangeField 16 16 1 65535, rangeField 32 16 1 65535, resField 48 16]

/-- RELAY_SITE (R590). -/
def relaySiteFields : List CfgField := [anyField 0 32, anyField 32 32]

/-- THERM_CFG (R736). -/
def thermCfgFields : List CfgField :=
  [rangeField 0 10 500 800, resField 10 6, rangeField 16 8 5 50, rangeField 24 8 1 50, anyField 32 1, resField 33 31]

/-- REF_CFG (R716) for a value `w`: a field that repeats a source of an earlier one is at fault. -/
def refCfgFields (w : Nat) : List CfgField :=
  let p0 := fld w 1 0
  let p1 := fld w 3 2
  [anyField 0 2, { lo := 2, width := 2, ok := fun v => v == 3 || v != p0 },
    { lo := 4, width := 2, ok := fun v => v == 3 || (v != p0 && v != p1) }, resField 6 2, anyField 8 1, anyField 9 1, resField 10 54]

/-- PART_CFG (R494). -/
def partCfgFields : List CfgField :=
  [rangeField 0 9 0 256, resField 9 7, rangeField 16 9 1 256, resField 25 7, rangeField 32 16 32 65535, resField 48 16]

/-- CLASS_MAP (R493). -/
def classMapFields : List CfgField := [anyField 0 20, resField 20 44]

/-- FAB_CFG (R553). -/
def fabCfgFields : List CfgField :=
  [anyField 0 8, anyField 8 1, anyField 9 17, resField 26 6, rangeField 32 12 1 3839, resField 44 4, anyField 48 16]

/-- FAB_TUNE (R553) for a value `w`: W_INIT is at most its W_MAX. -/
def fabTuneFields (w : Nat) : List CfgField := [anyField 0 16, rangeField 16 16 1 (fld w 47 32), rangeField 32 16 1 4096, resField 48 16]

/-- The lowest bit of the first field at fault in a word. -/
def faultBit (fs : List CfgField) (w : Nat) : Option Nat := (fs.find? fun f => !f.ok (f.get w)).map (·.lo)

/-- A write under R21 and R22: Res bits read as zero, a field with a reserved encoding keeps its previous value. -/
def writeFields (fs : List CfgField) (old new : Nat) : Nat :=
  (fs.map fun f => (if f.res then 0 else if f.ok (f.get new) then f.get new else f.get old) * 2 ^ f.lo).sum

/-- A field other than Res holds a reserved encoding, so R22 logs. -/
def reservedWrite (fs : List CfgField) (new : Nat) : Bool := fs.any fun f => !f.res && !f.ok (f.get new)

/-! ### Entering the registers -/

/-- RELAY_CFG takes a value; switching from RELAY to LOCAL leaves PCEIL where it is (R581). -/
def State.setRelayCfg (s : State) (w : Nat) : State :=
  s.modHud fun h => { h with relayMode := bitN w 0, rampRate := fld w 31 16, rampMax := fld w 47 32 }

/-- RELAY_SITE takes a value. -/
def State.setRelaySite (s : State) (w : Nat) : State := s.modHud fun h => { h with siteRate := fld w 31 0, siteBurst := fld w 63 32 }

/-- REF_CFG takes a value, which acts at the next synchronised count (R701). -/
def State.setRefCfg (s : State) (w : Nat) : State :=
  { s with clk := { s.clk with cfg := w }, hud := { s.hud with changes := s.hud.changes ++ [(nextSync s.tick, .refCfg w)] } }

/-- PART_CFG of a partition of a stack takes a value. -/
def State.setPart (s : State) (k p w : Nat) : State :=
  let x := s.stack k
  s.setStack k { x with parts := tabSet x.parts p { x.part p with min := fld w 8 0, cap := fld w 24 16, burst := fld w 47 32 } }

/-- CLASS_MAP of a stack takes a value. -/
def State.setClassMap (s : State) (k w : Nat) : State :=
  s.setStack k { s.stack k with classMap := (List.range 5).map fun i => fld w (4 * i + 3) (4 * i) }

/-- FAB_CFG takes a value. -/
def State.setFabCfg (s : State) (w : Nat) : State :=
  { s with fab := { s.fab with
      fabricId := fld w 7 0, half := fld w 8 8, device := fld w 25 9, vlanBase := fld w 43 32, etype := fld w 63 48 } }

/-- FAB_TUNE takes a value. -/
def State.setFabTune (s : State) (w : Nat) : State :=
  { s with fab := { s.fab with dMark := fld w 15 0, wInit := fld w 31 16, wMax := fld w 47 32 } }

/-- The tick tree of a fabric configuration (R573, R575): the root is LOCKED, every other device ACQUIRING. -/
def State.startTick (s : State) (root root2 : Nat) : State :=
  let me := s.fab.device
  let s := s.modHud fun h => { h with
    tickRoot := root, tickRoot2 := root2, useRoot := root, isRoot := decide (me = root), burst := [], burstLeft := 0, goodBursts := 0
    stepped := false, slew := 0, slewAcc := 0, lastReply := s.now, tickState := if me = root then .locked else .acquiring }
  s.modHud fun h => { h with parent := if me = root then root else s.treeUp }

end Sys2Proof.Machine
end

