-- ==== Sys2Proof/Machine/BootOps.lean ====
section
/-!
DEFINITION. Reset (R799 to R801), the console (R623), the flash with its journal (R618, R807), boot headers, firmware images and the board
configuration record (R806, R809, R810, R815, R816), the repair record (R838, R839), and the map of logical clusters (R827, R828).
-/
namespace Sys2Proof.Machine

/-! ### Reset -/

/-- The state while SYS_RESET_N is asserted (R799, R801): fuses, RS bits, the flash and the latest coolant record stay, everything else
starts again. The TAP's instruction is not the reset's (R621). -/
def State.restart (s : State) (cause : Nat) : State :=
  { pending := s.pending, now := s.now, freeCtr := s.freeCtr, readout := s.readout, flash := s.flash
    memsys := { stks := s.memsys.stks.map fun p => (p.1, ({ tempMax := p.2.tempMax } : Stack)) }
    fab := { engines := s.fab.engines }
    smb := { coolant := s.smb.coolant }
    dbg := { ir := s.dbg.ir, cells := s.dbg.cells }
    pwr := { ovSeen := s.pwr.ovSeen }
    therm := { tripSeen := s.therm.tripSeen, tjMax := s.therm.tjMax }
    boot := { cause := cause, pinReset := true, rollback := s.boot.rollback, wdog := s.boot.wdog } }

/-- One line of text goes to UART_TX (R623): where the buffer of 64 KiB is full the oldest whole lines are dropped. Its text is a free
value. -/
def dropLinesTo (cap : Nat) : List (List Byte) → List (List Byte)
  | [] => []
  | l :: t => if ((l :: t).map List.length).sum ≤ cap then l :: t else dropLinesTo cap t

/-- Write a line. -/
def State.uartLine (s : State) : State :=
  let ls := s.uart.lines ++ [Config.uartLine s.freeCtr]
  let kept := dropLinesTo 65536 ls
  { s with freeCtr := s.freeCtr + 1
           uart := { s.uart with lines := kept, dropped := s.uart.dropped + (ls.length - kept.length) } }

/-! ### The flash journal -/

/-- The journal (R805, R807). -/
def journalBase : Nat := 0x30000

/-- An intent's bytes (R807): OP 1 erase, 2 program; STATE 0xFE. -/
def intent (op addr len : Nat) : List Byte :=
  leBytes 1 op ++ leBytes 1 0xFE ++ leBytes 2 0 ++ leBytes 4 addr ++ leBytes 4 len ++ List.replicate 20 0#8

/-- The offsets of the journal's entries. -/
def journalSlots : List Nat := (List.range 2048).map fun i => journalBase + 32 * i

/-- Append an intent; a full journal is erased first, where it holds no open one. -/
def State.journalAdd (s : State) (op addr len : Nat) : State :=
  match journalSlots.find? fun a => s.flashBlank a 32 with
  | some a => s.flashWrite a (intent op addr len)
  | none =>
    if journalSlots.any fun a => decide ((s.flashByte (a + 1)).toNat = 0xFE) then s
    else (s.flashErase journalBase 65536).flashWrite journalBase (intent op addr len)

/-- The open intents for an address become complete. -/
def State.journalClose (s : State) (op addr : Nat) : State :=
  journalSlots.foldl (fun s a =>
    if (s.flashByte a).toNat = op ∧ (s.flashByte (a + 1)).toNat = 0xFE ∧ leAt (s.flashBytes (a + 4) 4) 0 4 = addr then
      s.flashWrite (a + 1) [0xFC#8]
    else s) s

/-- An erase that completes, with its intent. -/
def State.eraseJ (s : State) (a n : Nat) : State := ((s.journalAdd 1 a n).flashErase a n).journalClose 1 a

/-- A program that completes, with its intent. -/
def State.writeJ (s : State) (a : Nat) (bs : List Byte) : State := ((s.journalAdd 2 a bs.length).flashWrite a bs).journalClose 2 a

/-- At boot (R807): an open erase is done again; of an open program the 4 KiB sectors are erased. -/
def State.journalReplay (s : State) : State :=
  journalSlots.foldl (fun s a =>
    if (s.flashByte (a + 1)).toNat = 0xFE then
      let b := leAt (s.flashBytes (a + 4) 4) 0 4
      let n := leAt (s.flashBytes (a + 8) 4) 0 4
      let s := if (s.flashByte a).toNat = 1 then s.flashErase b n
        else s.flashErase (b / 4096 * 4096) ((b + n + 4095) / 4096 * 4096 - b / 4096 * 4096)
      s.flashWrite (a + 1) [0xFC#8]
    else s) s

/-! ### Boot headers and images -/

/-- The base of a firmware slot (R805). -/
def fwSlot (k : Nat) : Nat := if k = 0 then 0x100000 else 0x500000

/-- ASCII KT9BOOT1. -/
def bootMagic : List Byte := ascii [0x4B, 0x54, 0x39, 0x42, 0x4F, 0x4F, 0x54, 0x31]

/-- A boot header copy is valid (R806). -/
def State.bootHdrOk (s : State) (copy : Nat) : Bool :=
  let b := s.flashBytes (0x10000 * copy) 32
  decide (b.take 8 = bootMagic) && decide ((crc64 (b.take 24)).toNat = leAt b 0x18 8)

/-- GEN of a copy. -/
def State.bootGen (s : State) (copy : Nat) : Nat := leAt (s.flashBytes (0x10000 * copy + 8) 4) 0 4

/-- Of two generations the second is later by signed 32-bit difference (R806, R839). -/
def laterGen (a b : Nat) : Bool := decide (0 < signed 32 ((b + 2 ^ 32 - a % 2 ^ 32) % 2 ^ 32))

/-- The copy that governs (R806). -/
def State.bootCopy (s : State) : Option Nat :=
  match s.bootHdrOk 0, s.bootHdrOk 1 with
  | true, true => some (b2n (laterGen (s.bootGen 0) (s.bootGen 1)))
  | true, false => some 0
  | false, true => some 1
  | false, false => none

/-- The slot that the boot header selects (R806). -/
def State.bootSlot (s : State) : Nat := s.bootCopy.elim 0 fun c => (s.flashByte (0x10000 * c + 0xC)).toNat % 2

/-- The bytes of a boot header. -/
def bootHdr (gen slot : Nat) : List Byte :=
  let b := bootMagic ++ leBytes 4 gen ++ leBytes 1 slot ++ List.replicate 11 0#8
  b ++ leBytes 8 (crc64 b).toNat

/-- ASCII KT9FWIM1. -/
def fwMagic : List Byte := ascii [0x4B, 0x54, 0x39, 0x46, 0x57, 0x49, 0x4D, 0x31]

/-- A range of bytes is zero. -/
def zeroAt (b : List Byte) (off n : Nat) : Bool := (slice b off n).all (· == 0#8)

/-- An image is accepted (R809, R810). -/
def imageOk (rollback : Nat) (b : List Byte) : Bool :=
  let sec := leAt b 0xC 4
  let len := leAt b 0x10 4
  let key := leAt b 0x14 1
  let pub := slice b 0x20 97
  decide (512 ≤ b.length ∧ b.take 8 = fwMagic ∧ len % 32 = 0 ∧ len ≤ 3 * 2 ^ 20 ∧ 512 + len ≤ b.length ∧ key < 4 ∧ sec ≤ 64 ∧ rollback ≤ sec) &&
    zeroAt b 0x15 11 && zeroAt b 0x81 31 && zeroAt b 0x130 208 &&
    decide (Config.sha384 pub = Config.keyHash key) && Config.keyIntact key &&
    Config.ecdsa pub (Config.sha384 (slice b 0 0xD0)) (slice b 0xD0 48) (slice b 0x100 48) &&
    decide ((Config.sha384 (slice b 512 len)).toNat = beAt b 0xA0 48)

/-- The image in a firmware slot: its header says how long it is. -/
def State.slotImage (s : State) (k : Nat) : List Byte :=
  s.flashBytes (fwSlot k) (512 + min (3 * 2 ^ 20) (leAt (s.flashBytes (fwSlot k + 0x10) 4) 0 4))

/-- The slot that boots and whether it is the other one (R803). -/
def State.bootChoice (s : State) : Option (Nat × Bool) :=
  let k := s.bootSlot
  if imageOk s.boot.rollback (s.slotImage k) then some (k, false)
  else if imageOk s.boot.rollback (s.slotImage (1 - k)) then some (1 - k, true)
  else none

/-! ### The board configuration record -/

/-- ASCII KT9BCR01. -/
def bcrMagic : List Byte := ascii [0x4B, 0x54, 0x39, 0x42, 0x43, 0x52, 0x30, 0x31]

/-- The record in the flash, where its MAGIC, CRC and Res bytes are right (R815, R816). -/
def State.bcrRead (s : State) : Option (List Byte) :=
  let b := s.flashBytes 0x20000 256
  if decide (b.take 8 = bcrMagic ∧ (crc64 (Sys2Proof.Machine.slice b 0x10 240)).toNat = leAt b 8 8 ∧ leAt b 0x10 4 < 256) && zeroAt b 0x1E 2 && zeroAt b 0x72 6 &&
      zeroAt b 0x98 104 then some b else none

/-- A bit of FLAGS. -/
def bcrFlag (b : List Byte) (k : Nat) : Bool := bitN (leAt b 0x10 4) k

/-- The field groups whose values their register rules mark reserved (R816), by their bits of FLAGS. -/
def bcrBad (b : List Byte) : List Nat :=
  let bad (k : Nat) : Bool := match k with
    | 1 => decide (leAt b 0x14 2 < 1 ∨ 4094 < leAt b 0x14 2)
    | 3 => (faultBit fabCfgFields (leAt b 0x78 8)).isSome || (faultBit (fabTuneFields (leAt b 0x80 8)) (leAt b 0x80 8)).isSome ||
        decide (2 ^ 17 ≤ leAt b 0x88 4 ∨ 2 ^ 17 ≤ leAt b 0x8C 4)
    | 4 => (faultBit (refCfgFields (leAt b 0x90 8)) (leAt b 0x90 8)).isSome
    | 6 => decide (128 ≤ leAt b 0x70 1)
    | 7 => decide (128 ≤ leAt b 0x71 1)
    | _ => false
  (List.range 8).filter fun k => bcrFlag b k && bad k

/-- The record without the groups that are ignored. -/
def bcrUsed (b : List Byte) : List Byte :=
  patch b 0x10 (leBytes 4 ((bcrBad b).foldl (fun f k => if bitN f k then f - 2 ^ k else f) (leAt b 0x10 4)))

/-- A flag of the record in use. -/
def State.bcrOn (s : State) (k : Nat) : Bool := !s.boot.bcr.isEmpty && bcrFlag s.boot.bcr k

/-- MB_PORT (R815). -/
def State.mbPort (s : State) : Nat :=
  let p := if s.boot.bcr.isEmpty then 0 else leAt s.boot.bcr 0x16 2
  if p = 0 then 7340 else p

/-- The VLAN that the management port uses (R609, R815). -/
def State.mgmtVid (s : State) : Option Nat := if s.bcrOn 1 then some (leAt s.boot.bcr 0x14 2) else none

/-- The management port's addresses (R608, R609): from the record in use. An address that DHCP gave stays. -/
def State.mgmtPort (s : State) : State :=
  let b := s.boot.bcr
  let mac := beAt b 0x18 6
  { s with mgmt := { s.mgmt with
      mac := if b.isEmpty ∨ mac = 0 then 0x0A * 2 ^ 40 + Config.deviceId.toNat % 2 ^ 40 else mac
      ip := if s.bcrOn 2 then beAt b 0x20 4 else s.mgmt.ip } }

/-- The ROM uses the management port under TFTP boot and in recovery wait (R803, R804). -/
def State.romPort (s : State) : State :=
  State.mgmtPort { s with boot := { s.boot with bcr := (s.bcrRead.map bcrUsed).getD [] } }

/-- The board record is read in the FIRMWARE stage (R816): the ports take what it names, and what it ignores is logged, by field group. -/
def State.applyBcr (s : State) : State :=
  let (s, b) : State × List Byte := match s.bcrRead with
    | some b => ((bcrBad b).foldl (fun s k => s.err 0x0A 2 { sev := 0, addr := 0x20000, i0 := k }) s, bcrUsed b)
    | none => (s.err 0x0A 2 { sev := 0, addr := 0x20000, i0 := 32 }, [])
  let s : State := State.mgmtPort { s with boot := { s.boot with bcr := b, bcrValid := !b.isEmpty } }
  { s with
    smb := { s.smb with addr := if s.bcrOn 6 then leAt b 0x70 1 else 0x4C }
    pmb := { s.pmb with addr := if s.bcrOn 7 then leAt b 0x71 1 else 0x40 } }

/-! ### The repair record -/

/-- ASCII KT9REP01. -/
def repMagic : List Byte := ascii [0x4B, 0x54, 0x39, 0x52, 0x45, 0x50, 0x30, 0x31]

/-- The base of a copy of the repair records (R805). -/
def repCopy (k : Nat) : Nat := if k = 0 then 0x40000 else 0x80000

/-- A copy's bytes in use. -/
def State.repBytes (s : State) (k : Nat) : List Byte := s.flashBytes (repCopy k) (min 262144 (leAt (s.flashBytes (repCopy k + 0x14) 4) 0 4))

/-- What is wrong with a copy (R839, R847): 1 MAGIC, 2 CRC, 3 DEVICE_ID, 4 Res; 0 nothing. -/
def repCause (b : List Byte) : Nat :=
  let n := leAt b 0x28 2
  let m := leAt b 0x2A 2
  let h := leAt b 0x2C 2
  if b.take 8 ≠ repMagic then 1
  else if b.length < 64 ∨ b.length % 16 ≠ 0 ∨ b.length < 64 + 16 * (n + m + h) ∨ (crc64 (b.drop 0x10)).toNat ≠ leAt b 8 8 then 2
  else if leAt b 0x18 8 ≠ Config.deviceId.toNat then 3
  else if zeroAt b 0x2E 18 && ((List.range (n + m)).all fun i => zeroAt b (0x40 + 16 * i + 12) 4) &&
      ((List.range h).all fun i => zeroAt b (0x40 + 16 * (n + m + i) + 6) 2) then 0
  else 4

/-- The record that a copy holds (R838). -/
def repRead (b : List Byte) (copy : Nat) : RasSt :=
  let n := leAt b 0x28 2
  let m := leAt b 0x2A 2
  let h := leAt b 0x2C 2
  let at_ (i : Nat) : List Byte := slice b (0x40 + 16 * i) 16
  { units := (List.range n).foldl (fun t i =>
      let e := at_ i
      tabSet t (leAt e 0 4) { state := leAt e 4 1, cause := leAt e 5 1, logical := leAt e 6 2, since := leAt e 8 4 }) []
    repairs := (List.range m).map fun i => let e := at_ (n + i); { array := leAt e 0 4, row := leAt e 4 4, since := leAt e 8 4 }
    applied := m
    hist := (List.range h).map fun i =>
      let e := at_ (n + m + i)
      { unit := leAt e 0 4, event := leAt e 4 1, count := leAt e 5 1, first := leAt e 8 4, boot := leAt e 12 4 }
    gen := leAt b 0x10 4, copy := copy, serviceMin := leAt b 0x20 4, boots := leAt b 0x24 4 + 1 }

/-- The repair record's bytes with a generation (R838). -/
def RasSt.bytes (r : RasSt) (gen : Nat) : List Byte :=
  let us := r.units.flatMap fun u =>
    leBytes 4 u.1 ++ leBytes 1 u.2.state ++ leBytes 1 u.2.cause ++ leBytes 2 u.2.logical ++ leBytes 4 u.2.since ++ leBytes 4 0
  let rs := r.repairs.flatMap fun e => leBytes 4 e.array ++ leBytes 4 e.row ++ leBytes 4 e.since ++ leBytes 4 0
  let hs := r.hist.flatMap fun e =>
    leBytes 4 e.unit ++ leBytes 1 e.event ++ leBytes 1 e.count ++ leBytes 2 0 ++ leBytes 4 e.first ++ leBytes 4 e.boot
  let body := leBytes 4 gen ++ leBytes 4 (64 + us.length + rs.length + hs.length) ++ leBytes 8 Config.deviceId.toNat ++
    leBytes 4 r.serviceMin ++ leBytes 4 r.boots ++ leBytes 2 r.units.length ++ leBytes 2 r.repairs.length ++ leBytes 2 r.hist.length ++
    List.replicate 18 0#8 ++ us ++ rs ++ hs
  repMagic ++ leBytes 8 (crc64 body).toNat ++ body

/-- The repair record at boot (R838, R839): the copy that governs, or none. -/
def State.readRepair (s : State) : State :=
  let b0 := s.repBytes 0
  let b1 := s.repBytes 1
  let c0 := repCause b0
  let c1 := repCause b1
  if c0 = 0 ∧ (c1 ≠ 0 ∨ !laterGen (leAt b0 0x10 4) (leAt b1 0x10 4)) then { s with ras := repRead b0 0 }
  else if c1 = 0 then { s with ras := repRead b1 1 }
  else State.err { s with ras := { fresh := true, boots := 1 } } 0x0B 6 { sev := 2, i0 := c0, i1 := c1 }

/-! ### Units at boot -/

/-- The entry of a unit as fuses and the repair record give it (R826, R827, R838). A pseudo-channel and a lane are FENCED until their
bring-up. -/
def State.bootUnit (s : State) (u : Nat) : UnitEnt :=
  let k := unitIndex u
  let fuse : UnitState × Nat :=
    if Config.factoryRetired u then (.retired, 0xFFFF)
    else match unitClass u with
      | 1 => match Config.factoryMap k with
        | some c => (.active, c.toNat)
        | none => match defaultMap k with
          | some c => (.active, c)
          | none => (.spare, 0xFFFF)
      | 3 => (.active, 0xFFFF)
      | _ => (.fenced, 0xFFFF)
  let (st, l) := if fuse.1 = .retired then fuse else match tabFind s.ras.units u with
    | some r => if r.state = 2 then (UnitState.retired, r.logical) else if unitClass u = 1 then (UnitState.active, r.logical) else fuse
    | none => fuse
  { state := st, logical := l, since := s.tick, fence := st ≠ .active }

/-- A slot takes logical cluster `c` (R638, R758, R828). -/
def State.joinSpare (s : State) (k c : Nat) : State :=
  let u := unitId 1 k
  let s := (s.wakeDom k).unitTo u .fenced
  let s := s.setUnit u { s.unit u with logical := c }
  let s := (s.blankCluster c).unitJoin u
  State.err { s with ras := { s.ras with
      units := tabSet s.ras.units u { state := 0, cause := 0, logical := c, since := s.ras.serviceMin }, dirty := true } }
    0x0B 4 { sev := 0, cluster := c, unit := u, i0 := c, i1 := k }

/-- A logical cluster without a slot takes the lowest SPARE slot of its die that passes bring-up (R828); its logic and memory tests are
taken to pass. A slot that did not calibrate fails, with event 1. -/
def State.mapSpare (s : State) (c : Nat) : State :=
  let base := if c < 128 then 0 else 144
  let r := (List.range 144).foldl (fun (r : State × Bool) i =>
    let u := unitId 1 (base + i)
    if r.2 || decide ((r.1.unit u).state ≠ .spare) then r
    else if (r.1.dom (base + i)).calOk then (r.1.joinSpare (base + i) c, true)
    else
      let (s, perm) := r.1.history u 1
      (if perm then s.retireUnit u 1 else s.unitTo u .fenced, false)) (s, false)
  if r.2 then r.1 else r.1.err 0x0B 5 { sev := 2, cluster := c, i0 := if c < 128 then 0 else 1, i1 := c }

/-- A mapping point (R828): absent logical clusters, ascending. -/
def State.mapSpares (s : State) : State :=
  (List.range 256).foldl (fun s c => if s.absent c then s.mapSpare c else s) s

end Sys2Proof.Machine
end

