-- ==== Sys2Proof/Machine/Boot.lean ====
section
/-!
DEFINITION. Reset, boot and bring-up (spec/21_boot.md).
-/
namespace Sys2Proof.Machine

/-! ### Reset -/

/-- SYS_RESET_ASSERT (R799, R801): held for 1 µs. At power-up it is asserted from the start (R797). -/
def execSysResetAssert (s : State) : Res := .next (if s.boot.pinReset then s else s.restart 1)

/-- The REF group of the board record, which the ROM applies before the first lock (R816, R817). -/
def State.romRef (s : State) : State :=
  match s.bcrRead with
  | some b =>
    let b := bcrUsed b
    if bcrFlag b 4 then s.modClk fun k => { k with cfg := leAt b 0x90 8, cfgUsed := leAt b 0x90 8 } else s
  | none => s

/-- SYS_RESET_DEASSERT (R209, R522, R622, R800, R802, R822): BOOT_SEL is sampled; the ROM starts; generators and the EPOCH counter take entropy. -/
def execSysResetDeassert (bootSel : BitVec 2) (s : State) : Res :=
  .next (if !s.boot.pinReset then s
    else
      let b := s.boot
      let dogs := decide (3 ≤ (b.wdog.filter fun t => decide (s.now < t + 600000000000)).length)
      let sel := if dogs then 2 else bootSel.toNat
      State.romRef { s with
        boot := { b with
          pinReset := false, bootSel := bootSel.toNat, source := if sel < 2 then sel else 2, stage := 0, resetAt := s.now, stageAt := s.now
          wdog := if dogs then [] else b.wdog }
        genBase := s.freeCtr
        freeCtr := s.freeCtr + 32769
        dbg := { s.dbg with ir := if s.dbg.ir = .extest ∨ s.dbg.ir = .clamp ∨ s.dbg.ir = .highz then .bypass else s.dbg.ir }
        fab := { s.fab with epoch := (Config.entropy (s.freeCtr + 32768)).toNat % 65536 } })

/-- WATCHDOG_EXPIRE (R800): 2 s without a refresh. -/
def execWatchdogExpire (s : State) : Res :=
  .next (if s.boot.nganor && !s.boot.pinReset then
      let t := s.restart 3
      { t with boot := { t.boot with wdog := s.now :: t.boot.wdog } }
    else s)

/-- VAUX_REMOVED (R17, R801): only fuses and the flash remain. -/
def execVauxRemoved (s : State) : Res :=
  .next { State.reset with
    pending := s.pending, now := s.now, freeCtr := s.freeCtr, flash := s.flash
    boot := { State.reset.boot with rollback := s.boot.rollback } }

/-! ### ROM -/

/-- REF_WAIT_RETRY (R798): one line per second while no input qualifies. -/
def execRefWaitRetry (s : State) : Res :=
  .next (if decide (s.boot.stage = 0 ∧ s.clk.pll = .free ∧ s.boot.resetAt + 1000000000 ≤ s.now) && s.clk.best.isNone && s.clocked then s.uartLine
    else s)

/-- Recovery wait (R803, R804). -/
def State.recovery (s : State) : State := State.romPort { s with boot := { s.boot with stage := 6, source := 2, stageAt := s.now } }

/-- PLL_FIRST_LOCK (R696, R798, R802, R804): from A or B; then FIRMWARE, or recovery wait. -/
def execPllFirstLock (s : State) : Res :=
  .next (match s.clk.best with
    | some i =>
      if s.clocked && decide (s.clk.pll = .free ∧ s.boot.stage = 0 ∧ i < 2) then
        let s := s.modClk fun k => { k with pll := .locked, selected := i }
        if s.boot.source = 2 then s.recovery
        else
          let s : State := { s with boot := { s.boot with stage := 1, stageAt := s.now } }
          if s.boot.source = 1 then s.romPort else s
      else s
    | none => s)

/-- TFTP_BOOT (R609, R803, R809, R810): the image as it came, or none after the retries; a bad one leads to recovery wait. -/
def execTftpBoot (image : Option (List Byte)) (s : State) : Res :=
  .next (if !s.clocked || s.boot.nganor || decide (s.boot.stage ≠ 1 ∨ s.boot.source ≠ 1) || !s.boot.tftp.isEmpty then s
    else match image with
      | some b => if imageOk s.boot.rollback b then { s with boot := { s.boot with tftp := b } } else s.recovery
      | none => s.recovery)

/-! ### The firmware stage -/

/-- Nganor starts from an image (R803, R809). -/
def State.startNganor (s : State) (b : List Byte) (slot : Nat) (fallback : Bool) : State :=
  { s with boot := { s.boot with
      nganor := true, version := leAt b 8 4, secVersion := leAt b 0xC 4, slot := slot, fallback := fallback, tftp := [] } }

/-- The last-gasp region early in the firmware stage (R808). -/
def State.readGasp (s : State) : State :=
  let seq (a : Nat) : Nat := leAt (s.flashBytes (a + 0x18) 4) 0 4
  if s.gaspValid gaspRegion then
    if s.gaspValid gaspArchive && decide (seq gaspRegion = seq gaspArchive) then s.eraseJ gaspRegion 65536
    else
      let b := s.flashBytes gaspRegion 65536
      let s := ((s.eraseJ gaspArchive 65536).writeJ gaspArchive b).eraseJ gaspRegion 65536
      { s with boot := { s.boot with lastGasp := true } }
  else if s.flashBlank gaspRegion 65536 then s
  else s.eraseJ gaspRegion 65536

/-- The calibrated sensors of a slot at this boot: 16, but for the slots that `cal` lists (R631). -/
def calOf (cal : List (Nat × Nat)) (k : Nat) : Nat := min 16 ((cal.find? fun e => e.1 == k).elim 16 (·.2))

/-- The unit state table, the slot domains and the clusters as boot makes them (R631, R638, R758, R827). -/
def State.bootUnits (s : State) (cal : List (Nat × Nat)) : State :=
  let ok (u : Nat) : Bool := unitClass u != 1 || decide (12 ≤ calOf cal (unitIndex u))
  let units := allUnits.map fun u =>
    let e := s.bootUnit u
    (u, if ok u || decide (e.state = .retired) then e else { e with state := .fenced, fence := true })
  let s : State := { s with units := units }
  let dom (k : Nat) : SlotPwr :=
    { mode := if (s.unit (unitId 1 k)).state = .active ∨ (s.unit (unitId 1 k)).state = .fenced then .on else .off
      calOk := decide (12 ≤ calOf cal k), calSensors := calOf cal k, output := stepMv 7 }
  let s : State := { s with pwr := { s.pwr with slots := (List.range 288).map fun k => (k, dom k) } }
  let s := (List.range 288).foldl (fun s k =>
    let e := s.unit (unitId 1 k)
    if e.state = .active ∧ e.logical < 256 then s.setCl e.logical { fenced := false } else s) s
  let s := (List.range 24).foldl (fun s k =>
    s.setSlice k { ways := ((List.range 16).map fun w => if (s.unit (unitId 3 (16 * k + w))).state = .active then 2 ^ w else 0).sum }) s
  (List.range 288).foldl (fun s k =>
    let u := unitId 1 k
    if 12 ≤ calOf cal k ∨ (s.unit u).state = .retired then s
    else
      let (s, perm) := s.history u 1
      if perm then s.retireUnit u 1 else s) s

/-- The default masks of R753. -/
def defaultMask (m : Nat) : Nat := if m = 0 then 0x26 else if m < 4 then 0xFF else if m < 12 then 0xD1 else 0

/-- The firmware stage after Nganor has started (R614, R817). -/
def State.firmwareStage (s : State) (cal : List (Nat × Nat)) : State :=
  let s := (((((s.journalReplay).applyBcr).readGasp).readRepair).bootUnits cal).mapSpares
  { s with
    mb := { s.mb with boxes := (List.range 16).map fun m => (m, ({ mask := defaultMask m, reqBase := s.freeCtr, rspBase := s.freeCtr } : Mailbox)) }
    freeCtr := s.freeCtr + 1
    pmb := { s.pmb with sent := s.pmb.sent ++ [(0x01, 0x80), (0x21, 0x1CCD)], setpoint := 1800 }
    boot := { s.boot with stage := 2, stageAt := s.now } }

/-- FIRMWARE_VERIFY (R631, R803, R806 to R808, R810, R815, R817, R827, R828, R838, R839): `cal` lists the slots that calibrate fewer than
16 sensors. -/
def execFirmwareVerify (cal : List (Nat × Nat)) (s : State) : Res :=
  .next (if !s.clocked || s.boot.nganor || decide (s.boot.stage ≠ 1) then s
    else if s.boot.source = 0 then
      match s.bootChoice with
      | some (k, other) => (s.startNganor (s.slotImage k) k other).firmwareStage cal
      | none => s.recovery
    else if s.boot.tftp.isEmpty then s
    else (s.startNganor s.boot.tftp 0 false).firmwareStage cal)

/-! ### Memory, optics, BIST -/

/-- The pseudo-channels in the order of CL (R456). -/
def channelOrder : List Nat :=
  (List.range 768).map fun n => 64 * (if n % 2 = 0 then n % 12 / 2 else 6 + n % 12 / 2) + n / 12

/-- HBM_TRAINING_COMPLETE (R453, R456, R495, R817, R830): the pseudo-channels that did not train make event 12. -/
def execHbmTrainingComplete (failed : List Nat) (s : State) : Res :=
  .next (if !s.nganorUp || decide (s.boot.stage ≠ 2) then s
    else
      let s : State := { s with units := s.units.map fun p =>
        (p.1, if unitClass p.1 = 2 ∧ p.2.state = .fenced ∧ !failed.contains (unitIndex p.1) then
          { p.2 with state := .active, fence := false, since := s.tick } else p.2) }
      let s := (failed.filter fun k => decide (k < 768)).foldl (fun s k =>
        let (s, perm) := s.history (unitId 2 k) 12
        if perm then s.retireUnit (unitId 2 k) 12 else s) s
      let ch := channelOrder.filter fun k => decide ((s.unit (unitId 2 k)).state = .active)
      let s : State := { s with
        memsys := { s.memsys with channels := ch, hbmTop := ch.length * 1073740032, scrub := 0 }
        boot := { s.boot with stage := 3, stageAt := s.now } }
      (List.range 144).foldl (fun s l =>
        let x := s.lane l
        let gone := decide ((s.unit (unitOfLane l)).state = .retired)
        s.setLane l { x with state := if gone then .retired else .down, test := !gone, downAt := s.now
                             laserLow := decide (s.lanePower l < 1600) }) s)

/-- OPTICAL_STAGE_END (R573, R575, R816 to R818, R820): every lane is UP, or 5 s. The record's FABRIC group is applied where no
FABRIC_CONFIG came first. -/
def execOpticalStageEnd (s : State) : Res :=
  let done := (List.range 144).all fun l => decide ((s.lane l).state ≠ .down)
  .next (if !s.nganorUp || decide (s.boot.stage ≠ 3) || s.boot.ready || !(done || decide (s.boot.stageAt + 5000000000 ≤ s.now)) then s
    else
      let b := s.boot.bcr
      let s := if s.bcrOn 3 && decide (s.hud.tickState = .free) then
          ((s.setFabCfg (leAt b 0x78 8)).setFabTune (leAt b 0x80 8)).startTick (leAt b 0x88 4) (leAt b 0x8C 4)
        else s
      { s with boot := { s.boot with stage := if s.bcrOn 5 then 4 else 3, ready := !s.bcrOn 5, stageAt := s.now } })

/-- BIST_STAGE_COMPLETE (R817, R843, R844): the units that failed twice, with their signatures, are retired; then absent logical clusters
take spares (R828). -/
def execBistStageComplete (failed : List (Nat × Nat)) (s : State) : Res :=
  .next (if !s.nganorUp || decide (s.boot.stage ≠ 4) || s.boot.ready then s
    else
      let s := (failed.filter fun f => decide (unitClass f.1 = 1 ∨ unitClass f.1 = 3) && decide ((s.unit f.1).state = .active)).foldl
        (fun s f =>
          let ev := if unitClass f.1 = 1 then 2 else 9
          (s.err 0x0B 2 { sev := 2, act := 4, unit := f.1, i0 := f.2, i1 := (Config.signature (if ev = 2 then 1 else 3)).toNat }).retireUnit
            f.1 ev) s
      let s := s.mapSpares
      { s with boot := { s.boot with bistRan := true, ready := true } })

/-- The mean of the first `n` of a list, or `d` of none. -/
def meanOf (d : Nat) (l : List Nat) (n : Nat) : Nat := let t := l.take n; if t.isEmpty then d else t.sum / t.length

/-- A gratuitous ARP (R819): kind 2 of the frames sent. -/
def State.gratuitousArp (s : State) : State :=
  if s.mgmt.ip = 0 then s else { s with mgmt := { s.mgmt with sent := s.mgmt.sent ++ [(2, s.mgmt.ip, [])] } }

/-- ANNOUNCE (R811, R819, R822, R840). -/
def execAnnounce (s : State) : Res :=
  .next (if !s.nganorUp || !s.boot.ready || decide (s.boot.stage ≠ 3 ∧ s.boot.stage ≠ 4) then s
    else
      (State.uartLine { s with
        boot := { s.boot with
          stage := 5, announceMs := (s.now - s.boot.resetAt) / 1000000, rollback := max s.boot.rollback s.boot.secVersion }
        hud := { s.hud with pceil := meanOf s.pwr.pkgW s.opp.samples 100 }
        ras := { s.ras with dirty := true } }).gratuitousArp)

end Sys2Proof.Machine
end

