-- ==== Sys2Proof/Machine/Mbox.lean ====
section
/-!
DEFINITION. Mailboxes (spec/19_mailboxes.md) and the rules for every command (R762, R765, R820): headers, states, owners, serialisation
points, aborts, frames, events.
-/
namespace Sys2Proof.Machine

/-! ### The commands of Nganor -/

/-- What the tables of R767 to R794 say of a command: Read or Change, the length of its body where it is fixed, its bound in ms, its
reserved bytes as offset and length. -/
structure CmdSpec where
  op : Nat
  read : Bool
  len : Option Nat
  bound : Nat
  res : List (Nat × Nat) := []

/-- The commands. -/
def cmdSpecs : List CmdSpec :=
  [⟨0x0101, true, some 0, 1, []⟩, ⟨0x0102, true, some 0, 1, []⟩,
   ⟨0x0201, false, some 24, 1, [(2, 2)]⟩, ⟨0x0202, false, some 8, 1, [(1, 7)]⟩, ⟨0x0203, false, some 128, 3000, [(0x62, 2), (0x7C, 4)]⟩,
   ⟨0x0204, false, some 8, 1000, []⟩, ⟨0x0205, false, some 16, 100, [(1, 7)]⟩, ⟨0x0206, false, some 0, 1, []⟩,
   ⟨0x0207, false, some 0, 10, []⟩, ⟨0x0208, false, some 0, 100, []⟩, ⟨0x0209, false, some 24, 1, [(1, 7)]⟩, ⟨0x020A, true, some 0, 1, []⟩,
   ⟨0x020B, true, some 8, 1, [(1, 7)]⟩] ++
  [⟨0x0301, true, some 0, 1, []⟩, ⟨0x0302, true, some 0, 1, []⟩, ⟨0x0303, false, some 32, 1, []⟩, ⟨0x0304, false, some 32, 1, []⟩,
   ⟨0x0305, true, some 8, 1, [(1, 7)]⟩] ++
  [⟨0x0401, true, some 0, 1, []⟩, ⟨0x0402, true, some 0, 1, []⟩, ⟨0x0403, false, some 24, 1, [(1, 7)]⟩, ⟨0x0404, false, some 8, 50, [(2, 6)]⟩,
   ⟨0x0405, true, some 0, 1, []⟩, ⟨0x0406, true, some 0, 1, []⟩] ++
  [⟨0x0501, false, some 48, 10, [(42, 6)]⟩, ⟨0x0502, false, some 0, 10, []⟩, ⟨0x0503, false, some 24, 2000, []⟩,
   ⟨0x0504, false, some 8, 1, [(1, 7)]⟩, ⟨0x0505, false, some 8, 10, []⟩, ⟨0x0506, true, some 0, 1, []⟩] ++
  [⟨0x0601, true, some 8, 1, []⟩, ⟨0x0602, false, some 8, 100, [(5, 3)]⟩, ⟨0x0603, false, some 8, 500, [(1, 3)]⟩, ⟨0x0604, true, some 8, 1, []⟩,
   ⟨0x0605, true, some 8, 1, []⟩] ++
  [⟨0x0701, true, some 0, 1, []⟩, ⟨0x0702, false, none, 2000, []⟩, ⟨0x0703, false, some 8, 2000, [(4, 4)]⟩, ⟨0x0704, false, some 8, 10, [(0, 8)]⟩,
   ⟨0x0705, false, some 0, 10, []⟩, ⟨0x0706, false, none, 100, [(4, 4)]⟩] ++
  [⟨0x0801, true, some 0, 1, []⟩, ⟨0x0802, true, some 0, 1, []⟩, ⟨0x0803, false, some 8, 1, [(2, 6)]⟩, ⟨0x0804, false, some 8, 1, []⟩] ++
  [⟨0x0901, false, some 24, 10, []⟩, ⟨0x0902, true, some 0, 1, []⟩, ⟨0x0903, false, some 8, 10, [(2, 6)]⟩,
   ⟨0x0904, false, some 40, 10, [(1, 1), (22, 2), (39, 1)]⟩, ⟨0x0905, true, some 8, 1, []⟩]

/-- A command by its opcode. -/
def cmdSpec (op : Nat) : Option CmdSpec := cmdSpecs.find? fun c => c.op == op

/-- What a mailbox may issue of a family (R738): 0 nothing, 1 Read commands, 2 all. -/
def mbRight (m fam : Nat) : Nat :=
  let row (l : List Nat) : Nat := l.getD (fam - 1) 0
  if m = 0 then row [2, 1, 1, 2, 1, 1, 0, 2, 1]
  else if m < 4 then 2
  else if m < 12 then row [2, 2, 2, 2, 2, 1, 0, 2, 1]
  else row [2, 0, 1, 0, 0, 0, 0, 2, 0]

/-- The length rule of FW_WRITE and DEBUG_RESPONSE (R789): LEN in the body, and its limit. -/
def bodyLenOk (c : CmdSpec) (b : List Byte) : Bool :=
  match c.len with
  | some n => b.length == n
  | none =>
    if c.op = 0x0702 then decide (8 ≤ b.length ∧ leAt b 4 4 ≤ 4064 ∧ b.length = 8 + leAt b 4 4)
    else decide (8 ≤ b.length ∧ leAt b 0 4 ≤ 512 ∧ b.length = 8 + leAt b 0 4)

/-! ### Answers -/

/-- STATUS, DETAIL, MORE and the body of a response. -/
abbrev Answer := Nat × Nat × Bool × List Byte

/-- OK (R742). -/
def ansOk (b : List Byte) : Answer := (0, 0, false, b)
/-- BAD_FIELD with the offset of the field (R765). -/
def badField (d : Nat) : Answer := (3, d, false, [])
/-- DENIED. -/
def ansDenied : Answer := (4, 0, false, [])
/-- STATE with the code of the precondition (R765). -/
def badState (d : Nat) : Answer := (5, d, false, [])
/-- FAILED with a code (R765). -/
def ansFailed (d : Nat) : Answer := (8, d, false, [])

/-! ### Buffers, owners and states -/

/-- Change a mailbox. -/
def State.modBox (s : State) (m : Nat) (f : Mailbox → Mailbox) : State := s.setBox m (f (s.box m))

/-- A byte of the request buffer; what nothing has written is a free value (R743). -/
def Mailbox.reqByte (x : Mailbox) (m off : Nat) : Byte := (tabFind x.req off).getD (Config.mbByte m x.reqBase off)

/-- A byte of the response buffer; undefined while BUSY and where no response was written (R743, R744). -/
def Mailbox.rspByte (x : Mailbox) (m off : Nat) : Byte := (tabFind x.rsp off).getD (Config.mbByte m x.rspBase (0x1000 + off))

/-- Bytes of the request buffer. -/
def Mailbox.reqBytes (x : Mailbox) (m off n : Nat) : List Byte := (List.range n).map fun i => x.reqByte m (off + i)

/-- Bytes of the response buffer. -/
def Mailbox.rspBytes (x : Mailbox) (m off n : Nat) : List Byte := (List.range n).map fun i => x.rspByte m (off + i)

/-- Bytes put into a buffer. -/
def putBuf (t : Tab Byte) (off : Nat) : List Byte → Tab Byte
  | [] => t
  | b :: r => putBuf (tabSet t off b) (off + 1) r

/-- A write to the request buffer (R744): discarded while BUSY. -/
def State.writeReq (s : State) (m off : Nat) (bs : List Byte) : State :=
  let x := s.box m
  if x.state = .busy then s else s.setBox m { x with req := putBuf x.req off bs }

/-- A mailbox is served (R804, R820). -/
def State.serves (s : State) (m : Nat) : Bool :=
  if s.boot.stage = 6 then s.clocked && decide (1 ≤ m ∧ m ≤ 3)
  else s.nganorUp && (decide (m < 4 ∨ 12 ≤ m) ||
    (decide (s.hud.tickState ≠ .free) && (List.range 16).any fun e => s.laneUp (128 + e)))

/-- The owner of a mailbox of transport goes (R746, R795). -/
def State.unbindBox (s : State) (m : Nat) : State :=
  let x := s.box m
  if x.owner.isNone then s
  else if x.state = .busy then s.setBox m x.unbind
  else
    let s := s.setBox m { x with owner := none, ending := false }
    if m < 12 then s.event 8 2 0 m else s

/-- Send a frame to an owner (R751). -/
def State.mbSend (s : State) (f : MbFrame) : State := { s with mb := { s.mb with sent := s.mb.sent ++ [f] } }

/-- A STATUS frame to a station (R751). -/
def State.statusFrame (s : State) (m : Nat) (to_ : Option Owner) : State :=
  s.mbSend { mbox := m, kind := 0x82, to_ := to_, data := s.regBytes (.mbStatus m) }

/-- The response is written, and the completion delivered (R740, R743 to R746, R762). -/
def State.respond (s : State) (m : Nat) (a : Answer) : State :=
  let x := s.box m
  match x.cmd with
  | none => s
  | some c =>
    let body := if a.1 = 0 then a.2.2.2 else []
    let hdr := leBytes 2 c.op ++ leBytes 2 c.tag ++ leBytes 4 body.length ++ leBytes 2 (b2n a.2.2.1) ++ leBytes 2 c.seq ++ leBytes 2 a.1 ++
      leBytes 2 a.2.1
    let s := s.setBox m { x with
      state := .done, rsp := putBuf [] 0 (hdr ++ body), held := c.seq, tag := c.tag, lastStatus := a.1, cmd := none }
    let s := if 12 ≤ m then (match c.ev with
        | some (k, e) => s.arriveIf (e != 63) k e
        | none => s)
      else if m ≠ 0 ∧ x.owner.isSome then s.statusFrame m x.owner
      else s
    if x.ending then s.unbindBox m else s

/-! ### Rings, aborts, releases -/

/-- What a ring finds wrong with the request (R738, R741, R762, R765, R804), in this order: header, family, right, opcode, body. -/
def State.ringFault (s : State) (m : Nat) (h : List Byte) (body : List Byte) : Option Answer :=
  let op := leAt h 0 2
  let fam := op / 256
  if leAt h 8 2 ≠ 0 ∨ leAt h 0xC 4 ≠ 0 ∨ 4080 < leAt h 4 4 ∨ fam < 1 ∨ 9 < fam then some (1, 0, false, [])
  else if s.boot.stage = 6 ∧ ¬ (([0x0101, 0x0102, 0x0701, 0x0702, 0x0703, 0x0704] : List Nat).contains op) then some ansDenied
  else if mbRight m fam = 0 then some ansDenied
  else match cmdSpec op with
    | none => some (2, 0, false, [])
    | some c =>
      if mbRight m fam = 1 ∧ !c.read then some ansDenied
      else if !bodyLenOk c body then some (badField 0)
      else (c.res.find? fun r => !zeroAt body r.1 r.2).map fun r => badField r.1

/-- A ring (R741, R743, R749): ABORT_RESULT is NONE, SEQ_LO follows, and the command starts, or ends at once. -/
def State.ring (s : State) (m : Nat) (ev : Option (Nat × Nat)) : State :=
  let x := s.box m
  let h := x.reqBytes m 0 16
  if x.state = .busy ∨ (x.state = .done ∧ leAt h 0xA 2 = x.held) ∨ !s.serves m then s
  else
    let body := x.reqBytes m 16 (min 4080 (leAt h 4 4))
    let c : Cmd := { op := leAt h 0 2, tag := leAt h 2 2, seq := leAt h 0xA 2, body := body, at_ := s.now, ev := ev }
    let s : State := { s with freeCtr := s.freeCtr + 1 }
    let s := s.setBox m { x with state := .busy, abort := 0, seqLo := c.seq % 256, cmd := some c, rsp := [], rspBase := s.freeCtr }
    match s.ringFault m h body with
    | some a => s.respond m a
    | none => s

/-- An abort (R749, R750). -/
def State.abortCmd (s : State) (m tag seq : Nat) : State :=
  let x := s.box m
  match x.state, x.cmd with
  | .busy, some c =>
    if c.tag ≠ tag ∨ c.seq ≠ seq then s.setBox m { x with abort := 3 }
    else if c.decided then s.setBox m { x with abort := 2 }
    else (s.setBox m { x with abort := 1 }).respond m (6, 0, false, [])
  | .done, _ => s.setBox m { x with abort := if x.tag = tag ∧ x.held = seq then 2 else 3 }
  | _, _ => s.setBox m { x with abort := 3 }

/-- A release (R743, R746): nothing while BUSY. -/
def State.releaseBox (s : State) (m : Nat) : State :=
  let x := s.box m
  if x.state = .busy then s else (s.setBox m { x with state := .idle }).unbindBox m

/-- The fields of R756. -/
def bellBits (v : Nat) : Nat := v % 8

/-- A doorbell of mailboxes 12 to 15 (R746, R756): only the owner's takes effect, and only one of RING, ABORT and RELEASE. -/
def State.doorbell (s : State) (c v m : Nat) : State :=
  if decide (m < 12) || !s.serves m || decide ((s.box m).owner ≠ some (.cluster c)) then s
  else match bellBits v with
    | 1 => s.ring m (if bitN v 14 then some (fld v 23 16, fld v 13 8) else none)
    | 2 => s.abortCmd m (fld v 47 32) (fld v 63 48)
    | 4 => s.releaseBox m
    | _ => s

/-- RING (R743, R756): a doorbell with RING alone. -/
def execRing (c : BitVec 8) (v : W64) (m : Fin 16) (s : State) : Res :=
  .next (if bellBits v.toNat = 1 && s.open_ c.toNat then s.doorbell c.toNat v.toNat m.val else s)

/-- ABORT (R749, R756). -/
def execAbort (c : BitVec 8) (v : W64) (m : Fin 16) (s : State) : Res :=
  .next (if bellBits v.toNat = 2 && s.open_ c.toNat then s.doorbell c.toNat v.toNat m.val else s)

/-- RELEASE (R746, R756). -/
def execRelease (c : BitVec 8) (v : W64) (m : Fin 16) (s : State) : Res :=
  .next (if bellBits v.toNat = 4 && s.open_ c.toNat then s.doorbell c.toNat v.toNat m.val else s)

/-- A claim (R746, R747): OWNER as it stood, and the reading cluster where there was none. -/
def State.claim (s : State) (c m : Nat) : State × Nat :=
  let v := s.regVal (.mbClaim m)
  (if 12 ≤ m ∧ v = 0x100 then s.modBox m fun x => { x with owner := some (.cluster c) } else s, v)

/-- MB_CLAIM (R747). -/
def execMbClaim (c : BitVec 8) (m : Fin 16) (s : State) : Res :=
  .next (if !s.open_ c.toNat || decide (m.val < 12) || !s.nganorUp then s
    else
      let (s, v) := s.claim c.toNat m.val
      { s with readout := v })

/-! ### Serialisation points -/

/-- A command may pass its point now (R748, R820): before ANNOUNCED only Read commands, families 1, 7 and 8, and FABRIC_CONFIG in OPTICAL. -/
def State.mayRun (s : State) (c : CmdSpec) : Bool :=
  c.read || decide (5 ≤ s.boot.stage) || [1, 7, 8].contains (c.op / 256) || (c.op == 0x0901 && s.boot.stage == 3)

/-- The commands whose points come after work of their own (R769, R782, R789): they take no part in the rotation. -/
def slowOps : List Nat := [0x0203, 0x0503, 0x0703, 0x0706]

/-- A Change command waits for its point in this mailbox. -/
def State.awaits (s : State) (m : Nat) : Bool :=
  match (s.box m).cmd with
  | some c => !c.decided && !slowOps.contains c.op && (cmdSpec c.op).any fun d => !d.read && s.mayRun d
  | none => false

/-- The mailbox whose Change command is next (R748): rotating from the one that passed last. -/
def State.nextToPass (s : State) : Option Nat :=
  ((List.range 16).map fun i => (s.mb.last + 1 + i) % 16).find? s.awaits

/-- A command's serialisation point (R748): `f` checks its preconditions, has its effect and decides its answer. -/
def State.atPoint (s : State) (m op : Nat) (f : State → List Byte → State × Answer) : State :=
  match (s.box m).cmd, cmdSpec op with
  | some c, some d =>
    if c.op ≠ op ∨ c.decided ∨ !s.serves m ∨ !s.mayRun d ∨ (!d.read ∧ !slowOps.contains op ∧ s.nextToPass ≠ some m) then s
    else
      let s : State := if d.read then s else { s with mb := { s.mb with last := m } }
      let (s, a) := f s c.body
      s.modBox m fun x => { x with cmd := x.cmd.map fun c => { c with decided := true, answer := some a } }
  | _, _ => s

/-- A Read command (R763): it changes nothing. -/
def State.readAt (s : State) (m op : Nat) (f : State → List Byte → Answer) : State := s.atPoint m op fun s b => (s, f s b)

/-- The same for a row that serves only the bodies that `p` picks out of an opcode. -/
def State.atPointWhen (s : State) (m op : Nat) (p : List Byte → Bool) (f : State → List Byte → State × Answer) : State :=
  if (s.box m).cmd.any fun c => p c.body then s.atPoint m op f else s

/-- What follows a response (R790, R800): data accepted by FW_WRITE is programmed; REBOOT resets. -/
def State.afterResponse (s : State) (op : Nat) : State :=
  if op = 0x0702 then
    let s := s.boot.writing.foldl (fun s w => (s.flashWrite w.1 w.2).journalClose 2 w.1) s
    { s with boot := { s.boot with writing := [] }, pwr := { s.pwr with flashBusy := false } }
  else if op = 0x0704 then s.restart 2
  else s

/-- A set of logical clusters as a mask of 256 bits (R777). -/
def clusterMask (f : Nat → Bool) : Nat := ((List.range 256).map fun c => if f c then 2 ^ c else 0).sum

/-- The answer as it stands when the response is written: CLUSTER_HALT names the clusters that are HALTED by then (R777, R778); a RESTORE
whose twin is gone by then failed in its resync (R784). -/
def State.finalAnswer (s : State) (op : Nat) (a : Answer) : Answer :=
  if a.1 ≠ 0 then a
  else if op = 0x0303 then ansOk (leBytes 32 (clusterMask fun c => decide ((s.cl c).st = .halted)))
  else if op = 0x0503 ∧ s.twinGone then ansFailed 4
  else a

/-- COMMAND_COMPLETE (R743 to R745): the decided command's response is written. -/
def execCommandComplete (m : Fin 16) (s : State) : Res :=
  .next (match (s.box m.val).cmd with
    | some c => match c.answer.map fun a => s.finalAnswer c.op a with
      | some a => if s.serves m.val then (s.respond m.val a).afterResponse (if a.1 = 0 then c.op else 0) else s
      | none => s
    | none => s)

/-- The bound of a command in ns (R752, R782). -/
def State.boundNs (s : State) (c : CmdSpec) : Nat := c.bound * 1000000 + if c.op = 0x0503 then s.ownedBytes / 100 else 0

/-- COMMAND_BOUND_EXPIRE (R752): before the serialisation point alone. -/
def execCommandBoundExpire (m : Fin 16) (s : State) : Res :=
  .next (match (s.box m.val).cmd with
    | some c =>
      if !c.decided && s.serves m.val && (cmdSpec c.op).any fun d => decide (c.at_ + s.boundNs d ≤ s.now) then
        s.respond m.val (7, 0, false, [])
      else s
    | none => s)

/-- OWNER_IDLE_TIMEOUT (R746, R752, R795). -/
def execOwnerIdleTimeout (m : Fin 16) (s : State) : Res :=
  let x := s.box m.val
  .next (if s.serves m.val && decide (1 ≤ m.val ∧ m.val ≤ 11 ∧ x.state ≠ .busy ∧ x.heard + 60000000000 ≤ s.now) then s.unbindBox m.val else s)

/-! ### Frames -/

/-- The bytes of an owner's frame (R751). -/
def MbIn.bytes (f : MbIn) (kind : Nat) : List Byte :=
  leBytes 1 f.version ++ leBytes 1 kind ++ leBytes 1 f.mbox ++ leBytes 1 f.res ++ leBytes 2 f.offset ++ leBytes 2 f.len ++ leBytes 2 f.tag ++
    leBytes 2 f.seq ++ leBytes 4 f.arg ++ f.data

/-- The frame breaks the table of R751. -/
def MbIn.malformed (f : MbIn) (kind : Nat) : Bool :=
  decide (f.res ≠ 0 ∨ 1024 < f.len ∨ 4096 < f.offset + f.len ∨ (f.offset ≠ 0 ∧ kind ≠ 1 ∧ kind ≠ 4) ∨ (f.len ≠ 0 ∧ kind ≠ 1 ∧ kind ≠ 4) ∨
    (f.tag ≠ 0 ∧ kind ≠ 3) ∨ (f.seq ≠ 0 ∧ kind ≠ 2 ∧ kind ≠ 3) ∨ (f.arg ≠ 0 ∧ kind ≠ 7) ∨ f.data.length ≠ if kind = 1 then f.len else 0)

/-- A frame comes by its transport (R513, R609, R738, R751): over UDP to the port of its mailbox, or as a CTRL message that Nganor then takes. -/
def State.takeFrame (s : State) (f : MbIn) (kind : Nat) : Option State :=
  if f.version ≠ 1 ∨ !s.serves f.mbox then none
  else match f.src with
    | .udp _ _ => if f.port = some f.mbox ∧ 1 ≤ f.mbox ∧ f.mbox ≤ 3 then some s else none
    | .station d =>
      if decide (4 ≤ f.mbox ∧ f.mbox ≤ 11) && s.fab.ctrl.contains (d, f.bytes kind) then
        some { s with fab := { s.fab with ctrl := s.fab.ctrl.erase (d, f.bytes kind) } }
      else none
    | .cluster _ => none

/-- An owner's frame (R746, R751, R755): a PUT binds a mailbox without owner; a frame that breaks the table, or of another than the owner, is
refused. -/
def State.frame (s : State) (f : MbIn) (kind : Nat) (act : State → State) : State :=
  let m := f.mbox
  match s.takeFrame f kind with
  | none => s
  | some s =>
    let refuse (s : State) (why : Nat) : State := s.mbSend { mbox := m, kind := 0x84, arg := why, to_ := some f.src }
    if f.malformed kind then refuse s 3
    else
      let s := if kind = 1 ∧ (s.box m).owner.isNone then
          s.modBox m fun x => { x with owner := some f.src, cursor := s.log.eventSeq, acked := s.log.eventSeq }
        else s
      if (s.box m).owner ≠ some f.src then refuse s 1
      else
        let s := s.modBox m fun x => { x with heard := s.now }
        if kind = 1 ∧ (s.box m).state = .busy then refuse s 2 else act s

/-- PUT (R751). -/
def execPut (f : MbIn) (s : State) : Res :=
  .next (s.frame f 1 fun s => (s.writeReq f.mbox f.offset f.data).statusFrame f.mbox (some f.src))

/-- RING_FRAME (R743, R751). -/
def execRingFrame (f : MbIn) (s : State) : Res :=
  .next (s.frame f 2 fun s => (s.ring f.mbox none).statusFrame f.mbox (some f.src))

/-- ABORT_FRAME (R749, R751). -/
def execAbortFrame (f : MbIn) (s : State) : Res :=
  .next (s.frame f 3 fun s => (s.abortCmd f.mbox f.tag f.seq).statusFrame f.mbox (some f.src))

/-- GET (R751): answered with DATA. -/
def execGet (f : MbIn) (s : State) : Res :=
  .next (s.frame f 4 fun s => s.mbSend
    { mbox := f.mbox, kind := 0x81, offset := f.offset, to_ := some f.src, data := (s.box f.mbox).rspBytes f.mbox f.offset f.len })

/-- STAT (R751). -/
def execStat (f : MbIn) (s : State) : Res := .next (s.frame f 5 fun s => s.statusFrame f.mbox (some f.src))

/-- RELEASE_FRAME (R746, R751). -/
def execReleaseFrame (f : MbIn) (s : State) : Res :=
  .next (s.frame f 6 fun s => (s.releaseBox f.mbox).statusFrame f.mbox (some f.src))

/-- The EVENT_SEQ that 32 bits name: the latest not above the newest event. -/
def fullSeq (newest low : Nat) : Nat :=
  let v := newest / 2 ^ 32 * 2 ^ 32 + low % 2 ^ 32
  if v ≤ newest then v else v - 2 ^ 32

/-- EVACK (R751, R755). -/
def execEvack (f : MbIn) (s : State) : Res :=
  .next (s.frame f 7 fun s =>
    (s.modBox f.mbox fun x => { x with acked := max x.acked (fullSeq s.log.eventSeq f.arg) }).statusFrame f.mbox (some f.src))

/-! ### Events -/

/-- An event record's bytes (R754). -/
def EventRec.bytes (e : EventRec) : List Byte :=
  leBytes 8 e.seq ++ leBytes 8 e.tick ++ leBytes 2 e.cls ++ leBytes 2 e.code ++ leBytes 4 e.unit ++ leBytes 8 e.data

/-- The oldest event of the ring. -/
def State.oldestEvent (s : State) : Nat := s.log.eventSeq + 1 - s.log.events.length

/-- Events that the ring lost before a cursor passed them (R755). -/
def State.eventsLost (s : State) (cursor : Nat) : Nat := s.oldestEvent - (cursor + 1)

/-- Cut a list into runs of at most `n`. -/
def runsOf {α : Type} (n : Nat) : Nat → List α → List (List α)
  | 0, _ => []
  | fuel + 1, l => if l.isEmpty then [] else l.take n :: runsOf n fuel (l.drop n)

/-- EVENT frames of up to 32 events (R755). -/
def State.pushEvents (s : State) (m : Nat) (es : List EventRec) : State :=
  (runsOf 32 es.length es).foldl (fun s r =>
    s.mbSend { mbox := m, kind := 0x83, to_ := (s.box m).owner, data := r.flatMap EventRec.bytes }) s

/-- EVENT_PUSH (R755): what lies past the cursor, a LOST event first where the ring has overwritten some; else, after 1 s, what is not
acknowledged. -/
def execEventPush (m : Fin 16) (s : State) : Res :=
  let x := s.box m.val
  let lost := s.eventsLost x.cursor
  let fresh := s.eventsPast m.val x.cursor
  let old := (s.eventsPast m.val x.acked).filter fun e => decide (e.seq ≤ x.cursor)
  .next (if !s.serves m.val || decide (m.val = 0 ∨ 12 ≤ m.val) || x.owner.isNone || decide (s.boot.stage = 6) then s
    else if !fresh.isEmpty ∨ 0 < lost then
      let first : List EventRec := if 0 < lost then [{ seq := 0, tick := s.tick, cls := 8, code := 1, unit := 0, data := lost }] else []
      (s.pushEvents m.val (first ++ fresh)).modBox m.val fun x => { x with cursor := s.log.eventSeq, pushAt := s.now }
    else if !old.isEmpty ∧ x.pushAt + 1000000000 ≤ s.now then
      (s.pushEvents m.val old).modBox m.val fun x => { x with pushAt := s.now }
    else s)

end Sys2Proof.Machine
end

