-- ==== Sys2Proof/Machine/Interfaces.lean ====
section
/-!
DEFINITION. The standard interfaces of spec/14_external_interfaces.md: management services (R609), SMBus (R610 to R612), PMBus (R613 to
R617), JTAG with debug unlock (R621, R622, R812 to R814), and the console's input (R623, R804).
-/
namespace Sys2Proof.Machine

/-! ### Management Ethernet -/

/-- The management port works (R607, R803, R804, R817). -/
def State.mgmtUp (s : State) : Bool :=
  s.clocked && (s.boot.nganor || decide (s.boot.stage = 6 ∨ (s.boot.stage = 1 ∧ s.boot.source = 1)))

/-- The port takes a frame (R609): at most 1,522 bytes, untagged or with the record's VID. -/
def State.mgmtTakes (s : State) (f : MgmtFrame) : Bool :=
  s.mgmtUp && decide (f.size ≤ 1522) && (f.vid.isNone || decide (f.vid = s.mgmtVid))

/-- A frame that the port sends: 1 ARP reply, 2 gratuitous ARP, 3 echo reply. -/
def State.mgmtSend (s : State) (kind peer : Nat) (b : List Byte) : State :=
  { s with mgmt := { s.mgmt with sent := s.mgmt.sent ++ [(kind, peer, b)] } }

/-- The ARP cache learns an address (R609): 64 entries; where it is full a free value says which goes. -/
def State.arpLearn (s : State) (ip mac : Nat) : State :=
  let rest := s.mgmt.arp.filter fun e => decide (e.1 ≠ ip)
  let e := (ip, mac, s.now)
  if rest.length < 64 then { s with mgmt := { s.mgmt with arp := rest ++ [e] } }
  else { s with freeCtr := s.freeCtr + 1, mgmt := { s.mgmt with arp := rest.eraseIdx (Config.victim s.freeCtr % 64) ++ [e] } }

/-- ARP (R609; RFC 826): a request for this address is answered; what names this address, or is known, is learned. -/
def execArp (f : MgmtFrame) (s : State) : Res :=
  let mine := decide (s.mgmt.ip ≠ 0 ∧ f.dstIp = s.mgmt.ip)
  .next (if !s.mgmtTakes f then s
    else
      let s := if mine || s.mgmt.arp.any fun e => e.1 == f.srcIp then s.arpLearn f.srcIp f.srcMac else s
      if mine && f.request then s.mgmtSend 1 f.srcIp [] else s)

/-- ICMP_ECHO (R609): requests to this address, at most 100 a second. -/
def execIcmpEcho (f : MgmtFrame) (s : State) : Res :=
  .next (if !s.mgmtTakes f || !f.plainIp || !f.request || decide (s.mgmt.ip = 0 ∨ f.dstIp ≠ s.mgmt.ip) then s
    else
      let s : State := if s.mgmt.echoes = 0 ∨ s.mgmt.echoAt + 1000000000 ≤ s.now then
          { s with mgmt := { s.mgmt with echoAt := s.now, echoes := 0 } } else s
      if s.mgmt.echoes < 100 then
        State.mgmtSend { s with mgmt := { s.mgmt with echoes := s.mgmt.echoes + 1 } } 3 f.srcIp f.payload
      else s)

/-- DHCP_RENEW (R609; RFC 2131): without an address of the record, a lease is asked for, and renewed at half its lifetime (in s); an
address whose lease has passed is given up. -/
def execDhcpRenew (answer : Option (Nat × Nat)) (s : State) : Res :=
  let half := s.mgmt.lease.all fun l => decide (l.1 + l.2 * 500000000 ≤ s.now)
  .next (if !s.mgmtUp || s.bcrOn 2 || !half then s
    else match answer with
      | some (ip, life) => { s with mgmt := { s.mgmt with ip := ip, lease := some (s.now, life) } }
      | none =>
        if s.mgmt.lease.any fun l => decide (l.1 + l.2 * 1000000000 ≤ s.now) then { s with mgmt := { s.mgmt with ip := 0, lease := none } }
        else s)

/-- ARP_ENTRY_AGE_OUT (R609): 300 s. -/
def execArpEntryAgeOut (ip : W32) (s : State) : Res :=
  .next { s with mgmt := { s.mgmt with arp := s.mgmt.arp.filter fun e => !decide (e.1 = ip.toNat ∧ e.2.2 + 300000000000 ≤ s.now) } }

/-! ### SMBus -/

/-- The target's answer: whether it acknowledged, and the bytes it returned. -/
def State.smbReply (s : State) (acked : Bool) (b : List Byte) : State := { s with smb := { s.smb with acked := acked, reply := b } }

/-- A write whose PEC fails is discarded and counted (R611, R792). -/
def State.pecError (s : State) : State :=
  (State.total { s with smb := { s.smb with pecErrors := s.smb.pecErrors + 1 } } 14 1).smbReply true []

/-- MB_WRITE (R611): OFFSET and 1 to 253 bytes; one that reaches beyond the buffer is discarded whole. -/
def execMbWrite (pecOk : Bool) (data : List Byte) (s : State) : Res :=
  let off := leAt data 0 2
  .next (if !s.serves 0 then s.smbReply false []
    else if !pecOk then s.pecError
    else
      let s := s.smbReply true []
      if 3 ≤ data.length ∧ data.length ≤ 255 ∧ off + (data.length - 2) ≤ 4096 then s.writeReq 0 off (data.drop 2) else s)

/-- MB_RDPTR (R611). -/
def execMbRdptr (pecOk : Bool) (offset : W16) (s : State) : Res :=
  .next (if !s.serves 0 then s.smbReply false []
    else if !pecOk then s.pecError
    else State.smbReply { s with smb := { s.smb with rdptr := offset.toNat } } true [])

/-- MB_READ (R611): up to 255 bytes of what is left of the response, or of the buffer where there is none. -/
def execMbRead (s : State) : Res :=
  let x := s.box 0
  let top := if x.state = .done then 16 + leAt (x.rspBytes 0 4 4) 0 4 else 4096
  let n := min 255 (top - s.smb.rdptr)
  .next (if !s.serves 0 then s.smbReply false []
    else State.smbReply { s with smb := { s.smb with rdptr := s.smb.rdptr + n } } true (x.rspBytes 0 s.smb.rdptr n))

/-- MB_DOORBELL (R611): 0x01 rings; other values are reserved. -/
def execMbDoorbell (pecOk : Bool) (value : Byte) (s : State) : Res :=
  .next (if !s.serves 0 then s.smbReply false []
    else if !pecOk then s.pecError
    else
      let s := s.smbReply true []
      if value = 1#8 then s.ring 0 none else s)

/-- MB_STATUS (R611, R756): 0xFFFF without Nganor. -/
def execMbStatus (s : State) : Res :=
  .next (s.smbReply true (leBytes 2 (if s.serves 0 then s.regVal (.mbStatus 0) % 65536 else 0xFFFF)))

/-- COOLANT (R611, R612, R792): the record is latched as a whole. -/
def execCoolant (pecOk : Bool) (data : List Byte) (s : State) : Res :=
  .next (if !pecOk then s.pecError
    else if data.length ≠ 12 then s.smbReply true []
    else
      let c : Coolant :=
        { inlet := signed 16 (leAt data 0 2), outlet := signed 16 (leAt data 2 2), flow := leAt data 4 2, valid := leAt data 6 2 % 8
          seq := leAt data 8 4, at_ := s.now, have_ := true }
      State.smbReply (State.total { s with
        smb := { s.smb with coolant := c, coolantOk := s.smb.coolantOk + 1 }
        therm := { s.therm with seqs := (c.seq :: s.therm.seqs).take 3 } } 13 1) true [])

/-- IDENT (R611): device ID, stepping, part code. -/
def execIdent (s : State) : Res :=
  .next (s.smbReply true (leBytes 8 Config.deviceId.toNat ++ leBytes 1 0xB0 ++ leBytes 3 0 ++ leBytes 4 Config.partCode.toNat))

/-! ### PMBus -/

/-- The registers that a transaction read are the latest telemetry. -/
def State.pmbWords (s : State) (words : List (Nat × Nat)) : State :=
  { s with pmb := { s.pmb with telemetry := words.foldl (fun t w => tabSet t w.1 (w.2 % 65536)) s.pmb.telemetry } }

/-- A transaction that the regulator acknowledged (R617, R652). -/
def State.pmbGood (s : State) (words : List (Nat × Nat)) : State :=
  State.pmbWords { s with pmb := { s.pmb with lost := false, stale := false, fails := 0 } } words

/-- A transaction that failed (R617, R795): the third failure sets PMBUS_LOST. -/
def State.pmbBad (s : State) (code : Nat) : State :=
  let n := s.pmb.fails + 1
  let s : State := { s with pmb := { s.pmb with fails := n } }
  if n < 3 ∨ s.pmb.lost then s
  else
    (State.err { s with pmb := { s.pmb with lost := true, stale := true, fails := 0 } } 7 3
      { sev := 2, i0 := tabGet 0 s.pmb.telemetry 0x79, i1 := code }).event 2 7 0 0

/-- PMB_ALERT (R614, R616): STATUS_WORD and the registers that it flags are read, logged, and CLEAR_FAULTS is sent. -/
def execPmbAlert (words : List (Nat × Nat)) (s : State) : Res :=
  .next (if !s.nganorUp then { s with pmb := { s.pmb with alert := true } }
    else
      let s := s.pmbGood (words.filter fun w => decide (0x79 ≤ w.1 ∧ w.1 ≤ 0x7D))
      let s := s.err 7 3 { sev := 2, i0 := tabGet 0 s.pmb.telemetry 0x79, i1 := 0x79 }
      { s with pmb := { s.pmb with alert := false, sent := s.pmb.sent ++ [(0x03, 0)] } })

/-- The commands that are polled or read once at boot (R614). -/
def pollCodes : List Nat := [0x20, 0x79, 0x88, 0x8B, 0x8C, 0x8D, 0x96, 0x98, 0x99]

/-- PMBUS_POLL (R614, R617): every 10 ms or 100 ms; every 100 ms while PMBUS_LOST. -/
def execPmbusPoll (ok : Bool) (words : List (Nat × Nat)) (s : State) : Res :=
  .next (if !s.nganorUp then s
    else
      if ok then
        let s := s.pmbGood (words.filter fun w => pollCodes.contains w.1)
        { s with pmb := { s.pmb with voutMode := tabGet s.pmb.voutMode words 0x20 } }
      else s.pmbBad ((words.head?.map (·.1)).getD 0x79))

/-- POWER_GAIN_TRIM (R664): every 10 ms while PMBus is available; PKG_W as the trimmed gain gives it. -/
def execPowerGainTrim (pkgW : W16) (s : State) : Res :=
  .next (if s.nganorUp && !s.pmb.lost then { s with pwr := { s.pwr with pkgW := pkgW.toNat } } else s)

/-! ### JTAG -/

/-- Select an instruction. -/
def State.tap (s : State) (i : TapInstr) (out : List Byte) : State := { s with dbg := { s.dbg with ir := i, shiftOut := out } }

/-- IDCODE (R622). -/
def execIdcode (s : State) : Res := .next (s.tap .idcode (leBytes 4 0x197689E3))

/-- SAMPLE_PRELOAD (R622): the cells are loaded. -/
def execSamplePreload (cells : List Bool) (s : State) : Res :=
  .next (State.tap { s with dbg := { s.dbg with cells := cells } } .samplePreload [])

/-- EXTEST (R622): only while SYS_RESET_N is asserted; otherwise BYPASS. -/
def execExtest (cells : List Bool) (s : State) : Res :=
  .next (if s.boot.pinReset then State.tap { s with dbg := { s.dbg with cells := cells } } .extest [] else s.tap .bypass [])

/-- CLAMP (R622), as EXTEST. -/
def execClamp (s : State) : Res := .next (s.tap (if s.boot.pinReset then .clamp else .bypass) [])

/-- HIGHZ (R622), as EXTEST. -/
def execHighz (s : State) : Res := .next (s.tap (if s.boot.pinReset then .highz else .bypass) [])

/-- Form a challenge (R812): DEVICE_ID, NONCE of 32 bytes, ROLLBACK, TRIES; it voids the one before. None after three failures (R814). -/
def State.challenge (s : State) : Option (State × List Byte) :=
  if 3 ≤ s.dbg.tries then none
  else
    let b := leBytes 8 Config.deviceId.toNat ++ ((List.range 4).flatMap fun i => leBytes 8 (Config.entropy (s.freeCtr + i)).toNat) ++
      leBytes 4 s.boot.rollback ++ leBytes 4 (3 - s.dbg.tries) ++ leBytes 16 0
    some ({ s with freeCtr := s.freeCtr + 4, dbg := { s.dbg with challenge := some b } }, b)

/-- A response is right (R813). -/
def responseOk (chal resp : List Byte) : Bool :=
  let pub := slice resp 8 97
  let h := Config.sha384 pub
  decide (resp.length = 208 ∧ (h = Config.keyHash 4 ∨ h = Config.keyHash 5)) &&
    Config.ecdsa pub (Config.sha384 (chal ++ resp.take 0x70)) (slice resp 0x70 48) (slice resp 0xA0 48)

/-- A response uses up the challenge (R812 to R814): success grants the SCOPE bits that were signed; a failure is counted. -/
def State.answerChallenge (s : State) (resp : List Byte) : State × Bool :=
  let ok := decide (s.dbg.tries < 3) && s.dbg.challenge.any fun c => responseOk c resp
  if ok then
    ({ s with dbg := { s.dbg with challenge := none, unlocked := true, scope := s.dbg.scope ||| leAt resp 0 4 % 4 } }, true)
  else ({ s with dbg := { s.dbg with challenge := none, tries := min 3 (s.dbg.tries + 1) } }, false)

/-- UNLOCK_CHAL (R622, R812, R814): zeros after three failures. -/
def execUnlockChal (s : State) : Res :=
  .next (match s.challenge with
    | some (t, b) => t.tap .unlockChal b
    | none => s.tap .unlockChal (leBytes 64 0))

/-- UNLOCK_RESP (R622, R813). -/
def execUnlockResp (response : List Byte) (s : State) : Res := .next ((s.answerChallenge response).1.tap .unlockResp [])

/-- DEBUG (R622, R814): after an unlock whose SCOPE has JTAG DEBUG; otherwise BYPASS. -/
def execDebug (s : State) : Res := .next (s.tap (if s.dbg.unlocked && bitN s.dbg.scope 0 then .debug else .bypass) [])

/-- BYPASS (R622). -/
def execBypass (s : State) : Res := .next (s.tap .bypass [])

/-! ### Console -/

/-- Recovery wait, in which the console's lines are accepted (R804). -/
def State.inRecovery (s : State) : Bool := s.clocked && decide (s.boot.stage = 6)

/-- UART_INFO (R804): one line is written. -/
def execUartInfo (s : State) : Res := .next (if s.inRecovery then s.uartLine else s)

/-- A boot that starts without a reset (R804). -/
def State.bootFrom (s : State) (source : Nat) : State :=
  if s.inRecovery then
    let s : State := { s with boot := { s.boot with stage := 1, source := source, tftp := [], stageAt := s.now } }
    if source = 1 then s.romPort else s
  else s

/-- UART_BOOT_QSPI (R804). -/
def execUartBootQspi (s : State) : Res := .next (s.bootFrom 0)

/-- UART_BOOT_TFTP (R804). -/
def execUartBootTftp (s : State) : Res := .next (s.bootFrom 1)

/-- UART_REBOOT (R800, R804). -/
def execUartReboot (s : State) : Res := .next (if s.inRecovery then s.restart 2 else s)

end Sys2Proof.Machine
end

