-- ==== Sys2Proof/Machine/Roce.lean ====
section
/-!
DEFINITION. Ingest over RoCEv2 (spec/14_external_interfaces.md R592 to R606): queue pairs as responder and requester, ingest windows. What the
rules leave to the standard (packet sequence, acknowledgement syndromes) is PRESUMED from it (log entry 20).
-/
namespace Sys2Proof.Machine

/-! ### Queue pairs -/

/-- A queue pair. -/
def State.qp (s : State) (n : Nat) : Option Qp := tabFind s.ing.qps n

/-- Change the ingest block. -/
def State.modIng (s : State) (f : IngestSt → IngestSt) : State := { s with ing := f s.ing }

/-- Put a queue pair. -/
def State.setQp (s : State) (n : Nat) (q : Qp) : State := s.modIng fun g => { g with qps := tabSet g.qps n q }

/-- A packet or message is discarded as STRAY (R594, R603, R606). -/
def State.isStray (s : State) : State := s.modIng fun g => { g with stray := satAdd 0xFFFF g.stray 1 }

/-- Send on a queue pair (R595). -/
def State.roceSend (s : State) (o : RoceOut) : State := s.modIng fun g => { g with out := g.out ++ [o] }

/-- The distance from one PSN to another, in 24 bits. -/
def psnDiff (a b : Nat) : Int := signed 24 ((a + 2 ^ 24 - b % 2 ^ 24) % 2 ^ 24)

/-- The PSN after another. -/
def psnNext (a : Nat) : Nat := (a + 1) % 2 ^ 24

/-- Syndromes: ACK, RNR NAK with a timer of 0.32 ms (R597), and the NAKs of a sequence error, an invalid request and a remote access
error. -/
def synAck : Nat := 0x1F
/-- RNR NAK. -/
def synRnr : Nat := 0x2A
/-- NAK: PSN sequence error. -/
def synSeq : Nat := 0x60
/-- NAK Invalid Request. -/
def synInvalid : Nat := 0x61
/-- NAK Remote Access Error. -/
def synAccess : Nat := 0x62

/-- A queue pair enters the error state (R598, R605): QP_ERROR, the record and the event; its REQUESTED windows become FAILED, with their
arrivals. -/
def State.qpFails (s : State) (n syndrome : Nat) : State :=
  match s.qp n with
  | none => s
  | some q =>
    if q.state = .error then s
    else
      let s := (s.setQp n { q with state := .error, out := [], write := none }).modIng fun g => { g with qpError := true }
      ((s.err 3 3 { sev := 2, i0 := n, i1 := syndrome }).event 5 5 0 n).failWindows (fun k => k == n) true

/-- A packet marked CE makes a CNP, at most one in 50 µs (R596). -/
def State.ceSeen (s : State) (n : Nat) (ce : Bool) : State :=
  match s.qp n with
  | some q =>
    if ce && q.cnpAt.all fun t => decide (t + 50000 ≤ s.now) then
      ((s.setQp n { q with cnpAt := some s.now }).modIng fun g => { g with cnpSent := satAdd 0xFFFF g.cnpSent 1 }).roceSend (.cnp n)
    else s
  | none => s

/-- A packet comes on a lane that is UP (R594): to a queue pair of the lane and address, else STRAY. One in error answers nothing. -/
def State.onQp (s : State) (p : RocePkt) (f : State → Qp → State) : State :=
  if !s.laneUp p.lane then s
  else match s.qp p.qpn with
    | none => s.isStray
    | some q =>
      if q.plane ≠ p.lane ∨ q.localIp ≠ p.dstIp then s.isStray
      else if q.state = .error then s
      else
        let s := s.ceSeen p.qpn p.ce
        f s ((s.qp p.qpn).getD q)

/-- An acknowledgement of `psn`. -/
def State.roceAck (s : State) (n psn syndrome : Nat) : State :=
  s.roceSend (.ack n psn syndrome ((s.qp n).elim 0 (·.msn)))

/-- A NAK that takes the queue pair into the error state (R592, R598, R602). -/
def State.nak (s : State) (n psn syndrome : Nat) : State := (s.roceAck n psn syndrome).qpFails n syndrome

/-- A request in order is taken; a repeated one is acknowledged again; one ahead of its place is answered with a sequence NAK, and the
queue pair goes on. `f` gives the state with the queue pair past the packet, or the syndrome of the NAK. -/
def State.inSequence (s : State) (p : RocePkt) (q : Qp) (f : State → Qp → State ⊕ Nat) : State :=
  let d := psnDiff p.psn q.rqPsn
  if d < 0 then s.roceAck p.qpn ((q.rqPsn + 2 ^ 24 - 1) % 2 ^ 24) synAck
  else if 0 < d then s.roceAck p.qpn q.rqPsn synSeq
  else match f s { q with rqPsn := psnNext q.rqPsn } with
    | .inl s => s
    | .inr syn => s.nak p.qpn p.psn syn

/-- A message ends: it is counted and acknowledged. -/
def State.endMessage (s : State) (p : RocePkt) : State :=
  match s.qp p.qpn with
  | some q => (s.setQp p.qpn { q with msn := (q.msn + 1) % 2 ^ 24 }).roceAck p.qpn p.psn synAck
  | none => s

/-! ### Windows -/

/-- The window that an R_Key names (R599). -/
def keyWindow (rkey : Nat) : Nat := rkey / 2 ^ 22

/-- A field of a window's entry (R599). -/
def State.winField (s : State) (w off n : Nat) : Nat := leAt (s.bytes (s.ingestEntry w + off) n) 0 n

/-- The window is REQUESTED under this key (R603). -/
def State.keyLive (s : State) (rkey : Nat) : Bool :=
  let w := keyWindow rkey
  decide (w < s.job.ingestCount) && decide (s.winField w 0x10 1 = 1) && decide (s.winField w 0x14 4 = rkey)

/-- A window is completed or failed: its STATUS, and the arrival (R603). -/
def State.finishWindow (s : State) (w st : Nat) : State := (s.setWindow w st).windowArrival w

/-- One packet of an RDMA WRITE is placed (R602), or its NAK's syndrome. First and Middle carry 4,096 bytes, Last and Only the rest. -/
def State.writePart (s : State) (p : RocePkt) (q : Qp) : State ⊕ Nat :=
  let first := decide (p.place = 0 ∨ p.place = 3)
  let more := decide (p.place < 2)
  let len := p.payload.length
  match if first then (if q.write.isSome then none else some (p.rkey, p.va, p.dmaLen)) else q.write with
  | none => .inr synInvalid
  | some (rkey, off, left) =>
    let w := keyWindow rkey
    if 3 < p.place ∨ 4096 < len ∨ (more ∧ (len ≠ 4096 ∨ left ≤ 4096)) ∨ (¬more ∧ len ≠ left) then .inr synInvalid
    else if first ∧ left = 0 then .inl (s.setQp p.qpn { q with write := none })
    else
      let a := s.winField w 0 8 + off
      if !s.keyLive rkey || decide (s.winField w 0xC 2 ≠ p.qpn ∨ s.winField w 8 4 < off + left) || (s.refuses a len).isSome then .inr synAccess
      else
        .inl ((s.setQp p.qpn { q with write := if more then some (rkey, off + len, left - len) else none }).store a p.payload false 1)

/-- RDMA_WRITE (R592, R602): each packet lands at its place in the window. -/
def execRdmaWrite (p : RocePkt) (s : State) : Res :=
  .next (s.onQp p fun s q => s.inSequence p q fun s q =>
    match s.writePart p q with
    | .inl s => .inl (if 2 ≤ p.place then s.endMessage p else s)
    | .inr syn => .inr syn)

/-- The message finds every receive slot full (R597). -/
def Qp.full (q : Qp) : Bool := decide (16 ≤ q.recvUsed)

/-- RDMA_WRITE_WITH_IMMEDIATE (R602, R603): Last or Only; ImmDt names the window that is FILLED, else STRAY. -/
def execRdmaWriteWithImmediate (p : RocePkt) (s : State) : Res :=
  .next (if p.place < 2 ∨ 3 < p.place then s else s.onQp p fun s q =>
    if q.full ∧ p.psn % 2 ^ 24 = q.rqPsn then s.roceAck p.qpn p.psn synRnr
    else s.inSequence p q fun s q =>
      match s.writePart p q with
      | .inr syn => .inr syn
      | .inl s =>
        let w := keyWindow p.imm
        let s := if s.keyLive p.imm && decide (s.winField w 0xC 2 = p.qpn) then s.finishWindow w 2 else s.isStray
        .inl (s.endMessage p))

/-- WINDOW_FAIL (R601, R603): a SEND of at most 64 bytes; one that is no WINDOW_FAIL of a live key is STRAY. -/
def execWindowFail (p : RocePkt) (s : State) : Res :=
  .next (s.onQp p fun s q =>
    if q.full ∧ p.psn % 2 ^ 24 = q.rqPsn then s.roceAck p.qpn p.psn synRnr
    else s.inSequence p q fun s q =>
      if 64 < p.payload.length ∨ q.write.isSome then .inr synInvalid
      else
        let s := s.setQp p.qpn q
        let w := leAt p.payload 2 2
        let rkey := leAt p.payload 4 4
        let s := if p.payload.length < 16 ∨ leAt p.payload 0 2 ≠ 2 ∨ keyWindow rkey ≠ w ∨ !s.keyLive rkey ∨ s.winField w 0xC 2 ≠ p.qpn then
            s.isStray
          else (s.finishWindow w 3).err 3 4 { sev := 2, i0 := w, i1 := leAt p.payload 8 4 }
        .inl (s.endMessage p))

/-- INVALID_REQUEST (R592): answered with NAK Invalid Request. -/
def execInvalidRequest (p : RocePkt) (s : State) : Res :=
  .next (s.onQp p fun s q => s.inSequence p q fun _ _ => .inr synInvalid)

/-- CNP (R596): counted, and a CE mark answered. -/
def execCnp (p : RocePkt) (s : State) : Res :=
  .next (s.onQp p fun s _ => s.modIng fun g => { g with cnpSeen := g.cnpSeen + 1 })

/-! ### The requester -/

/-- Send again what is not acknowledged (R597). -/
def State.resendQp (s : State) (n : Nat) : State :=
  match s.qp n with
  | some q => q.out.foldl (fun s e => s.roceSend (.send n e.1 e.2)) (s.setQp n { q with sentAt := s.now })
  | none => s

/-- ROCE_ACK (R597, R598): an ACK ends the sends up to its PSN; an RNR NAK and a sequence NAK end those before it and repeat the rest while
tries are left; any other NAK is an error. A repeat after an RNR NAK is made at once (log entry 20). -/
def execRoceAck (p : RocePkt) (s : State) : Res :=
  let kind := p.syndrome / 32 % 4
  .next (s.onQp p fun s q =>
    let keep := fun (e : Nat × List Byte) => if kind = 0 then decide (0 < psnDiff e.1 p.psn) else decide (0 ≤ psnDiff e.1 p.psn)
    let rest := q.out.filter keep
    let q' : Qp := if rest.length < q.out.length then { q with out := rest, sentAt := s.now, tries := q.retry, rnrTries := q.rnrRetry } else q
    match kind with
    | 0 => s.setQp p.qpn q'
    | 1 =>
      if q'.rnrTries = 0 then (s.setQp p.qpn q').qpFails p.qpn p.syndrome
      else (s.setQp p.qpn { q' with rnrTries := if q'.rnrRetry = 7 then 7 else q'.rnrTries - 1 }).resendQp p.qpn
    | 3 =>
      if p.syndrome % 32 ≠ 0 ∨ q'.tries = 0 then (s.setQp p.qpn q').qpFails p.qpn p.syndrome
      else (s.setQp p.qpn { q' with tries := q'.tries - 1 }).resendQp p.qpn
    | _ => s)

/-- ROCE_ACK_TIMEOUT (R597, R598): 4.096 µs × 2 ^ ACK_TIMEOUT without an acknowledgement. -/
def execRoceAckTimeout (qpn : Nat) (s : State) : Res :=
  .next (match s.qp qpn with
    | some q =>
      if q.state = .error ∨ q.out.isEmpty ∨ s.now < q.sentAt + 4096 * 2 ^ q.ackTimeout then s
      else if q.tries = 0 then s.qpFails qpn 0
      else (s.setQp qpn { q with tries := q.tries - 1 }).resendQp qpn
    | none => s)

/-! ### Requests -/

/-- The entry of a window is valid (R599, R600): Res zero, a range within HBM or one local store, a ready queue pair. -/
def State.entryOk (s : State) (w : Nat) : Bool :=
  let a := s.winField w 0 8
  let n := s.winField w 8 4
  decide (fld (s.winField w 0xF 1) 6 6 = 0 ∧ s.winField w 0x11 3 = 0 ∧ s.winField w 0x18 8 = 0 ∧ a % 32 = 0 ∧ n % 32 = 0 ∧ 32 ≤ n) &&
    s.isStore a n && (s.qp (s.winField w 0xC 2)).any fun q => decide (q.state = .ready)

/-- A request is refused (R600). -/
def State.refuseReq (s : State) (c w : Nat) : State :=
  (s.modIng fun g => { g with refused := true }).err 3 4 { sev := 2, cluster := c, i0 := w }

/-- A SEND Only on a queue pair (R592, R595). -/
def State.sendOnly (s : State) (n : Nat) (payload : List Byte) : State :=
  match s.qp n with
  | none => s
  | some q =>
    let q' : Qp := if q.out.isEmpty then { q with sentAt := s.now, tries := q.retry, rnrTries := q.rnrRetry } else q
    (s.setQp n { q' with sqPsn := psnNext q.sqPsn, out := q.out ++ [(q.sqPsn, payload)] }).roceSend (.send n q.sqPsn payload)

/-- The WINDOW_REQ message (R601). -/
def windowReq (w rkey len cookie : Nat) : List Byte := leBytes 2 1 ++ leBytes 2 w ++ leBytes 4 rkey ++ leBytes 4 len ++ leBytes 4 cookie

/-- A request for window `w` (R600): no entry, no access to one; else accepted, with its key and message, or REFUSED with the arrival. -/
def State.requestWindow (s : State) (c w cookie : Nat) : State :=
  if s.job.ingest = 0 ∨ s.job.ingestCount ≤ w then s.refuseReq c w
  else
    let (s, _, bad) := s.load (s.ingestEntry w) 32 1
    if bad then s.devFault 2 3 { poison := true, cluster := c, addr := s.ingestEntry w, i0 := 5 }
    else if s.winField w 0x10 1 ≠ 1 ∧ s.entryOk w then
      let gen := (tabGet 0 s.ing.gens w + 1) % 2 ^ 22
      let rkey := w * 2 ^ 22 + gen
      let len := s.winField w 8 4
      let s := s.modIng fun g => { g with gens := tabSet g.gens w gen }
      let s := (s.store (s.ingestEntry w + 0x14) (leBytes 4 rkey) false 1).setWindow w 1
      s.sendOnly (s.winField w 0xC 2) (windowReq w rkey len cookie)
    else ((s.setWindow w 4).refuseReq c w).windowArrival w

/-- A program of a loaded job may reach the blocks that belong to the job (R587, R606). -/
def State.ofJob (s : State) (c : Nat) : Bool := s.open_ c && decide (s.job.state ≠ .none ∧ s.job.state ≠ .staging)

/-- INGEST_REQ (R600, R606). -/
def execIngestReq (c : BitVec 8) (v : W64) (s : State) : Res :=
  .next (if s.ofJob c.toNat then s.requestWindow c.toNat (fld v.toNat 9 0) (fld v.toNat 63 32) else s)

end Sys2Proof.Machine
end

