-- ==== Sys2Proof/Machine/JobCmds.lean ====
section
/-!
DEFINITION. The job commands (spec/20_commands.md R769 to R776): stages, the checks and the effects of a job load, start, stop, pause,
unload, regulators and status.
-/
namespace Sys2Proof.Machine

/-! ### Answers that need a job -/

/-- The code of a command that JOB_STATE forbids (R765): NO_JOB without a loaded job, else JOB_STATE. -/
def State.notIn (s : State) : Answer := badState (if s.job.state = .none ∨ s.job.state = .staging then 1 else 3)

/-- JOB_STATE is RUNNING, PAUSED or HALTED (R766). -/
def State.live (s : State) : Bool := s.jobRuns

/-! ### Stages -/

/-- Two ranges overlap. -/
def overlaps (a n b m : Nat) : Bool := decide (a < b + m ∧ b < a + n)

/-- JOB_STAGE (R773): a field at fault, a state or tag that forbids it, a ninth stage; else the lowest free stage opens. -/
def State.jobStage (s : State) (b : List Byte) : State × Answer :=
  let job := leAt b 0 2
  let station := leAt b 4 4
  let base := leAt b 8 8
  let len := leAt b 0x10 8
  if job = 0 then (s, badField 0)
  else if 2 ^ 18 ≤ station then (s, badField 4)
  else if base % 32 ≠ 0 ∨ s.memsys.hbmTop ≤ base ∨ s.job.stages.any fun x => overlaps base len x.base x.length then (s, badField 8)
  else if len = 0 ∨ len % 32 ≠ 0 ∨ s.memsys.hbmTop < base + len then (s, badField 0x10)
  else if (s.job.state ≠ .none ∧ s.job.state ≠ .staging) ∨ (s.job.state = .staging ∧ s.job.tag ≠ job) then (s, badState 3)
  else match (List.range 8).find? fun k => s.job.stages.all fun x => decide (x.num ≠ k) with
    | none => (s, badState 3)
    | some k =>
      ({ s with job := { s.job with
          state := .staging, tag := job
          stages := s.job.stages ++ [({ num := k, job := job, station := station, base := base, length := len } : Stage8)] } },
        ansOk (leBytes 1 k ++ leBytes 7 0))

/-- JOB_STAGE. -/
def execJobStage (m : Fin 16) (s : State) : Res := .next (s.atPoint m.val 0x0201 State.jobStage)

/-- JOB_UNSTAGE (R769): the stage closes. -/
def execJobUnstage (m : Fin 16) (s : State) : Res :=
  .next (s.atPoint m.val 0x0202 fun s b =>
    let k := leAt b 0 1
    if s.job.state ≠ .staging then (s, badState 3)
    else if s.job.stages.any fun x => x.num == k then
      ({ s with job := { s.job with stages := s.job.stages.filter fun x => x.num != k } }, ansOk [])
    else (s, badField 0))

/-! ### The structures of a job load -/

/-- An HBM range of `n` bytes at an aligned address (R770). -/
def State.structAt (s : State) (a n align : Nat) : Bool := decide (a % align = 0 ∧ a < s.memsys.hbmTop ∧ a + n ≤ s.memsys.hbmTop)

/-- A PHASE_MASK is valid (R368), with its reserved bits (R367). -/
def maskOk (v : Nat) : Bool := decide (v ≠ 0 ∧ v < 32 ∧ (bitN v 3 → v % 8 ≠ 0) ∧ (bitN v 4 → bitN v 3))

/-- A step kind's entry is valid (R367, R368). -/
def kindOk (e : List Byte) : Bool :=
  maskOk (leAt e 0 1) && ((List.range 5).all fun n => decide (leAt e (1 + n) 1 ≤ 7)) && decide (leAt e 6 2 = 0)

/-- The step schedule is valid (R367, R368). -/
def schedOk (b : List Byte) : Bool :=
  let kinds := leAt b 0 1
  let len := leAt b 1 1
  let ev := leAt b 2 1
  decide (1 ≤ kinds ∧ kinds ≤ 4 ∧ 1 ≤ len ∧ len ≤ 64 ∧ ev % 64 ≠ 63 ∧ fld ev 6 6 = 0 ∧ leAt b 3 1 ≤ 1 ∧ 1 ≤ leAt b 4 4 ∧
      leAt b 4 4 ≤ 600000 ∧ 1 ≤ leAt b 8 8) &&
    zeroAt b 0x10 16 && zeroAt b (0x40 + len) (64 - len) &&
    ((List.range 4).all fun k => let e := slice b (0x20 + 8 * k) 8; if k < kinds then kindOk e else zeroAt e 0 8) &&
    (List.range len).all fun p => decide (leAt b (0x40 + p) 1 < kinds)

/-- The schedule that its bytes spell (R367). -/
def schedOf (b : List Byte) : Schedule :=
  { kinds := (List.range (leAt b 0 1)).map fun k =>
      { mask := leAt b (0x20 + 8 * k) 1, pref := (List.range 5).map fun n => leAt b (0x21 + 8 * k + n) 1 }
    pattern := (List.range (leAt b 1 1)).map fun p => leAt b (0x40 + p) 1
    verdictEv := leAt b 2 1 % 64, verdictEn := bitN (leAt b 2 1) 7, policy := leAt b 3 1, stallMs := leAt b 4 4, firstStep := leAt b 8 8 }

/-- An entry of the shard table (R379). -/
def shardOf (b : List Byte) : Shard :=
  let f := leAt b 0xA 1
  { id := leAt b 0 4, owner := leAt b 4 4, slot := leAt b 8 2, slow := bitN f 0, delay := fld f 3 1, momS8 := bitN f 4, factored := bitN f 5
    opt := leAt b 0xB 1, bytes := leAt b 0xC 4, image := leAt b 0x10 8, master := leAt b 0x18 8, moment := leAt b 0x20 8
    factor := leAt b 0x28 8, pend := leAt b 0x30 8, desc := leAt b 0x38 6, descCount := leAt b 0x3E 2 }

/-- A tensor's descriptor is valid and lies in the image with all that it names (R117, R380). -/
def State.descOk (s : State) (e : Shard) (a : Nat) : Bool :=
  match tensorOf (s.bytes a 64) with
  | none => false
  | some t =>
    let wide := (List.range t.wideCount).map fun w => leAt (s.bytes (t.wideList + 4 * w) 4) 0 4
    let grid := (List.range 16).map fun i => signed 8 (s.byte (t.gridAddr + i)).toNat
    let inImage (x n : Nat) : Bool := decide (e.image ≤ x ∧ x + n ≤ e.image + e.bytes)
    let rowLen := if t.wideAxis then t.rows else t.cols
    tensorValid (s.bytes a 64) wide grid (fun x => decide (x < s.memsys.hbmTop)) && inImage t.podBase (288 * t.groups * t.panels) &&
      (t.fmt != .g4 || (inImage t.gridAddr 16 && inImage t.sideBase (32 * t.sideSectors))) &&
      (t.wideCount == 0 || (inImage t.wideList (4 * t.wideCount) && inImage t.wideBase (128 * ((rowLen + 63) / 64) * t.wideCount)))

/-- An entry of the shard table is valid (R379 to R381): reserved bits, owner, flags, addresses by owned or replica, descriptors. -/
def State.shardOk (s : State) (b : List Byte) (rank ranks : Nat) (sched : Schedule) : Bool :=
  let e := shardOf b
  let own := decide (e.owner = rank)
  let at_ (a : Nat) : Bool := s.structAt a 32 32
  let slowOk := sched.kinds.all fun k => !bitN k.mask 2 || bitN k.mask 3
  decide (e.owner < ranks ∧ leAt b 0xA 1 < 64 ∧ (e.opt = 0 ∨ e.opt = 1 ∨ e.opt = 0xFF) ∧ e.bytes % 32 = 0 ∧ 0 < e.bytes ∧ 1 ≤ e.descCount) &&
    (if e.slow then decide (1 ≤ e.delay ∧ e.delay ≤ 4) && slowOk else e.delay == 0) && (!e.factored || e.opt == 1) &&
    s.structAt e.image e.bytes 32 && s.structAt e.desc (64 * e.descCount) 32 &&
    (if own then
      at_ e.master && (if e.opt = 0xFF then e.moment == 0 || at_ e.moment else at_ e.moment) &&
        (if e.factored then at_ e.factor else e.factor == 0) && (if e.slow then at_ e.pend else e.pend == 0)
    else decide (e.master = 0 ∧ e.moment = 0 ∧ e.factor = 0 ∧ e.pend = 0)) &&
    (List.range e.descCount).all fun i => s.descOk e (e.desc + 64 * i)

/-- A watch entry is valid (R402, R881): of one that is OFF only MODE is looked at. -/
def watchOk (b : List Byte) : Bool :=
  let mode := leAt b 0 1
  let num (a : Nat) : Bool := match decF32 a with
    | .nan => false
    | _ => true
  decide (mode = 0) ||
    (decide (mode ≤ 2 ∧ 1 ≤ leAt b 1 1 ∧ leAt b 1 1 ≤ 3 ∧ 1 ≤ leAt b 2 1 ∧ leAt b 2 1 ≤ 8 ∧ leAt b 3 1 = 0 ∧ leAt b 0xC 4 = 0) &&
      decide ((decF32 f32One).cmp (decF32 (leAt b 4 4)) = some .lt) && num (leAt b 8 4) &&
      decide ((decF32 (leAt b 8 4)).cmp (decF32 0) ≠ some .lt))

/-- A watch input after a job load (R402, R407). -/
def watchOf (b : List Byte) : WatchInput :=
  let mode := leAt b 0 1
  if mode = 0 then {}
  else
    { mode := mode, policy := leAt b 1 1, alpha := leAt b 2 1, thresh := leAt b 4 4, floor := leAt b 8 4
      keep := { state := .learn, clamp := f32One } }

/-- The stream configuration is valid (R416) for a job with so many owned bytes. -/
def State.streamCfgOk (s : State) (b : List Byte) (owned : Nat) : Bool :=
  let ex := leAt b 0x11 1
  s.structAt (leAt b 0 8) (leAt b 8 8) 32 &&
    decide (2 * owned ≤ leAt b 8 8 ∧ leAt b 0x10 1 ≤ 1 ∧ ex ≤ 1 ∧ leAt b 0x14 4 = 0 ∧ leAt b 0x18 4 < 2 ^ 18 ∧ leAt b 0x1C 4 = 0) &&
    zeroAt b 0x28 24 &&
    (if ex = 1 then leAt b 0x12 2 != 0 else decide (leAt b 0x12 2 = 0 ∧ leAt b 0x18 4 = 0 ∧ leAt b 0x20 8 = 0))

/-- An entry of the cluster image table is valid (R771). -/
def State.imageEntOk (s : State) (b : List Byte) : Bool :=
  let len := leAt b 8 4
  let entry := leAt b 0xC 4
  s.structAt (leAt b 0 8) len 32 && decide (32 ≤ len ∧ len ≤ 2097152 ∧ len % 32 = 0 ∧ entry % 16 = 0 ∧ entry < len)

/-! ### A job load -/

/-- The job that a request names (R770), with the copies of the structures that are read at the load. -/
def State.jobOf (s : State) (b : List Byte) : JobSt :=
  let g := leAt b
  { state := .loaded, tag := g 0 2, seeded := bitN (g 2 2) 0, rank := g 4 4, seed := g 8 8, scheduleAddr := g 0x10 8, shardAddr := g 0x18 8
    watchAddr := g 0x30 8, optAddr := g 0x38 8, rankAddr := g 0x28 8, pubBase := g 0x40 8, transBase := g 0x48 8, streamCfg := g 0x50 8
    ingest := g 0x58 8, ingestCount := if g 0x58 8 = 0 then 0 else g 0x60 2, controller := if bitN (g 0x64 4) 18 then some (g 0x64 4 % 2 ^ 18) else none
    images := g 0x68 8, regCfg := g 0x70 8, waitLimit := g 0x78 4
    ranks := (List.range (g 0x24 4)).map fun i => leAt (s.bytes (g 0x28 8 + 4 * i) 4) 0 4
    sched := schedOf (s.bytes (g 0x10 8) 128)
    shards := (List.range (g 0x20 4)).map fun i => shardOf (s.bytes (g 0x18 8 + 64 * i) 64)
    entries := (List.range 256).map fun c => (c, leAt (s.bytes (g 0x68 8 + 16 * c + 0xC) 4) 0 4) }

/-- The fields of a request with what each demands, by ascending offset (R770, R772). -/
def State.loadChecks (s : State) (b : List Byte) : List (Nat × Bool) :=
  let g := leAt b
  let job := s.jobOf b
  let n := g 0x24 4
  let inHbm (a k align : Nat) : Bool := s.structAt (g a 8) k align
  [(0x00, decide (g 0 2 ≠ 0) && (s.job.state != .staging || g 0 2 == s.job.tag)), (0x02, decide (g 2 2 < 2)),
   (0x04, decide (g 4 4 < 2 ^ 17 ∧ g 4 4 < n) && (!inHbm 0x28 (4 * n) 32 || job.ranks.getD (g 4 4) 0 == s.me)),
   (0x10, inHbm 0x10 128 32 && schedOk (s.bytes (g 0x10 8) 128)),
   (0x18, inHbm 0x18 (64 * g 0x20 4) 64 &&
     (List.range (g 0x20 4)).all fun i => s.shardOk (s.bytes (g 0x18 8 + 64 * i) 64) (g 4 4) n job.sched),
   (0x24, decide (1 ≤ n ∧ n ≤ 131072)), (0x28, inHbm 0x28 (4 * n) 32 && job.ranks.all fun d => decide (d < 2 ^ 18)),
   (0x30, inHbm 0x30 1024 32 && (List.range 64).all fun i => watchOk (s.bytes (g 0x30 8 + 16 * i) 16)),
   (0x38, inHbm 0x38 32 32 && leAt (s.bytes (g 0x38 8) 32) 0x1C 4 == 0),
   (0x40, inHbm 0x40 32 32 && (job.shards.all fun e => e.owner != g 4 4 || inHbm 0x40 (32 * (e.slot + 1)) 32)), (0x48, inHbm 0x48 1024 1024),
   (0x50, inHbm 0x50 64 32 &&
     s.streamCfgOk (s.bytes (g 0x50 8) 64) ((State.ownedRegions { s with job := job }).map (·.bytes)).sum),
   (0x58, g 0x58 8 == 0 || inHbm 0x58 (32 * g 0x60 2) 32), (0x60, decide (g 0x60 2 ≤ 1024)), (0x64, decide (g 0x64 4 < 2 ^ 19)),
   (0x68, inHbm 0x68 4096 32 && (List.range 256).all fun c => s.imageEntOk (s.bytes (g 0x68 8 + 16 * c) 16)),
   (0x70, g 0x70 8 == 0 || inHbm 0x70 136 32)]

/-- Whether a structure of the job returns poison (R772). -/
def State.jobPoison (s : State) (b : List Byte) : Bool :=
  let g := leAt b
  s.poisoned (g 0x10 8) 128 || s.poisoned (g 0x18 8) (64 * g 0x20 4) || s.poisoned (g 0x28 8) (4 * g 0x24 4) || s.poisoned (g 0x30 8) 1024 ||
    s.poisoned (g 0x38 8) 32 || s.poisoned (g 0x50 8) 64 || s.poisoned (g 0x68 8) 4096 || (g 0x70 8 != 0 && s.poisoned (g 0x70 8) 136) ||
    ((List.range 256).any fun c =>
      let e := s.bytes (g 0x68 8 + 16 * c) 16
      s.poisoned (leAt e 0 8) (leAt e 8 4)) ||
    (s.jobOf b).shards.any fun e => s.poisoned e.desc (64 * e.descCount)

/-- The local store of a cluster takes its image; the rest becomes zero with valid check bits (R771). -/
def State.loadImage (s : State) (c : Nat) (img : List Byte) : State :=
  let base := lsBase c
  let out := fun (a : Nat) => !decide (base ≤ a ∧ a < base + 0x200000)
  { s with mem := putBytes (s.mem.filter fun x => out x.1) base img, poison := s.poison.filter fun x => out x.1 }

/-- Every present cluster's image is copied (R771). -/
def State.loadImages (s : State) : State :=
  s.present.foldl (fun s c =>
    let e := s.bytes (s.job.images + 16 * c) 16
    s.loadImage c (s.bytes (leAt e 0 8) (leAt e 8 4))) s

/-- A regulator register of every stack takes a value under R21 and R22. -/
def State.regWrite (s : State) (p v : Nat) : State :=
  let s := if reservedWrite partCfgFields v then s.errReserved (0x600000000100 + 0x10 * p) v else s
  (List.range 12).foldl (fun s k => s.setPart k p (writeFields partCfgFields ((s.stack k).part p).cfgWord v)) s

/-- The regulators at a job load (R481, R770): the values of R481, then REGCFG. -/
def State.loadRegs (s : State) : State :=
  let s := (List.range 12).foldl (fun s k =>
    let x := s.stack k
    s.setStack k { x with
      classMap := [0, 0, 0, 0, 0]
      parts := (List.range 16).map fun p => (p, { x.part p with min := 0, cap := 256, burst := 1024 }) }) s
  if s.job.regCfg = 0 then s
  else
    let w (p : Nat) : Nat := leAt (s.bytes (s.job.regCfg + 8 * p) 8) 0 8
    let s := (List.range 16).foldl (fun s p => s.regWrite p (w p)) s
    (List.range 12).foldl (fun s k => s.setClassMap k (w 16)) s

/-- Every pending slot of the owned slow shards becomes EMPTY (R400). -/
def State.emptySlots (s : State) : State :=
  (s.owned.filter fun e => e.slow).foldl (fun s e =>
    let n := elements (s.shardTensors e)
    (List.range e.delay).foldl (fun s i => s.store (e.pend + pendingSlot n * i + 8) [0#8] false 3) s) s

/-- The job tree of a new job or of a resume (R562, R564): an epoch of its own, no operation under way. -/
def State.newTree (s : State) : State :=
  s.modHud fun h => { h with
    treeEpoch := (h.treeEpoch + 1) % 65536, levels := treeLevels s.job.ranks.length, seqProg := 0, seqSys := 0, ops := [], doneProg := []
    doneSys := [], sysKinds := [], slots := h.slots.map fun p => (p.1, if p.2.state = 1 then { p.2 with state := 3 } else p.2) }

/-- A resync begins (R441, R783): the whole owned state goes to the twin as FULL records; without any the twin is BOUND at once. -/
def State.resync (s : State) (step : Nat) : State :=
  let rs := numberFrom s.ss.seq (s.fullRecords step)
  if rs.isEmpty then { s with ss := { s.ss with twin := 1, restoring := false } }
  else { s with ss := { s.ss with twin := 2, restoring := true, seq := s.ss.seq + rs.length, unsent := rs ++ s.ss.unsent } }

/-- The stream at a job load (R415 to R417, R448): its configuration, FREE generations, COMMITTED_STEP and ACKED_STEP at FIRST_STEP − 1; the
backup space; what the twin holds is no longer this job's, so a bound twin is sent the whole of it. -/
def State.loadStream (s : State) : State :=
  let b := s.bytes s.job.streamCfg 64
  let c := s.job.sched.firstStep - 1
  let s : State := { s with ss := { s.ss with
    logBase := leAt b 0 8, logBytes := leAt b 8 8, twinless := leAt b 0x10 1, exportEn := bitN (leAt b 0x11 1) 0, exportTag := leAt b 0x12 2
    exportDest := leAt b 0x18 4, exportBase := leAt b 0x20 8, exported := 0, twinlessRun := false, exportOn := false, gen0 := {}, gen1 := {}
    stopped := false, restoring := false, exportLag := false, committed := c, acked := c, ended := c, formed := [], unsent := [], sent := []
    nakCount := [], regions := s.ownedRegions } }
  if s.ss.twin = 1 ∨ s.ss.twin = 2 then s.resync c else s

/-- The watch at a job load (R407). -/
def State.loadWatch (s : State) : State :=
  let w := (List.range 64).map fun i => (i, watchOf (s.bytes (s.job.watchAddr + 16 * i) 16))
  { s with watch := w, watchKept := w.map fun p => (p.1, p.2.keep) }

/-- The sticky status that a job load clears beside the clusters' (R378, R555, R606, R686), the power table (R663) and P_IDLE (R661). -/
def State.loadPower (s : State) (pIdle : Nat) : State :=
  let s := s.total 11 (s.opp.kwUj / 1000)
  { s with
    fab := { s.fab with xeSat := false, xeNan := false, xeOvf := false, xeFtz := false, xePad := false }
    ing := { s.ing with refused := false, qpError := false, cnpSent := 0, stray := 0 }
    opp := { s.opp with
      kwLimit := false, capEvents := 0, droopEvents := 0, bandHigh := 0, bandLow := 0, kwUj := 0, kwLast := 0, table := [], defaults := true
      pIdle := pIdle, idleMeasured := true, tgtW := pIdle } }

/-- Mailboxes 4 to 11 lose every owner but the job's controller (R746, R772); the claims of clusters end. -/
def State.loadOwners (s : State) : State :=
  (List.range 8).foldl (fun s i =>
    if (s.box (4 + i)).owner = s.job.controller.map Owner.station then s else s.unbindBox (4 + i)) (s.dropClaims fun _ => true)

/-- Every job-load effect, in the order of R772. -/
def State.applyLoad (s : State) (pIdle : Nat) : State :=
  let first := s.job.sched.firstStep
  let s := (s.loadImages.loadClusters first).loadRegs.newTree
  let s : State := { s with step := { expect := first - 1 } }
  let s := ((((s.loadStream).loadWatch).emptySlots).failWindows (fun _ => true) false).loadOwners
  (s.loadPower pIdle).publishAll (first - 1)

/-- JOB_LOAD (R772): the preconditions, the point, and the effects; poison leads back to NONE. -/
def State.jobLoad (s : State) (pIdle : Nat) (b : List Byte) : State × Answer :=
  if s.job.state ≠ .none ∧ s.job.state ≠ .staging then (s, badState 2)
  else if s.present.length ≠ 256 then (s, badState 8)
  else match (s.loadChecks b).find? fun c => !c.2 with
    | some c => (s, badField c.1)
    | none =>
      if s.jobPoison b then ({ s with job := {} }, ansFailed 1)
      else (State.applyLoad { s with job := s.jobOf b } pIdle, ansOk [])

/-- JOB_LOAD: `pIdle` is what R661 measures. -/
def execJobLoad (m : Fin 16) (pIdle : W16) (s : State) : Res :=
  .next (s.atPoint m.val 0x0203 fun s b => s.jobLoad pIdle.toNat b)

/-! ### Start and stop -/

/-- The job start barrier is entered; it opens step `n` (R374, R774). The device runs a job from here on (R766), and its target follows
(R676). -/
def State.enterStart (s : State) (n : Nat) : State :=
  let s : State := { s with
    job := { s.job with state := .running, started := true }
    step := { s.step with phase := 6, posted := false, opens := some n, starting := true, waitSince := s.now, arrived := []
                          windowOpen := false, faultPending := false, failing := false, stopReceived := false }
    opp := { s.opp with tgtW := s.target (s.kindOf n), kwEvent := false } }
  s.startClusters.tryBarrier

/-- A resume (R444): STEP_NUMBER at TARGET, the clusters as after a load, the tree of a new epoch. -/
def State.enterResume (s : State) (n : Nat) : State :=
  let s := (s.loadClusters n).newTree
  State.enterStart { s with
    step := { s.step with number := n - 1, rerunStep := 0, endAfter := none, updateBegun := false }
    ss := { s.ss with stopped := false }
    clk := { s.clk with testing := false } } n

/-- JOB_START (R774). -/
def execJobStart (m : Fin 16) (s : State) : Res :=
  .next (s.atPoint m.val 0x0204 fun s b =>
    let n := leAt b 0 8
    if n = 0 ∧ s.job.state = .loaded then (s.enterStart s.job.sched.firstStep, ansOk [])
    else if s.job.state = .stopped ∧ n = s.ss.committed + 1 then (s.enterResume n, ansOk [])
    else (s, badState 3))

/-- JOB_STOP with END (R775): no step opens after LAST_STEP. -/
def State.stopEnd (s : State) (b : List Byte) : State × Answer :=
  let l := leAt b 8 8
  if !s.live then (s, s.notIn)
  else if l < s.step.number then (s, badState 3)
  else
    let s : State := { s with step := { s.step with
      endAfter := some l, opens := if s.step.phase = 6 ∧ !s.step.posted ∧ l = s.step.number then none else s.step.opens } }
    (s, ansOk (leBytes 8 s.ss.committed))

/-- JOB_STOP_END: every MODE but 1. A reserved MODE is a field at fault. -/
def execJobStopEnd (m : Fin 16) (s : State) : Res :=
  .next (s.atPointWhen m.val 0x0205 (fun b => leAt b 0 1 != 1) fun s b => if 1 < leAt b 0 1 then (s, badField 0) else s.stopEnd b)

/-- JOB_STOP_ABORT (R438, R775): MODE 1. -/
def execJobStopAbort (m : Fin 16) (s : State) : Res :=
  .next (s.atPointWhen m.val 0x0205 (fun b => leAt b 0 1 == 1) fun s _ =>
    if !s.live then (s, s.notIn)
    else
      let s := s.stopJob
      (s, ansOk (leBytes 8 s.ss.committed)))

/-- JOB_PAUSE (R776). -/
def execJobPause (m : Fin 16) (s : State) : Res :=
  .next (s.atPoint m.val 0x0206 fun s _ => if s.job.state = .running then (s.pauseJob, ansOk []) else (s, s.notIn))

/-- JOB_RESUME (R776). -/
def execJobResume (m : Fin 16) (s : State) : Res :=
  .next (s.atPoint m.val 0x0207 fun s _ =>
    if s.job.state = .paused ∨ s.job.state = .halted then (s.resumeJob, ansOk []) else (s, s.notIn))

/-- Every present cluster returns to the state of R257 (R776); its scalar cache is written back. -/
def State.clearClusters (s : State) : State :=
  s.present.foldl (fun s c => (s.flushCache c).modCl c fun k => { fenced := k.fenced, gens := k.gens }) s

/-- JOB_UNLOAD (R776, R828): a twin binding survives; the point is a mapping point. -/
def State.jobUnload (s : State) : State × Answer :=
  if s.job.state = .staging ∨ s.job.state = .loaded ∨ s.job.state = .stopped ∨ s.job.state = .ended then
    let s := (s.clearClusters.dropPosts).abortOps
    (State.mapSpares { s with
      job := {}
      step := { number := s.step.number, phase := 7 }
      ss := { s.ss with formed := [], unsent := [], sent := [], regions := [], exportOn := false, gen0 := {}, gen1 := {}, stopped := false
                        twinlessRun := false, exportEn := false } }, ansOk [])
  else (s, badState 3)

/-- JOB_UNLOAD. -/
def execJobUnload (m : Fin 16) (s : State) : Res := .next (s.atPoint m.val 0x0208 fun s _ => s.jobUnload)

/-! ### Regulators and status -/

/-- REGULATOR_SET (R769): on every stack; a reserved value is a field at fault. -/
def execRegulatorSet (m : Fin 16) (s : State) : Res :=
  .next (s.atPoint m.val 0x0209 fun s b =>
    let p := leAt b 0 1
    if 16 ≤ p then (s, badField 0)
    else if (faultBit partCfgFields (leAt b 8 8)).isSome then (s, badField 8)
    else if (faultBit classMapFields (leAt b 0x10 8)).isSome then (s, badField 0x10)
    else ((List.range 12).foldl (fun s k => (s.setPart k p (leAt b 8 8)).setClassMap k (leAt b 0x10 8)) s, ansOk []))

/-- JOB_STATUS (R769). -/
def execJobStatus (m : Fin 16) (s : State) : Res :=
  .next (s.readAt m.val 0x020A fun s _ => ansOk (leBytes 1 s.job.state.code ++ leBytes 1 s.step.verdict ++ leBytes 2 s.job.tag ++
    leBytes 4 s.job.rank ++ s.regsBytes [.stepNumber, .committedStep, .ackedStep]))

/-- REGULATOR_READ (R769). -/
def execRegulatorRead (m : Fin 16) (s : State) : Res :=
  .next (s.readAt m.val 0x020B fun s b =>
    let k := leAt b 0 1
    if 12 ≤ k then badField 0
    else ansOk (s.regsBytes (.classMap k :: (List.range 16).flatMap fun p => [.partCfg k p, .partStat k p])))

end Sys2Proof.Machine
end

