-- ==== Sys2Proof/Machine/StepCmds.lean ====
section
/-!
DEFINITION. The commands of identity and status (spec/20_commands.md R767, R768), of steps and clusters (R777, R778), of power and
temperature (R779 to R781), and of telemetry (R791, R792).
-/
namespace Sys2Proof.Machine

/-! ### Identity and status -/

/-- The identity record (R768). -/
def State.identity (s : State) : List Byte :=
  let die (p : Nat → Bool) : Nat := (s.present.filter p).length
  leBytes 8 Config.deviceId.toNat ++ ascii [0x4B, 0x54, 0x39, 0x2D, 0x37, 0x36, 0x38, 0x00] ++ leBytes 1 0xB0 ++
    leBytes 1 (die fun c => decide (c < 128)) ++ leBytes 1 (die fun c => decide (128 ≤ c)) ++
    leBytes 1 (b2n s.therm.tripSeen + 2 * b2n s.pwr.ovSeen + 4 * b2n s.boot.lastGasp + 8 * b2n s.dbg.unlocked) ++
    leBytes 4 Config.partCode.toNat ++ ((List.range 8).flatMap fun i => leBytes 2 (Config.vf i).toNat) ++
    leBytes 8 s.memsys.hbmTop ++ leBytes 2 s.memsys.channels.length ++ leBytes 2 0 ++ leBytes 4 s.boot.version ++ leBytes 8 0

/-- IDENTIFY (R767, R768). -/
def execIdentify (m : Fin 16) (s : State) : Res := .next (s.readAt m.val 0x0101 fun s _ => ansOk s.identity)

/-- DEVICE_STATUS (R767). -/
def execDeviceStatus (m : Fin 16) (s : State) : Res :=
  .next (s.readAt m.val 0x0102 fun s _ => ansOk (leBytes 1 s.boot.stage ++ leBytes 1 s.job.state.code ++ leBytes 1 s.opp.effective ++
    leBytes 1 s.ss.twin ++ leBytes 2 s.therm.tj ++ leBytes 2 s.pwr.pkgW ++ s.regsBytes [.stepNumber, .committedStep, .tick] ++
    leBytes 8 s.log.eventSeq ++ leBytes 8 0))

/-! ### Steps and clusters -/

/-- STEP_READ (R777). -/
def execStepRead (m : Fin 16) (s : State) : Res :=
  .next (s.readAt m.val 0x0301 fun s _ => ansOk (s.regsBytes [.stepStatus, .stepNumber, .committedStep, .ackedStep] ++
    leBytes 8 s.step.expect ++ leBytes 8 s.step.u))

/-- WATCH_READ (R777). -/
def execWatchRead (m : Fin 16) (s : State) : Res :=
  .next (s.readAt m.val 0x0302 fun s _ => ansOk (s.regsBytes ((List.range 64).flatMap fun i => [.nwState i, .nwValue i])))

/-- The present logical clusters that a mask names. -/
def State.named (s : State) (mask : Nat) : List Nat := s.present.filter fun c => bitN mask c

/-- CLUSTER_HALT (R777, R778): HALT_REQ of each named cluster; HALTED is filled when the response is written. -/
def execClusterHalt (m : Fin 16) (s : State) : Res :=
  .next (s.atPoint m.val 0x0303 fun s b =>
    if !s.live then (s, s.notIn)
    else ((s.named (leAt b 0 32)).foldl (fun s c => s.modCl c Cluster.haltAsk) s, ansOk (leBytes 32 0)))

/-- CLUSTER_RESUME (R777, R778): RESUME of each named cluster; RESUMED names those that left HALTED. -/
def execClusterResume (m : Fin 16) (s : State) : Res :=
  .next (s.atPoint m.val 0x0304 fun s b =>
    if !s.live then (s, s.notIn)
    else
      let t := (s.named (leAt b 0 32)).foldl (fun s c => s.modCl c Cluster.resume) s
      (t, ansOk (leBytes 32 (clusterMask fun c => decide ((s.cl c).st = .halted ∧ (t.cl c).st ≠ .halted)))))

/-- CLUSTER_READ (R777, R778): s0 to s31 as zeros unless the cluster is HALTED. -/
def execClusterRead (m : Fin 16) (s : State) : Res :=
  .next (s.readAt m.val 0x0305 fun s b =>
    let c := leAt b 0 1
    ansOk (s.regsBytes ((List.range 14).filterMap (csrReg c ·) ++ (List.range 32).map (Reg.sReg c))))

/-! ### Power and temperature -/

/-- The registers of POWER_READ (R779). -/
def powerRegs : List Reg :=
  [.pwrStatus, .pwrCounts, .oppStatus, .oppCfg, .kwCfg, .oppLevels, .oppCounts, .kwEnergy, .relayCfg, .relaySite, .relayStatus, .thermStatus,
    .thermCfg, .coolStatus, .thermCounts, .refStatus, .refCfg, .clkCounts]

/-- POWER_READ (R779). -/
def execPowerRead (m : Fin 16) (s : State) : Res := .next (s.readAt m.val 0x0401 fun s _ => ansOk (s.regsBytes powerRegs))

/-- POWER_TABLE (R779). -/
def execPowerTable (m : Fin 16) (s : State) : Res :=
  .next (s.readAt m.val 0x0402 fun s _ => ansOk (s.regsBytes ((List.range 20).map Reg.pwrTable)))

/-- The registers that POWER_CONFIG writes, by TARGET (R780). -/
def powerTarget : Nat → Option Reg
  | 0 => some .oppCfg | 1 => some .kwCfg | 2 => some .relayCfg | 3 => some .relaySite | 4 => some .thermCfg | 5 => some .refCfg | _ => none

/-- The fields of a register that software configures, for a value `w`. -/
def regFields (r : Reg) (w : Nat) : List CfgField :=
  match r with
  | .oppCfg => oppCfgFields | .kwCfg => kwCfgFields | .relayCfg => relayCfgFields | .relaySite => relaySiteFields
  | .thermCfg => thermCfgFields | .refCfg => refCfgFields w | .partCfg _ _ => partCfgFields | .classMap _ => classMapFields
  | .fabCfg => fabCfgFields | .fabTune => fabTuneFields w
  | .waitLimit _ => [anyField 0 32, resField 32 32]
  | .transBase _ => [{ lo := 0, width := 48, ok := fun v => v % 1024 == 0 }, resField 48 16]
  | _ => []

/-- A configuration register takes a value that passed its checks. -/
def State.putReg (s : State) (r : Reg) (w : Nat) : State :=
  match r with
  | .oppCfg => { s with opp := { s.opp with cfg := w } }
  | .kwCfg => { s with opp := { s.opp with kwCfg := w } }
  | .relayCfg => s.setRelayCfg w
  | .relaySite => s.setRelaySite w
  | .thermCfg => { s with therm := { s.therm with cfg := w } }
  | .refCfg => s.setRefCfg w
  | .partCfg k p => s.setPart k p w
  | .classMap k => s.setClassMap k w
  | .fabCfg => s.setFabCfg w
  | .fabTune => s.setFabTune w
  | .waitLimit c => s.modCl c fun k => { k with waitLimit := w }
  | .transBase c => s.modCl c fun k => { k with transBase := w }
  | _ => s

/-- NEW of R780. -/
def maskedWrite (old mask value : Nat) : Nat := (old &&& (mask ^^^ (2 ^ 64 - 1))) ||| (value &&& mask)

/-- POWER_CONFIG (R780). -/
def execPowerConfig (m : Fin 16) (s : State) : Res :=
  .next (s.atPoint m.val 0x0403 fun s b => match powerTarget (leAt b 0 1) with
    | none => (s, badField 0)
    | some r =>
      let old := s.regVal r
      let w := maskedWrite old (leAt b 8 8) (leAt b 0x10 8)
      match faultBit (regFields r w) w with
      | some bit => (s, badField bit)
      | none => (s.putReg r w, ansOk (leBytes 8 old ++ leBytes 8 w)))

/-- A voltage in mV as the regulator's VOUT_COMMAND takes it, under the exponent that VOUT_MODE gives (R615). -/
def voutWord (mode mv : Nat) : Nat :=
  let e := signed 5 (mode % 32)
  let scaled := if 0 ≤ e then mv else mv * 2 ^ e.natAbs
  let unit := if 0 ≤ e then 1000 * 2 ^ e.natAbs else 1000
  (scaled + unit / 2) / unit

/-- VIN_SET (R781): `readVout` is the regulator's READ_VOUT in mV 10 ms after the write, none where the write fails under R617. -/
def execVinSet (m : Fin 16) (readVout : Option W16) (s : State) : Res :=
  .next (s.atPoint m.val 0x0404 fun s b =>
    let mv := leAt b 0 2
    if mv < 1750 ∨ 1850 < mv then (s, badField 0)
    else if s.pwr.save ≠ .none ∨ s.pwr.alert then (s, badState 4)
    else if s.pmb.lost then (s, ansFailed 1)
    else match readVout with
      | none => (((s.pmbBad 0x21).pmbBad 0x21).pmbBad 0x21, ansFailed 2)
      | some v =>
        let s := s.pmbGood []
        ({ s with pmb := { s.pmb with setpoint := mv, sent := s.pmb.sent ++ [(0x21, voutWord s.pmb.voutMode mv)] } },
          ansOk (leBytes 2 v.toNat ++ leBytes 6 0)))

/-- SLOT_READ (R779). -/
def execSlotRead (m : Fin 16) (s : State) : Res :=
  .next (s.readAt m.val 0x0405 fun s _ => ansOk (s.regsBytes ((List.range 288).map Reg.slotPwr)))

/-- STACK_READ (R779). -/
def execStackRead (m : Fin 16) (s : State) : Res :=
  .next (s.readAt m.val 0x0406 fun s _ =>
    ansOk (s.regsBytes (((List.range 12).flatMap fun k => [.stackStatus k, .stackErrors k]) ++ [.hbmInfo])))

/-! ### Telemetry -/

/-- The totals of COUNTERS (R792) in their order: KW_MJ counts with what this job has used so far, KW_LAST is the register's. -/
def State.counters (s : State) : List Nat :=
  (List.range 14).map fun i =>
    let t := tabGet 0 s.totals (i + 1)
    if i + 1 = 11 then satAdd (2 ^ 64 - 1) t (s.opp.kwUj / 1000) else if i + 1 = 12 then s.opp.kwLast else t

/-- COUNTERS (R791, R792). -/
def execCounters (m : Fin 16) (s : State) : Res :=
  .next (s.readAt m.val 0x0801 fun s _ => ansOk (s.counters.flatMap (leBytes 8 ·)))

/-- The forecast record's bytes (R730). -/
def Forecast.bytes (f : Forecast) : List Byte :=
  leBytes 8 f.tick ++ leBytes 8 f.step ++ leBytes 1 f.flags ++ leBytes 1 0 ++ leBytes 2 f.flow ++ leBytes 2 f.tj ++ leBytes 10 0 ++
    ((List.range 60).flatMap fun i => leBytes 2 (f.w.getD i 0)) ++ leBytes 8 0

/-- FORECAST (R730, R791). -/
def execForecast (m : Fin 16) (s : State) : Res := .next (s.readAt m.val 0x0802 fun s _ => ansOk s.therm.forecast.bytes)

/-- EVENT_MASK (R753, R791). -/
def execEventMask (m : Fin 16) (s : State) : Res :=
  .next (s.atPoint m.val 0x0803 fun s b =>
    if 12 ≤ m.val then (s, badState 9)
    else (s.modBox m.val fun x => { x with mask := leAt b 0 2 }, ansOk (leBytes 2 (s.box m.val).mask ++ leBytes 6 0)))

/-- EVENT_FETCH (R755, R791): a page from START, or from the cursor; the cursor moves past it, and on mailboxes 1 to 11 it is acknowledged. -/
def State.eventFetch (s : State) (m : Nat) (b : List Byte) : State × Answer :=
  if 12 ≤ m then (s, badState 9)
  else
    let x := s.box m
    let start := leAt b 0 8
    let lost := if start = 0 then s.eventsLost x.cursor else 0
    let from_ := if start = 0 then x.cursor + lost else min (start - 1) s.log.eventSeq
    let all := s.eventsPast m from_
    let page := all.take 126
    let last := ((page.getLast?).map (·.seq)).getD from_
    let cur := if start ≠ 0 ∧ page.isEmpty then x.cursor else last
    let s := s.modBox m fun x => { x with cursor := cur, acked := if m = 0 ∨ page.isEmpty then x.acked else max x.acked last }
    (s, (0, 0, decide (126 < all.length), leBytes 8 (last + 1) ++ leBytes 4 page.length ++ leBytes 4 lost ++ page.flatMap EventRec.bytes))

/-- EVENT_FETCH. -/
def execEventFetch (m : Fin 16) (s : State) : Res := .next (s.atPoint m.val 0x0804 fun s b => s.eventFetch m.val b)

end Sys2Proof.Machine
end

