-- ==== Sys2Proof/Machine/StreamCmds.lean ====
section
/-!
DEFINITION. The commands of the state stream and the twin (spec/20_commands.md R782 to R785): binding, restore, snapshot export, rank
update.
-/
namespace Sys2Proof.Machine

/-! ### The binding -/

/-- N_REC of R783. -/
def recordCount (bytes regions : Nat) : Nat := (bytes + 1048575) / 1048576 + regions

/-- TLOG_NEED (R431, R783), rounded up. -/
def tlogNeed (bytes n : Nat) : Nat := 2 * bytes + (bytes + 127) / 128 + 192 * n

/-- TWIN_BIND (R412, R783): the fields, the precondition, and the binding; this device's owned state goes to the twin. -/
def State.twinBind (s : State) (b : List Byte) : State × Answer :=
  let g := leAt b
  let n := recordCount (g 0x10 8) (g 4 4)
  let need := tlogNeed (g 0x10 8) n
  if 2 ^ 18 ≤ g 0 4 then (s, badField 0)
  else if s.memsys.hbmTop ≤ g 8 8 then (s, badField 8)
  else if s.memsys.hbmTop < g 8 8 + g 0x10 8 then (s, badField 0x10)
  else if s.memsys.hbmTop ≤ g 0x18 8 then (s, badField 0x18)
  else if s.memsys.hbmTop < g 0x18 8 + g 0x20 8 ∨ g 0x20 8 < need then (s, badField 0x20)
  else if s.ss.binding.isSome then (s, badState 6)
  else
    let bind : Binding :=
      { base := g 8 8, bytes := g 0x10 8, tlogBase := g 0x18 8, tlogBytes := g 0x20 8, source := g 0 4, tag := g 0x28 2 }
    let s : State := { s with ss := { s.ss with binding := some bind, twinDev := g 0 4, twinlessRun := false } }
    (s.resync s.ss.ended, ansOk (leBytes 8 n ++ leBytes 8 need))

/-- TWIN_BIND. -/
def execTwinBind (m : Fin 16) (s : State) : Res := .next (s.atPoint m.val 0x0501 State.twinBind)

/-- TWIN_UNBIND (R412, R413, R783). -/
def execTwinUnbind (m : Fin 16) (s : State) : Res :=
  .next (s.atPoint m.val 0x0502 fun s _ =>
    if s.ss.restoring ∨ s.ss.twin = 2 then (s, badState 10)
    else if s.ss.binding.isNone then (s, badState 7)
    else
      let s := State.event { s with ss := { s.ss with binding := none, twin := 0 } } 7 1 0 s.ss.twinDev
      (s.runTwinless, ansOk []))

/-! ### Restore -/

/-- Bytes of the backup space enter the owned regions at their BOFFSET (R415, R441). -/
def State.putBackup (s : State) (boff : Nat) (bs : List Byte) : State :=
  s.ss.regions.foldl (fun s r =>
    let lo := max boff r.boff
    let hi := min (boff + bs.length) (r.boff + r.bytes)
    if lo < hi then s.store (r.addr + (lo - r.boff)) (Sys2Proof.Machine.slice bs (lo - boff) (hi - lo)) false stateCls else s) s

/-- The records that SOURCE streams: of each the digest is checked (R441, R442). Kept are the ranges that were taken and the offsets of
the mismatches. -/
def State.takeRestore (s : State) (rs : List Record) : State × List (Nat × Nat) × List Nat :=
  rs.foldl (fun acc r =>
    let (s, got, bad) := acc
    let bs := decodeSectors r.length r.payload
    if rangeDigest r.shard r.region r.offset bs = r.newDig then (State.putBackup s r.boff bs, got ++ [(r.boff, r.length)], bad)
    else (s, got, r.boff :: bad)) (s, [], [])

/-- How far the ranges cover the backup space from its start on. -/
def reach (got : List (Nat × Nat)) : Nat :=
  let pass (p : Nat) : Nat := got.foldl (fun p x => if x.1 ≤ p then max p (x.1 + x.2) else p) p
  got.foldl (fun p _ => pass p) 0

/-- The latest step up to `n` whose kind has UPDATE (R369). -/
def State.updateUpTo (s : State) (n : Nat) : Nat :=
  let first := s.job.sched.firstStep
  (((List.range 64).map fun i => n - i).find? fun k =>
    decide (first ≤ k) && bitN (s.kindRec (s.kindOf k)).mask 3).getD (first - 1)

/-- Steps 4 and 5 of R441 on the replacement: republication, u, the step, and the resync to its own twin. -/
def State.restored (s : State) (target u : Nat) : State :=
  let v := if u = 0 then s.job.sched.firstStep - 1 else s.updateUpTo target
  let s := s.publishAll v
  let s : State := { s with
    job := { s.job with state := .stopped }
    step := { s.step with number := target, u := u, updated := if u = 0 then [] else [v] }
    ss := { s.ss with committed := target, acked := target, ended := target } }
  (s.resync target).event 7 3 0 target

/-- RESTORE (R441, R442, R784). `reply` is what SOURCE answers: 0 it accepts, 1 it refuses, none where it cannot be reached; `records`
are the FULL records that it streams. -/
def State.restore (s : State) (reply : Option Nat) (records : List Record) (b : List Byte) : State × Answer :=
  if 2 ^ 18 ≤ leAt b 0 4 then (s, badField 0)
  else if 2 ^ 18 ≤ leAt b 4 4 then (s, badField 4)
  else if s.job.state ≠ .loaded then (s, badState 3)
  else if s.ss.binding.isNone then (s, badState 7)
  else match reply with
    | none => (s, ansFailed 3)
    | some 0 =>
      let (s, got, bad) := s.takeRestore records
      if bad.any fun o => decide (2 ≤ bad.count o) then (s, ansFailed 2)
      else if reach got < s.ownedBytes then (s, ansFailed 3)
      else (s.restored (leAt b 8 8) (leAt b 0x10 8), ansOk (leBytes 8 s.ownedBytes ++ leBytes 8 0))
    | some _ => (s, ansFailed 1)

/-- RESTORE. -/
def execRestore (m : Fin 16) (reply : Option Nat) (records : List Record) (s : State) : Res :=
  .next (s.atPoint m.val 0x0503 fun s b => s.restore reply records b)

/-! ### Snapshot, ranks, status -/

/-- EXPORT_SET (R446, R785): the change takes effect at the next step opening. -/
def execExportSet (m : Fin 16) (s : State) : Res :=
  .next (s.atPoint m.val 0x0504 fun s b =>
    if 1 < leAt b 0 1 then (s, badField 0)
    else if !s.ss.exportEn then (s, badState 11)
    else ({ s with step := { s.step with exportChange := some (leAt b 0 1 == 1) } }, ansOk []))

/-- Translation entry `i` of the job with the device replaced (R283, R785). -/
def State.renameEntry (s : State) (i old new : Nat) : State :=
  let a := s.job.transBase + 16 * i
  let w := leAt (s.bytes a 16) 0 16
  if fld w 121 104 = old then
    s.store a (leBytes 16 (w - old * 2 ^ 104 + new * 2 ^ 104)) false 0
  else s

/-- RANK_UPDATE (R284, R785): the rank table, the translation entries that named the old device, and their reread in every cluster. -/
def State.rankUpdate (s : State) (b : List Byte) : State × Answer :=
  let rank := leAt b 0 4
  let dev := leAt b 4 4
  if 2 ^ 18 ≤ dev then (s, badField 4)
  else if s.job.state ≠ .stopped then (s, s.notIn)
  else if s.job.ranks.length ≤ rank then (s, badField 0)
  else
    let old := s.job.ranks.getD rank 0
    let hits := (List.range 63).filter fun i => decide (fld (leAt (s.bytes (s.job.transBase + 16 * (i + 1)) 16) 0 16) 121 104 = old)
    let s := s.store (s.job.rankAddr + 4 * rank) (leBytes 4 dev) false 0
    let s : State := { s with job := { s.job with ranks := s.job.ranks.set rank dev } }
    let s := (List.range 63).foldl (fun s i => s.renameEntry (i + 1) old dev) s
    (s.present.foldl (fun s c => s.modCl c fun k => { k with transInv := true }) s, ansOk (leBytes 4 hits.length ++ leBytes 4 0))

/-- RANK_UPDATE. -/
def execRankUpdate (m : Fin 16) (s : State) : Res := .next (s.atPoint m.val 0x0505 State.rankUpdate)

/-- STREAM_READ (R782). -/
def execStreamRead (m : Fin 16) (s : State) : Res :=
  .next (s.readAt m.val 0x0506 fun s _ => ansOk (s.regsBytes [.ssStatus, .committedStep, .ackedStep, .unsentBytes, .ssCounts] ++
    leBytes 4 s.ss.twinDev ++ leBytes 4 0 ++ leBytes 8 s.ownedBytes))

end Sys2Proof.Machine
end

