-- ==== Sys2Proof/Machine/RasCmds.lean ====
section
/-!
DEFINITION. The reliability commands (spec/20_commands.md R786 to R788) and the rows of spec/22_reliability.md: logic checks (R832, R834),
fence bits (R759), the repair record (R840), built-in self-test (R841 to R843), the record rate (R846).
-/
namespace Sys2Proof.Machine

/-! ### Paged reads -/

/-- A page of R764: START, the entries of which it shows at most `n`, and how they are numbered and laid out. -/
def pageOf {α : Type} (n start : Nat) (all : List α) (key : α → Nat) (lay : α → List Byte) : Answer :=
  let page := all.take n
  let next := (page.getLast?).elim start fun x => key x + 1
  (0, 0, decide (n < all.length), leBytes 8 next ++ leBytes 4 page.length ++ leBytes 4 0 ++ page.flatMap lay)

/-- An entry of the unit state table (R757). -/
def State.unitBytes (s : State) (u : Nat) : List Byte :=
  let e := s.unit u
  leBytes 4 u ++ leBytes 1 e.state.code ++ leBytes 1 (b2n e.pending) ++ leBytes 2 e.logical ++ leBytes 8 e.since

/-- UNIT_READ (R786). -/
def execUnitRead (m : Fin 16) (s : State) : Res :=
  .next (s.readAt m.val 0x0601 fun s b =>
    let start := leAt b 0 8
    pageOf 254 start (allUnits.filter fun u => decide (start ≤ u)) id s.unitBytes)

/-- ERROR_READ (R786, R846). -/
def execErrorRead (m : Fin 16) (s : State) : Res :=
  .next (s.readAt m.val 0x0604 fun s b =>
    let start := leAt b 0 8
    pageOf 63 start ((s.log.errs.filter fun r => decide (start ≤ r.seq)).reverse) (·.seq) ErrRec.bytes)

/-- LAST_GASP_READ (R786, R808): the archive. -/
def execLastGaspRead (m : Fin 16) (s : State) : Res :=
  .next (s.readAt m.val 0x0605 fun s b =>
    let start := leAt b 0 8
    let n := min 4064 (65536 - start)
    (0, 0, decide (start + n < 65536),
      leBytes 8 (start + n) ++ leBytes 4 n ++ leBytes 4 0 ++ s.flashBytes (gaspArchive + start) n))

/-! ### Unit state -/

/-- A unit goes to ACTIVE once its bring-up passed (R758, R787): a slot is ON; a lane's link is UP. -/
def State.bringUp (s : State) (u : Nat) : State :=
  let s := if unitClass u = 1 then s.wakeDom (unitIndex u) else s
  let s := s.unitJoin u
  match laneOfUnit u with
  | some l => ((s.setLane l { s.lane l with state := .up, fenced := false, miscabled := false, misTimes := [], test := false }).event 5 2 u 0).pumpAll
  | none => s

/-- A bring-up that failed (R787): the entry stays FENCED. A lane goes on retrying (R536). -/
def State.bringUpFails (s : State) (u : Nat) : State :=
  let s := if (s.unit u).state = .fenced then s else s.unitTo u .fenced
  match laneOfUnit u with
  | some l => s.setLane l { s.lane l with state := .down, fenced := false, downAt := s.now }
  | none => s

/-- A slot that becomes SPARE carries no logical cluster (R757). -/
def State.makeSpare (s : State) (u : Nat) : State :=
  let s := s.unitLeave u .spare
  if unitClass u = 1 then s.setUnit u { s.unit u with logical := 0xFFFF } else s

/-- UNIT_SET (R787): `up` says whether a bring-up passes. -/
def State.unitSet (s : State) (up : Bool) (b : List Byte) : State × Answer :=
  let u := leAt b 0 4
  let cls := unitClass u
  let e := s.unit u
  let done (s : State) : State × Answer := (s, ansOk (s.unitBytes u))
  if !unitExists u then (s, badField 0)
  else match unitStateOf (leAt b 4 1) with
    | none => (s, badField 4)
    | some .fenced => (s, badField 4)
    | some st =>
      if (cls = 1 ∨ cls = 3) ∧ (s.live ∨ s.job.state = .loaded) then (s, badState 3)
      else if e.state = .retired then (s, badState 5)
      else if cls = 2 then
        done (match st with
          | .active => if e.state = .active then s else s.setUnit u { e with pending := true }
          | .retired => s.retireUnit u 0xFF
          | _ => s.setUnit u { e with pending := true })
      else match st with
        | .active => if e.state = .active then done s else if up then done (s.bringUp u) else (s.bringUpFails u, ansFailed 2)
        | .retired => done (s.retireUnit u 0xFF)
        | .spare => done (if e.state = .spare then s else s.makeSpare u)
        | _ => done (if e.state = .test then s else s.unitLeave u .test)

/-- UNIT_SET. -/
def execUnitSet (m : Fin 16) (bringUp : Bool) (s : State) : Res :=
  .next (s.atPoint m.val 0x0602 fun s b => s.unitSet bringUp b)

/-! ### Built-in self-test -/

/-- The answer of a test (R786). -/
def bistAnswer (misr expected result : Nat) : Answer := ansOk (leBytes 8 misr ++ leBytes 8 expected ++ leBytes 1 result ++ leBytes 7 0)

/-- A failing test (R843, R847). -/
def State.bistFails (s : State) (u misr expected act : Nat) : State :=
  s.err 0x0B 2 { sev := 2, act := act, permanent := decide (act = 4), unit := u, i0 := misr, i1 := expected }

/-- The event of a test that passed in its second run (R830, R843): of a slot event 2, of a cache way event 9. -/
def State.bistEvent (s : State) (u row : Nat) : State :=
  if unitClass u = 1 then
    let (s, perm) := s.history u 2
    if perm then s.retireUnit u 2 else s
  else
    let array := 2 * 2 ^ 28 + unitIndex u
    let (s, perm) := s.history array 9
    if perm then s.repairEntry array row 9 else s

/-- The local store of a slot that was tested is zero with valid check bits (R843). -/
def State.zeroStore (s : State) (u : Nat) : State :=
  let c := (s.unit u).logical
  let a := lsBase c
  if c < 256 then
    { s with mem := s.mem.filter fun e => !decide (a ≤ e.1 ∧ e.1 < a + 0x200000)
             poison := s.poison.filter fun e => !decide (a ≤ e.1 ∧ e.1 < a + 0x200000) }
  else s

/-- BIST_RUN of a slot or way (R788, R841 to R843): the signatures of the first run and, where it fails, of the second. -/
def State.bist (s : State) (kind cls m1 m2 row : Nat) (b : List Byte) : State × Answer :=
  let u := leAt b 4 4
  let want := (Config.signature kind).toNat
  if unitClass u ≠ cls ∨ !unitExists u then (s, badField 4)
  else if (s.unit u).state ≠ .test then (s, badState 5)
  else
    let s := if kind = 2 then s.zeroStore u else s
    if m1 = want then (s, bistAnswer m1 want 0)
    else
      let s := s.bistFails u m1 want 2
      if m2 = want then (s.bistEvent u row, bistAnswer m2 want 0)
      else ((s.bistFails u m2 want 4).retireUnit u (if cls = 1 then 2 else 9), bistAnswer m2 want 1)

/-- KIND of BIST_RUN. -/
def bistKind (b : List Byte) : Nat := leAt b 0 1

/-- BIST_LOGIC (R788, R841). -/
def execBistLogic (m : Fin 16) (misr1 misr2 : W64) (s : State) : Res :=
  .next (s.atPointWhen m.val 0x0603 (fun b => bistKind b == 1) fun s b => s.bist 1 1 misr1.toNat misr2.toNat 0 b)

/-- BIST_MEMORY_SLOT (R788, R842). -/
def execBistMemorySlot (m : Fin 16) (misr1 misr2 : W64) (s : State) : Res :=
  .next (s.atPointWhen m.val 0x0603 (fun b => bistKind b == 2) fun s b => s.bist 2 1 misr1.toNat misr2.toNat 0 b)

/-- BIST_MEMORY_WAY (R788, R842): `row` is the row that failed in the first run. -/
def execBistMemoryWay (m : Fin 16) (misr1 misr2 : W64) (row : W16) (s : State) : Res :=
  .next (s.atPointWhen m.val 0x0603 (fun b => bistKind b == 3) fun s b => s.bist 3 3 misr1.toNat misr2.toNat row.toNat b)

/-- BIST_REFERENCE_TEST (R703, R788): KIND 4; a KIND of no test is a field at fault. -/
def execBistReferenceTest (m : Fin 16) (a b f : TestResult) (s : State) : Res :=
  .next (s.atPointWhen m.val 0x0603 (fun q => bistKind q == 0 || decide (4 ≤ bistKind q)) fun s q =>
    if bistKind q ≠ 4 then (s, badField 0)
    else if leAt q 4 4 ≠ 0 then (s, badField 4)
    else if s.live then (s, badState 3)
    else
      let s := s.testSources a b f
      (s, bistAnswer 0 0 ((List.range 3).map fun i => if (s.clk.src i).state = .failed then 2 ^ i else 0).sum))

/-! ### Checks and fence bits -/

/-- LOGIC_CHECK (R832, R834): the slot's fence bit, the record, event 2, a device fault. A transient event whose slot then passes logic
BIST under RERUN lets the slot return; a BIST that fails is a second event. Otherwise a job stops. -/
def execLogicCheck (c : BitVec 8) (check : W32) (bist : Bool) (s : State) : Res :=
  .next (match s.slotOf c.toNat with
    | none => s
    | some k =>
      if !s.clocked || !s.boot.nganor || (s.cl c.toNat).fenced then s
      else
        let u := unitId 1 k
        let pc := (s.cl c.toNat).pc
        let s := s.setFence u
        let (s, perm) := s.history u 2
        let s := s.devFault 1 6 { permanent := perm, cluster := c.toNat, unit := u, i0 := check.toNat, i1 := pc }
        let stop (s : State) : State := if s.jobRuns then { s with step := { s.step with failing := true } } else s
        if perm then stop (s.retireUnit u 2)
        else
          let s := s.unitLeave u .fenced
          if decide (s.job.sched.policy ≠ 1) || !s.jobRuns then stop s
          else if bist then s.unitJoin u
          else
            let (s, again) := s.history u 2
            stop (if again then s.retireUnit u 2 else s))

/-- HARDWARE_FENCE (R759): a disagreement between a fence bit and the table. A bit that hardware set on an ACTIVE unit makes the entry
FENCED, of a pseudo-channel PENDING; a bit found clear is set again. A fenced slot of a job acts as STOP (R834). -/
def execHardwareFence (unit : W32) (set : Bool) (s : State) : Res :=
  let u := unit.toNat
  let e := s.unit u
  .next (if !s.nganorUp || !unitExists u || decide (set = true ↔ e.state ≠ .active) then s
    else
      let s := s.err 0x0B 9 { sev := 2, act := 3, unit := u, i0 := e.state.code, i1 := b2n set }
      if !set then s.setFence u
      else if unitClass u = 2 then s.setUnit u { e with pending := true }
      else
        let s := s.unitLeave u .fenced
        if decide (unitClass u = 1 ∧ e.logical < 256) && s.jobRuns then { s with step := { s.step with failing := true } } else s)

/-! ### The repair record and the rings -/

/-- REPAIR_RECORD_WRITE (R840): after a decision, every 60 minutes and at ANNOUNCED, the copy that does not govern is erased and programmed
under the journal, and then governs. `ok` is false where the verification failed twice. -/
def execRepairRecordWrite (ok : Bool) (s : State) : Res :=
  let r := s.ras
  let copy := if r.fresh && r.gen == 0 then 0 else 1 - r.copy
  let a := repCopy copy
  .next (if !s.nganorUp || !(r.dirty || decide (r.writtenAt + 60 ≤ r.serviceMin)) then s
    else
      let s := s.eraseJ a 262144
      if ok then
        let s := s.writeJ a (r.bytes (r.gen + 1))
        { s with ras := { s.ras with gen := (r.gen + 1) % 2 ^ 32, copy := copy, dirty := false, writtenAt := r.serviceMin } }
      else
        State.err { s with ras := { s.ras with writeFail := true, dirty := false, writtenAt := r.serviceMin } } 0x0B 7
          { sev := 2, i0 := copy, i1 := a })

/-- ERROR_RATE_WINDOW (R846): after a second in which records were dropped the first record is RING_DROP. -/
def execErrorRateWindow (s : State) : Res :=
  .next (if s.log.droppedNow = 0 then s
    else State.err { s with log := { s.log with inSecond := 0, droppedNow := 0 } } 0x0B 8 { sev := 0, act := 1, i0 := s.log.droppedNow })

end Sys2Proof.Machine
end

