-- ==== Sys2Proof/Machine/FwCmds.lean ====
section
/-!
DEFINITION. The commands of firmware and security (spec/20_commands.md R789, R790) and of the fabric (R793, R794).
-/
namespace Sys2Proof.Machine

/-! ### Firmware -/

/-- The slot that FW_WRITE writes (R790, R804): the one that does not run; where no slot runs, the one that the boot header does not
select. -/
def State.freeSlot (s : State) : Nat := 1 - if s.boot.stage = 6 ∨ s.boot.source = 1 then s.bootSlot else s.boot.slot

/-- VERSION in the header of a slot's image (R809). -/
def State.slotVersion (s : State) (k : Nat) : List Byte := s.flashBytes (fwSlot k + 8) 4

/-- FW_INFO (R789). -/
def execFwInfo (m : Fin 16) (s : State) : Res :=
  .next (s.readAt m.val 0x0701 fun s _ => ansOk (leBytes 4 s.boot.version ++ leBytes 1 s.boot.slot ++ leBytes 1 s.bootSlot ++ leBytes 2 0 ++
    s.slotVersion 0 ++ s.slotVersion 1 ++ leBytes 4 s.boot.rollback ++ leBytes 4 0))

/-- FW_WRITE (R789, R790, R807): the slot's 64 KiB blocks that the image grows into are erased, and the data is accepted; it is
programmed when the command ends. -/
def State.fwWrite (s : State) (b : List Byte) : State × Answer :=
  let off := leAt b 0 4
  let n := leAt b 4 4
  if off ≠ 0 ∧ s.boot.fwNext ≠ some off then (s, badField 0)
  else if 2 ^ 22 < off + n then (s, badField 4)
  else
    let a := fwSlot s.freeSlot
    let blocks := (List.range 64).filter fun k => decide (off ≤ 65536 * k ∧ 65536 * k < off + n)
    let s := blocks.foldl (fun s k => s.eraseJ (a + 65536 * k) 65536) s
    let s := s.journalAdd 2 (a + off) n
    ({ s with
        boot := { s.boot with fwNext := some (off + n), writing := s.boot.writing ++ [(a + off, (b.drop 8).take n)] }
        pwr := { s.pwr with flashBusy := true } }, ansOk [])

/-- FW_WRITE. -/
def execFwWrite (m : Fin 16) (s : State) : Res := .next (s.atPoint m.val 0x0702 State.fwWrite)

/-- FW_ACTIVATE (R790, R806, R810): the image of LENGTH bytes verifies, and the copy of the boot header that does not govern selects it. -/
def State.fwActivate (s : State) (b : List Byte) : State × Answer :=
  let n := leAt b 0 4
  let k := s.freeSlot
  if 2 ^ 22 < n then (s, badField 0)
  else if !imageOk s.boot.rollback (s.flashBytes (fwSlot k) n) then (s, ansDenied)
  else
    let old := s.bootCopy
    let copy := old.elim 0 fun c => 1 - c
    let gen := old.elim 0 s.bootGen + 1
    ((s.eraseJ (0x10000 * copy) 65536).writeJ (0x10000 * copy) (bootHdr gen k), ansOk [])

/-- FW_ACTIVATE. -/
def execFwActivate (m : Fin 16) (s : State) : Res := .next (s.atPoint m.val 0x0703 State.fwActivate)

/-- REBOOT (R790): the reset follows the response. -/
def execReboot (m : Fin 16) (s : State) : Res :=
  .next (s.atPoint m.val 0x0704 fun s _ =>
    if s.job.state = .none ∨ s.job.state = .stopped ∨ s.job.state = .ended then (s, ansOk []) else (s, badState 3))

/-- DEBUG_CHALLENGE (R789, R812, R814). -/
def execDebugChallenge (m : Fin 16) (s : State) : Res :=
  .next (s.atPoint m.val 0x0705 fun s _ => match s.challenge with
    | some (t, b) => (t, ansOk b)
    | none => (s, ansDenied))

/-- DEBUG_RESPONSE (R789, R790, R813). -/
def execDebugResponse (m : Fin 16) (s : State) : Res :=
  .next (s.atPoint m.val 0x0706 fun s b =>
    let r := s.answerChallenge ((b.drop 8).take (leAt b 0 4))
    (r.1, if r.2 then ansOk [] else ansDenied))

/-! ### The fabric -/

/-- FABRIC_CONFIG (R553, R575, R793). -/
def execFabricConfig (m : Fin 16) (s : State) : Res :=
  .next (s.atPoint m.val 0x0901 fun s b =>
    let cfg := leAt b 0 8
    let tune := leAt b 8 8
    if (faultBit fabCfgFields cfg).isSome then (s, badField 0)
    else if (faultBit (fabTuneFields tune) tune).isSome then (s, badField 8)
    else if 2 ^ 17 ≤ leAt b 0x10 4 then (s, badField 0x10)
    else if 2 ^ 17 ≤ leAt b 0x14 4 then (s, badField 0x14)
    else if s.job.state ≠ .none then (s, badState 2)
    else (((s.setFabCfg cfg).setFabTune tune).startTick (leAt b 0x10 4) (leAt b 0x14 4), ansOk []))

/-- FABRIC_READ (R793). -/
def execFabricRead (m : Fin 16) (s : State) : Res :=
  .next (s.readAt m.val 0x0902 fun s _ => ansOk (s.regsBytes
    ([.fabCfg, .fabTune, .xeStatus, .ilCounts, .ilDiscards, .huddleStatus, .tickStatus, .tick] ++ (List.range 144).map Reg.laneStatus)))

/-- LANE_SET (R536, R793): OUT takes a lane out of service; IN takes an OUT lane to DOWN, from which it relinks, unless its entry keeps it
out (R833). -/
def State.laneSet (s : State) (b : List Byte) : State × Answer :=
  let l := leAt b 0 1
  let x := s.lane l
  let done (s : State) : State × Answer := (s, ansOk (leBytes 1 (s.lane l).state.code ++ leBytes 7 0))
  if 144 ≤ l then (s, badField 0)
  else if 1 < leAt b 1 1 then (s, badField 1)
  else if x.state = .retired then (s, badState 5)
  else if leAt b 1 1 = 0 then
    done (if x.state = .up then s.leaveUp l .out false else s.setLane l { x with state := .out, test := false })
  else done (if x.state = .out ∧ !x.fenced then s.setLane l { x with state := .down, downAt := s.now } else s)

/-- LANE_SET_OUT: every ACTION but 1. -/
def execLaneSetOut (m : Fin 16) (s : State) : Res :=
  .next (s.atPointWhen m.val 0x0903 (fun b => leAt b 1 1 != 1) State.laneSet)

/-- LANE_SET_IN: ACTION 1. -/
def execLaneSetIn (m : Fin 16) (s : State) : Res := .next (s.atPointWhen m.val 0x0903 (fun b => leAt b 1 1 == 1) State.laneSet)

/-- The queue pair that a QP_SET body spells (R593, R794). -/
def qpOf (b : List Byte) : Qp :=
  { plane := leAt b 2 1, dscp := leAt b 3 1, localIp := beAt b 8 4, remoteIp := beAt b 12 4, remoteMac := beAt b 16 6, remoteQpn := leAt b 24 4
    sqPsn := leAt b 28 4, rqPsn := leAt b 32 4, ackTimeout := leAt b 36 1, retry := leAt b 37 1, rnrRetry := leAt b 38 1
    tries := leAt b 37 1, rnrTries := leAt b 38 1 }

/-- The offset of the first attribute at fault (R593): `attrs` says that the attributes beside the PSNs count. -/
def State.qpFault (s : State) (b : List Byte) (attrs psns : Bool) : Option Nat :=
  let q := qpOf b
  let lane := (s.lane q.plane).state
  let bad : List (Nat × Bool) :=
    [(0, decide (3 < leAt b 0 1)), (2, attrs && decide (128 ≤ q.plane ∨ (lane ≠ .up ∧ lane ≠ .down))), (3, attrs && decide (64 ≤ q.dscp)),
     (4, decide (leAt b 4 4 < 0x100 ∨ 0x1FF < leAt b 4 4)), (24, attrs && decide (2 ^ 24 ≤ q.remoteQpn)),
     (28, psns && decide (2 ^ 24 ≤ q.sqPsn)), (32, psns && decide (2 ^ 24 ≤ q.rqPsn)),
     (36, attrs && decide (q.ackTimeout < 8 ∨ 18 < q.ackTimeout)), (37, attrs && decide (7 < q.retry)), (38, attrs && decide (7 < q.rnrRetry))]
  (bad.find? (·.2)).map (·.1)

/-- A QP_SET (R794): the attributes, then JOB_STATE, then whether QPN suits the action. -/
def State.qpSet (s : State) (b : List Byte) (attrs psns : Bool) (suits : Option Qp → Bool) (f : State → Nat → State) : State × Answer :=
  let n := leAt b 4 4
  match s.qpFault b attrs psns with
  | some d => (s, badField d)
  | none =>
    if s.live then (s, badState 3)
    else if !suits (tabFind s.ing.qps n) then (s, badField 4)
    else (f s n, ansOk [])

/-- Put or remove a queue pair. -/
def State.putQp (s : State) (n : Nat) (q : Option Qp) : State :=
  { s with ing := { s.ing with qps := match q with
      | some q => tabSet s.ing.qps n q
      | none => tabDel s.ing.qps n } }

/-- ACTION of QP_SET. -/
def qpAction (b : List Byte) : Nat := leAt b 0 1

/-- QP_CREATE (R793, R794): ACTION 0, and the values that name no action. -/
def execQpCreate (m : Fin 16) (s : State) : Res :=
  .next (s.atPointWhen m.val 0x0904 (fun b => qpAction b == 0 || decide (3 < qpAction b)) fun s b =>
    s.qpSet b true true Option.isNone fun s n => s.putQp n (some (qpOf b)))

/-- QP_MODIFY (R598, R794): every attribute is replaced, and the pair leaves the error state. -/
def execQpModify (m : Fin 16) (s : State) : Res :=
  .next (s.atPointWhen m.val 0x0904 (fun b => qpAction b == 1) fun s b =>
    s.qpSet b true true Option.isSome fun s n => s.putQp n (some (qpOf b)))

/-- QP_DESTROY (R794). -/
def execQpDestroy (m : Fin 16) (s : State) : Res :=
  .next (s.atPointWhen m.val 0x0904 (fun b => qpAction b == 2) fun s b =>
    s.qpSet b false false Option.isSome fun s n => s.putQp n none)

/-- QP_RESET (R598, R794): READY with the given PSNs. -/
def execQpReset (m : Fin 16) (s : State) : Res :=
  .next (s.atPointWhen m.val 0x0904 (fun b => qpAction b == 3) fun s b =>
    s.qpSet b false true (fun q => q.any fun q => decide (q.state = .error)) fun s n =>
      s.putQp n ((tabFind s.ing.qps n).map fun q =>
        { q with state := .ready, sqPsn := leAt b 28 4, rqPsn := leAt b 32 4, out := [], recvUsed := 0, write := none
                 tries := q.retry, rnrTries := q.rnrRetry }))

/-- An entry of QP_READ (R793). -/
def qpEntry (n : Nat) (q : Qp) : List Byte :=
  leBytes 4 n ++ leBytes 1 (if q.state = .ready then 1 else 2) ++ leBytes 1 q.plane ++ leBytes 2 0 ++ leBytes 4 q.sqPsn ++ leBytes 4 q.rqPsn

/-- QP_READ (R793). -/
def execQpRead (m : Fin 16) (s : State) : Res :=
  .next (s.readAt m.val 0x0905 fun s b =>
    let start := leAt b 0 8
    pageOf 254 start (s.ing.qps.filter fun q => decide (start ≤ q.1)) (·.1) fun q => qpEntry q.1 q.2)

end Sys2Proof.Machine
end

