-- ==== Sys2Proof/Machine/Access.lean ====
section
/-!
DEFINITION. Accesses to the device address map: reads and writes of registers by programs and by Nganor (R16 to R22, R306, R307, R376, R490,
R552, R553, R587, R606, R651, R686, R715, R734, R756, R824, R850, R880), and the scalar loads and stores (R330 to R332, R452, R739).
-/
namespace Sys2Proof.Machine

/-- The state that a meaning leaves. -/
def stateOf (r : Res) (s : State) : State :=
  match r with
  | .next t => t
  | _ => s

/-- The bits of a register that an access of `n` bytes at `a` covers (R880). -/
def accMask (a n : Nat) : Nat := (2 ^ (8 * n) - 1) * 2 ^ (8 * (a % 8))

/-- A value of `n` bytes written at `a`, at its place in the register. -/
def accWord (a n v : Nat) : Nat := v % 2 ^ (8 * n) * 2 ^ (8 * (a % 8))

/-- The bytes of a register word that an access of `n` bytes at `a` returns. -/
def accRead (a n w : Nat) : Nat := w / 2 ^ (8 * (a % 8)) % 2 ^ (8 * n)

/-! ### Reads -/

/-- The RC fields of a register that the mask covers whole become zero (R16, R880). -/
def State.clearRc (s : State) (r : Reg) (mask : Nat) : State :=
  let z (lo w v : Nat) : Nat := if fld mask (lo + w - 1) lo = 2 ^ w - 1 then 0 else v
  match r with
  | .podStatus c => s.modCl c fun k => { k with podCount := z 16 16 k.podCount }
  | .stackErrors k => let x := s.stack k; s.setStack k { x with ce := z 0 32 x.ce, ue := z 32 16 x.ue }
  | .sliceStatus k => let x := s.slice k; s.setSlice k { x with ce := z 16 16 x.ce, dirEvict := z 32 16 x.dirEvict }
  | .laneStatus l =>
    let x := s.lane l
    s.setLane l { x with fecUncorr := z 16 16 x.fecUncorr, pauseRx := z 32 16 x.pauseRx, misplane := z 48 16 x.misplane }
  | .ilCounts => { s with fab := { s.fab with
      retxCnt := z 0 32 s.fab.retxCnt, giveup := z 32 16 s.fab.giveup, rnrCnt := z 48 16 s.fab.rnrCnt } }
  | .ilDiscards => { s with fab := { s.fab with
      ctxFull := z 0 16 s.fab.ctxFull, stale := z 16 16 s.fab.stale, other := z 32 16 s.fab.other, denied := z 48 16 s.fab.denied } }
  | .ingestStatus => { s with ing := { s.ing with cnpSent := z 16 16 s.ing.cnpSent, stray := z 32 16 s.ing.stray } }
  | .huddleStatus => { s with hud := { s.hud with resends := z 32 16 s.hud.resends } }
  | .stepCounts => { s with step := { s.step with
      fetchRetry := z 0 16 s.step.fetchRetry, inert := z 16 16 s.step.inert, valueRepair := z 32 16 s.step.valueRepair } }
  | .ssCounts => { s with ss := { s.ss with
      nakNew := z 0 16 s.ss.nakNew, nakOld := z 16 16 s.ss.nakOld, inert := z 32 16 s.ss.inert, twinValue := z 48 16 s.ss.twinValue } }
  | .pwrCounts => { s with pwr := { s.pwr with
      alertCount := z 0 16 s.pwr.alertCount, failGlitch := z 16 16 s.pwr.failGlitch, raiseLate := z 32 16 s.pwr.raiseLate } }
  | .slotPwr k => let d := s.dom k; s.setDom k { d with boosts := z 16 16 d.boosts, stretched := z 32 32 d.stretched }
  | .oppCounts => { s with opp := { s.opp with
      capEvents := z 0 16 s.opp.capEvents, droopEvents := z 16 16 s.opp.droopEvents, bandHigh := z 32 16 s.opp.bandHigh
      bandLow := z 48 16 s.opp.bandLow } }
  | .clkCounts => { s with clk := { s.clk with
      switches := z 0 16 s.clk.switches, losses := z 16 16 s.clk.losses, changeLate := z 32 16 s.clk.changeLate
      genUnlock := z 48 16 s.clk.genUnlock } }
  | .thermCounts => { s with therm := { s.therm with
      throttles := z 0 16 s.therm.throttles, staleEvents := z 16 16 s.therm.staleEvents, hbFaults := z 32 16 s.therm.hbFaults
      rampHolds := z 48 16 s.therm.rampHolds } }
  | .rasCounts => { s with log := { s.log with dropped := z 32 16 s.log.dropped } }
  | _ => s

/-- A program's read clears the RC fields of a register (R307, R376, R490): elsewhere only Nganor's does (R552, R606, R651, R686, R715,
R734, R850). -/
def progClears : Reg → Bool
  | .podStatus _ | .stackErrors _ | .sliceStatus _ | .huddleStatus | .stepCounts | .ssCounts => true
  | _ => false

/-- A read of a register by the program of a cluster, or by Nganor: its word, and what the read changes (R16, R747, R756). -/
def State.readReg (s : State) (who : Option Nat) (r : Reg) (mask : Nat) : State × Nat :=
  match who, r with
  | some c, .mbClaim m => if decide (12 ≤ m) && s.nganorUp then s.claim c m else (s, 0)
  | some _, _ => (if progClears r then s.clearRc r mask else s, s.regVal r)
  | none, _ => (s.clearRc r mask, s.regVal r)

/-! ### Writes -/

/-- The W1C bits of a register that `w` names become zero (R16). -/
def State.clearW1c (s : State) (r : Reg) (w : Nat) : State :=
  let keep (b : Nat) (v : Bool) : Bool := v && !bitN w b
  match r with
  | .faultInfo c => if bitN w 7 then s.modCl c fun k => { k with fault := false, multi := false } else s
  | .transCtl c => s.modCl c fun k => { k with transBad := keep 1 k.transBad }
  | .arithFlags c => s.modCl c fun k => { k with arith := k.arith &&& ~~~(BitVec.ofNat 5 w) }
  | .podStatus c => s.modCl c fun k => { k with podFlags := k.podFlags &&& ~~~(BitVec.ofNat 6 w) }
  | .accState c => s.modCl c fun k => { k with clFull := keep 18 k.clFull }
  | .pourState c => s.modCl c fun k => { k with pourFault := keep 24 k.pourFault }
  | .tableCtl c => s.modCl c fun k => { k with rtStale := k.rtStale &&& ~~~(BitVec.ofNat 4 (fld w 15 12)) }
  | .stackStatus k => s.setStack k { s.stack k with hot := keep 11 (s.stack k).hot }
  | .laneStatus l => s.setLane l { s.lane l with flap := keep 4 (s.lane l).flap }
  | .xeStatus => { s with fab := { s.fab with
      xeSat := keep 0 s.fab.xeSat, xeNan := keep 1 s.fab.xeNan, xeOvf := keep 2 s.fab.xeOvf, xeFtz := keep 3 s.fab.xeFtz
      xePad := keep 4 s.fab.xePad } }
  | .ingestStatus => { s with ing := { s.ing with refused := keep 0 s.ing.refused, qpError := keep 1 s.ing.qpError } }
  | .huddleStatus => { s with hud := { s.hud with
      postBusy := keep 18 s.hud.postBusy, mismatch := keep 19 s.hud.mismatch, syncLate := keep 20 s.hud.syncLate } }
  | .tickStatus => { s with hud := { s.hud with lockLost := keep 3 s.hud.lockLost } }
  | .relayStatus => { s with hud := { s.hud with grantMissed := keep 33 s.hud.grantMissed } }
  | .stepStatus => { s with step := { s.step with skew := keep 23 s.step.skew, pubRefused := keep 24 s.step.pubRefused } }
  | .nwState i =>
    let x := tabGet {} s.watch i
    { s with watch := tabSet s.watch i { x with bad := keep 9 x.bad, late := keep 10 x.late } }
  | .ssStatus => { s with ss := { s.ss with exportLag := keep 10 s.ss.exportLag } }
  | .pwrStatus => { s with pwr := { s.pwr with alertSeen := keep 17 s.pwr.alertSeen, droopHigh := keep 20 s.pwr.droopHigh } }
  | .oppStatus => { s with opp := { s.opp with kwLimit := keep 20 s.opp.kwLimit } }
  | .refStatus => { s with clk := { s.clk with holdoverSeen := keep 11 s.clk.holdoverSeen, testFail := keep 12 s.clk.testFail } }
  | .thermStatus => { s with therm := { s.therm with tjOver := keep 14 s.therm.tjOver } }
  | .coolStatus => { s with therm := { s.therm with hbSeen := keep 19 s.therm.hbSeen } }
  | .rasStatus => { s with ras := { s.ras with writeFail := keep 45 s.ras.writeFail } }
  | _ => s

/-- The fields of a CSR that programs and Nganor both write (R252, R284, R307): W1S bits act, W1C bits clear. -/
def State.writeCsr (s : State) (r : Reg) (w : Nat) : State :=
  let s := match r with
    | .transCtl d => if bitN w 0 then s.modCl d fun k => { k with transInv := true } else s
    | .tableCtl d =>
      let s := if w % 16 = 0 then s else (s.modCl d fun k => k.askReload (BitVec.ofNat 4 w)).tryReload d
      if bitN w 4 then s.modCl d Cluster.askGrids else s
    | _ => s
  s.clearW1c r w

/-- A program's write of a register (R307, R376, R567, R587, R606, R756): `w` holds the bytes written and zeros, `mask` their place. -/
def State.progWrite (s : State) (c : Nat) (r : Reg) (mask w : Nat) : State :=
  let by_ (f : BitVec 8 → W64 → State → Res) : State := stateOf (f (BitVec.ofNat 8 c) (BitVec.ofNat 64 w) s) s
  let merged := maskedWrite (s.regVal r) mask w
  match r with
  | .transCtl _ | .arithFlags _ | .podStatus _ | .accState _ | .pourState _ | .tableCtl _ => s.writeCsr r w
  | .eReg d k => if k = 63 then s else s.modCl d fun x => x.setEv k merged
  | .evAdd d k => if k = 63 then s else s.arrive d k w
  | .hpOps k => let x := s.slotHp k; if x.state = 1 then s else s.setSlotHp k { x with ops := merged }
  | .hpVal k v => let x := s.slotHp k; if x.state = 1 then s else s.setSlotHp k { x with vals := tabPut 0 x.vals v merged }
  | .hpCtl k => by_ fun c v s => execHpCtl c (Fin.ofNat 8 k) v s
  | .phaseArrive => by_ execPhaseArrive
  | .pubDoorbell => by_ execPubDoorbell
  | .ingestReq => by_ execIngestReq
  | .mbDoorbell m => s.doorbell c w m
  | _ => s

/-- Software configures a register (R16, R21, R22): what is reserved keeps its value and is logged. -/
def State.configure (s : State) (r : Reg) (a v : Nat) : State :=
  let old := s.regVal r
  let fs := regFields r v
  let s := if reservedWrite fs v then s.errReserved a v else s
  let new := writeFields fs old v
  match r with
  | .refCfg => s.putReg r (if reservedWrite fs v then new - new % 64 + old % 64 else new)
  | _ => s.putReg r new

/-- Nganor's write of a register (R307, R376, R490, R552, R553, R587, R686, R715, R734). -/
def State.hubWrite (s : State) (r : Reg) (a mask w : Nat) : State :=
  let merged := maskedWrite (s.regVal r) mask w
  match r with
  | .seqCtl d => if bitN w 0 then s.modCl d Cluster.haltAsk else if bitN w 1 then s.modCl d Cluster.resume else s
  | .transCtl _ | .arithFlags _ | .podStatus _ | .accState _ | .pourState _ | .tableCtl _ => s.writeCsr r w
  | .sReg d k => if (s.cl d).st = .halted then s.modCl d fun x => x.setS k merged else s
  | .eReg d k => s.modCl d fun x => x.setEv k merged
  | .evAdd d k => s.arrive d k w
  | .fabCfg | .fabTune => if s.jobRuns then s else s.configure r a merged
  | .waitLimit _ | .transBase _ | .classMap _ | .partCfg _ _ | .relayCfg | .relaySite | .oppCfg | .kwCfg | .refCfg | .thermCfg =>
    s.configure r a merged
  | _ => s.clearW1c r w

/-! ### The rows -/

/-- An agent reaches a place of the map (R306, R451): a program runs in a cluster that is present and not fenced, and does not reach the window
of a fenced cluster; Nganor reaches everything. -/
def State.reaches (s : State) (who : Option Nat) (p : Place) : Bool :=
  match who with
  | none => s.nganorUp
  | some c => s.clocked && s.open_ c && match p with
    | .csr d _ => s.open_ d
    | _ => true

/-- RC_READ (R16, R18): a read of the whole register at an address; an offset that nothing lists reads as zero. -/
def execRcRead (who : Option (BitVec 8)) (addr : BitVec 48) (s : State) : Res :=
  let p := s.place addr.toNat
  let who := who.map (·.toNat)
  .next (if s.reaches who p then
      match p.reg with
      | some r =>
        let (s, v) := s.readReg who r (2 ^ 64 - 1)
        { s with readout := v }
      | none => s
    else s)

/-- REGISTER_WRITE (R16, R21, R22, R880): a naturally aligned write of 1, 2, 4 or 8 bytes. -/
def execRegisterWrite (who : Option (BitVec 8)) (addr : BitVec 48) (size : Nat) (v : W64) (s : State) : Res :=
  let a := addr.toNat
  let p := s.place a
  let who := who.map (·.toNat)
  .next (if decide (size = 1 ∨ size = 2 ∨ size = 4 ∨ size = 8) && decide (a % size = 0) && s.reaches who p then
      match p.reg, who with
      | some r, none => s.hubWrite r (a / 8 * 8) (accMask a size) (accWord a size v.toNat)
      | some r, some c => match p with
        | .cacheCtl _ => s
        | _ => s.progWrite c r (accMask a size) (accWord a size v.toNat)
      | none, _ => s
    else s)

/-- A scalar access that nothing serves (R331, R452): a precise ADDRESS fault. -/
def State.badAddress (s : State) (c a : Nat) : State := s.ifault c 0x06 true a

/-- LD (R330 to R332): HBM through the cache and the directory; local stores, CSR windows and the rest past the cache. `ecc` is what the
check bits of the unit read said. -/
def execLd (c : BitVec 8) (bits : BitVec 120) (ecc : Ecc) (s : State) : Res :=
  let c := c.toNat
  s.issue c fun k =>
    let w := iword 0x18 bits
    let a := k.accAddr w
    let n := accSize w
    let reg (r : Option Reg) : State := match r with
      | some r =>
        let (s, v) := s.readReg (some c) r (accMask a n)
        s.loadDone c w (accRead a n v)
      | none => s.loadDone c w 0
    if !onlyBits w [(9, 8), (10, 10), (20, 16), (28, 24), (63, 32)] then s.illegal c
    else if 2 ^ 48 ≤ a ∨ a % n ≠ 0 then s.badAddress c a
    else match s.place a with
      | .hbm => (if (tabFind k.cache (a / 128)).isSome then s else s.ecc a ecc).scalarHbm c w
      | .ls d _ =>
        if !s.open_ d then s.badAddress c a
        else
          let s := s.ecc a ecc
          if s.poisoned a n then s.loadPoison c a else s.loadDone c w (leAt (s.bytes a n) 0 n)
      | .csr d off => if s.open_ d then reg (csrReg d (off / 8)) else s.badAddress c a
      | .cacheCtl off => reg (cacheCtlReg (off / 8))
      | .fabric off => reg (fabricReg (off / 8))
      | .control off => reg (controlReg (off / 8))
      | .mailbox m off =>
        if decide (12 ≤ m ∧ 0x1000 ≤ off) && s.jobRuns then s.loadDone c w (leAt ((s.box m).rspBytes m (off - 0x1000) n) 0 n)
        else s.badAddress c a
      | .mgmt _ => s.badAddress c a
      | .unmapped => s.badAddress c a

/-- ST (R330 to R332). -/
def execSt (c : BitVec 8) (bits : BitVec 120) (s : State) : Res :=
  let c := c.toNat
  s.issue c fun k =>
    let w := iword 0x19 bits
    let a := k.accAddr w
    let n := accSize w
    let bs := k.storeBytes w
    let done (s : State) : State := s.modCl c Cluster.retire
    let reg (r : Option Reg) : State := match r with
      | some r => done (s.progWrite c r (accMask a n) (accWord a n (ofLe bs)))
      | none => done s
    if !onlyBits w [(9, 8), (28, 24), (36, 32), (63, 37)] then s.illegal c
    else if 2 ^ 48 ≤ a ∨ a % n ≠ 0 then s.badAddress c a
    else match s.place a with
      | .hbm => s.scalarHbm c w
      | .ls d _ => if s.open_ d then done (s.store a bs false 0) else s.badAddress c a
      | .csr d off => if s.open_ d then reg (csrReg d (off / 8)) else s.badAddress c a
      | .fabric off => reg (fabricReg (off / 8))
      | .control off => reg (controlReg (off / 8))
      | .mailbox m off =>
        if decide (12 ≤ m ∧ off < 0x1000) && s.jobRuns then done (s.writeReq m off bs) else s.badAddress c a
      | .cacheCtl _ => s.badAddress c a
      | .mgmt _ => s.badAddress c a
      | .unmapped => s.badAddress c a

end Sys2Proof.Machine
end

