-- ==== Sys2Proof/Machine/Dispatch.lean ====
section
/-!
DEFINITION. The dispatch of a command to its meaning: one arm per row of spec/opcode_table.json.
-/
namespace Sys2Proof.Machine

/-- The effect of a command on everything but the queue. -/
def exec (i : Instr) (s : State) : Host.Outcome State Fault Refusal :=
  match i with
  | .nop c bits => Sys2Proof.Machine.execNop c bits s
  | .jump c bits => Sys2Proof.Machine.execJump c bits s
  | .br c bits => Sys2Proof.Machine.execBr c bits s
  | .loop c bits => Sys2Proof.Machine.execLoop c bits s
  | .wait c bits => Sys2Proof.Machine.execWait c bits s
  | .waitSatisfied c => Sys2Proof.Machine.execWaitSatisfied c s
  | .waitTimeout c => Sys2Proof.Machine.execWaitTimeout c s
  | .signal c bits => Sys2Proof.Machine.execSignal c bits s
  | .halt c bits => Sys2Proof.Machine.execHalt c bits s
  | .alu c bits => Sys2Proof.Machine.execAlu c bits s
  | .alui c bits => Sys2Proof.Machine.execAlui c bits s
  | .ld c bits ecc => Sys2Proof.Machine.execLd c bits ecc s
  | .st c bits => Sys2Proof.Machine.execSt c bits s
  | .evset c bits => Sys2Proof.Machine.execEvset c bits s
  | .evsub c bits => Sys2Proof.Machine.execEvsub c bits s
  | .evrd c bits => Sys2Proof.Machine.execEvrd c bits s
  | .qcfg c bits remote => Sys2Proof.Machine.execQcfg c bits remote s
  | .qgo c bits remote => Sys2Proof.Machine.execQgo c bits remote s
  | .qend c bits => Sys2Proof.Machine.execQend c bits s
  | .tld c bits grid => Sys2Proof.Machine.execTld c bits grid s
  | .tlm c bits => Sys2Proof.Machine.execTlm c bits s
  | .tst c bits => Sys2Proof.Machine.execTst c bits s
  | .lutld c bits => Sys2Proof.Machine.execLutld c bits s
  | .rtld c bits => Sys2Proof.Machine.execRtld c bits s
  | .mma c bits => Sys2Proof.Machine.execMma c bits s
  | .pour c bits => Sys2Proof.Machine.execPour c bits s
  | .exchWrite c bits => Sys2Proof.Machine.execExchWrite c bits s
  | .exchRead c bits => Sys2Proof.Machine.execExchRead c bits s
  | .exchReduceWrite c bits => Sys2Proof.Machine.execExchReduceWrite c bits s
  | .exchAtomic c bits => Sys2Proof.Machine.execExchAtomic c bits s
  | .reduceScatter c bits => Sys2Proof.Machine.execReduceScatter c bits s
  | .allGather c bits => Sys2Proof.Machine.execAllGather c bits s
  | .allToAll c bits => Sys2Proof.Machine.execAllToAll c bits s
  | .broadcast c bits => Sys2Proof.Machine.execBroadcast c bits s
  | .exchComplete post => Sys2Proof.Machine.execExchComplete post s
  | .fence c bits => Sys2Proof.Machine.execFence c bits s
  | .fenceComplete c => Sys2Proof.Machine.execFenceComplete c s
  | .unitEntry c grid => Sys2Proof.Machine.execUnitEntry c grid s
  | .mmaStart c => Sys2Proof.Machine.execMmaStart c s
  | .refillVisit c => Sys2Proof.Machine.execRefillVisit c s
  | .correctionCycles c => Sys2Proof.Machine.execCorrectionCycles c s
  | .mmaComplete c => Sys2Proof.Machine.execMmaComplete c s
  | .mmaProgressStop c k => Sys2Proof.Machine.execMmaProgressStop c k s
  | .pourStart c grid => Sys2Proof.Machine.execPourStart c grid s
  | .pourComplete c => Sys2Proof.Machine.execPourComplete c s
  | .tileLoadComplete c side => Sys2Proof.Machine.execTileLoadComplete c side s
  | .streamRequest c q => Sys2Proof.Machine.execStreamRequest c q s
  | .streamItemComplete c q item data ecc => Sys2Proof.Machine.execStreamItemComplete c q item data ecc s
  | .streamRequestFail c q item status => Sys2Proof.Machine.execStreamRequestFail c q item status s
  | .slotPaused c q => Sys2Proof.Machine.execSlotPaused c q s
  | .clusterHalted c => Sys2Proof.Machine.execClusterHalted c s
  | .haltReq c => Sys2Proof.Machine.execHaltReq c s
  | .resume c => Sys2Proof.Machine.execResume c s
  | .eventCounterWrite c e v => Sys2Proof.Machine.execEventCounterWrite c e v s
  | .evAdd c e v => Sys2Proof.Machine.execEvAdd c e v s
  | .transInv c => Sys2Proof.Machine.execTransInv c s
  | .translationRereadComplete c => Sys2Proof.Machine.execTranslationRereadComplete c s
  | .rtInv c mask => Sys2Proof.Machine.execRtInv c mask s
  | .gridInv c => Sys2Proof.Machine.execGridInv c s
  | .phaseArrive c v => Sys2Proof.Machine.execPhaseArrive c v s
  | .pubDoorbell c v => Sys2Proof.Machine.execPubDoorbell c v s
  | .publicationRecordWrite slot => Sys2Proof.Machine.execPublicationRecordWrite slot s
  | .verifiedFetchRecheck post => Sys2Proof.Machine.execVerifiedFetchRecheck post s
  | .verifiedFetchDigest post => Sys2Proof.Machine.execVerifiedFetchDigest post s
  | .mismatchResolution post owner twin => Sys2Proof.Machine.execMismatchResolution post owner twin s
  | .stall => Sys2Proof.Machine.execStall s
  | .preimageCopyComplete => Sys2Proof.Machine.execPreimageCopyComplete s
  | .deltaRecord r => Sys2Proof.Machine.execDeltaRecord r s
  | .fullRecord r => Sys2Proof.Machine.execFullRecord r s
  | .endRecord r => Sys2Proof.Machine.execEndRecord r s
  | .commitRecord r => Sys2Proof.Machine.execCommitRecord r s
  | .rollbackRecord r => Sys2Proof.Machine.execRollbackRecord r s
  | .stepAck r => Sys2Proof.Machine.execStepAck r s
  | .nakNew r => Sys2Proof.Machine.execNakNew r s
  | .nakOld r => Sys2Proof.Machine.execNakOld r s
  | .failureHandling => Sys2Proof.Machine.execFailureHandling s
  | .twinless => Sys2Proof.Machine.execTwinless s
  | .exportLag => Sys2Proof.Machine.execExportLag s
  | .coherenceRequest slice => Sys2Proof.Machine.execCoherenceRequest slice s
  | .recallAnswer slice line => Sys2Proof.Machine.execRecallAnswer slice line s
  | .regulatorTokenRefill => Sys2Proof.Machine.execRegulatorTokenRefill s
  | .regulatorAdmit stack => Sys2Proof.Machine.execRegulatorAdmit stack s
  | .patrolScrub ecc => Sys2Proof.Machine.execPatrolScrub ecc s
  | .stackTempRead stack temp => Sys2Proof.Machine.execStackTempRead stack temp s
  | .stackTempMissing stack => Sys2Proof.Machine.execStackTempMissing stack s
  | .laserPowerChange engine onB power => Sys2Proof.Machine.execLaserPowerChange engine onB power s
  | .laneDown lane codewords => Sys2Proof.Machine.execLaneDown lane codewords s
  | .laneUp lane => Sys2Proof.Machine.execLaneUp lane s
  | .frameReceive lane f => Sys2Proof.Machine.execFrameReceive lane f s
  | .write lane p => Sys2Proof.Machine.execWrite lane p s
  | .read lane p => Sys2Proof.Machine.execRead lane p s
  | .reduceWriteF32 lane p => Sys2Proof.Machine.execReduceWriteF32 lane p s
  | .reduceWriteH16 lane p => Sys2Proof.Machine.execReduceWriteH16 lane p s
  | .reduceWriteI32 lane p => Sys2Proof.Machine.execReduceWriteI32 lane p s
  | .atomicAdd lane p => Sys2Proof.Machine.execAtomicAdd lane p s
  | .atomicFetchAdd lane p => Sys2Proof.Machine.execAtomicFetchAdd lane p s
  | .atomicSwap lane p => Sys2Proof.Machine.execAtomicSwap lane p s
  | .atomicCas lane p => Sys2Proof.Machine.execAtomicCas lane p s
  | .readData lane p => Sys2Proof.Machine.execReadData lane p s
  | .atomicResult lane p => Sys2Proof.Machine.execAtomicResult lane p s
  | .status lane p => Sys2Proof.Machine.execStatus lane p s
  | .collData lane p => Sys2Proof.Machine.execCollData lane p s
  | .ctrl lane p => Sys2Proof.Machine.execCtrl lane p s
  | .ack lane p => Sys2Proof.Machine.execAck lane p s
  | .ackTimer src => Sys2Proof.Machine.execAckTimer src s
  | .retransmitTimeout dest psn => Sys2Proof.Machine.execRetransmitTimeout dest psn s
  | .sendContextFree dest => Sys2Proof.Machine.execSendContextFree dest s
  | .receiveContextFree src => Sys2Proof.Machine.execReceiveContextFree src s
  | .planeExclusionExpire dest plane => Sys2Proof.Machine.execPlaneExclusionExpire dest plane s
  | .hUp lane p => Sys2Proof.Machine.execHUp lane p s
  | .hDown lane p => Sys2Proof.Machine.execHDown lane p s
  | .hStop lane p => Sys2Proof.Machine.execHStop lane p s
  | .hUpResend sys seq => Sys2Proof.Machine.execHUpResend sys seq s
  | .hpCtl c slot v => Sys2Proof.Machine.execHpCtl c slot v s
  | .tickSyncBurst => Sys2Proof.Machine.execTickSyncBurst s
  | .tSync lane p => Sys2Proof.Machine.execTSync lane p s
  | .tReply lane p => Sys2Proof.Machine.execTReply lane p s
  | .tickParentSilent => Sys2Proof.Machine.execTickParentSilent s
  | .syncCount => Sys2Proof.Machine.execSyncCount s
  | .relayRoundStart => Sys2Proof.Machine.execRelayRoundStart s
  | .relayLevelDeadline => Sys2Proof.Machine.execRelayLevelDeadline s
  | .rReq lane p => Sys2Proof.Machine.execRReq lane p s
  | .rGrant lane p => Sys2Proof.Machine.execRGrant lane p s
  | .ingestReq c v => Sys2Proof.Machine.execIngestReq c v s
  | .rdmaWrite p => Sys2Proof.Machine.execRdmaWrite p s
  | .rdmaWriteWithImmediate p => Sys2Proof.Machine.execRdmaWriteWithImmediate p s
  | .windowFail p => Sys2Proof.Machine.execWindowFail p s
  | .roceAck p => Sys2Proof.Machine.execRoceAck p s
  | .cnp p => Sys2Proof.Machine.execCnp p s
  | .invalidRequest p => Sys2Proof.Machine.execInvalidRequest p s
  | .roceAckTimeout qpn => Sys2Proof.Machine.execRoceAckTimeout qpn s
  | .arp f => Sys2Proof.Machine.execArp f s
  | .icmpEcho f => Sys2Proof.Machine.execIcmpEcho f s
  | .dhcpRenew answer => Sys2Proof.Machine.execDhcpRenew answer s
  | .tftpBoot image => Sys2Proof.Machine.execTftpBoot image s
  | .mbWrite pecOk data => Sys2Proof.Machine.execMbWrite pecOk data s
  | .mbRdptr pecOk offset => Sys2Proof.Machine.execMbRdptr pecOk offset s
  | .mbRead => Sys2Proof.Machine.execMbRead s
  | .mbDoorbell pecOk value => Sys2Proof.Machine.execMbDoorbell pecOk value s
  | .mbStatus => Sys2Proof.Machine.execMbStatus s
  | .coolant pecOk data => Sys2Proof.Machine.execCoolant pecOk data s
  | .ident => Sys2Proof.Machine.execIdent s
  | .pmbAlert words => Sys2Proof.Machine.execPmbAlert words s
  | .pmbusPoll ok words => Sys2Proof.Machine.execPmbusPoll ok words s
  | .powerGainTrim pkgW => Sys2Proof.Machine.execPowerGainTrim pkgW s
  | .idcode => Sys2Proof.Machine.execIdcode s
  | .samplePreload cells => Sys2Proof.Machine.execSamplePreload cells s
  | .extest cells => Sys2Proof.Machine.execExtest cells s
  | .clamp => Sys2Proof.Machine.execClamp s
  | .highz => Sys2Proof.Machine.execHighz s
  | .unlockChal => Sys2Proof.Machine.execUnlockChal s
  | .unlockResp response => Sys2Proof.Machine.execUnlockResp response s
  | .debug => Sys2Proof.Machine.execDebug s
  | .bypass => Sys2Proof.Machine.execBypass s
  | .uartInfo => Sys2Proof.Machine.execUartInfo s
  | .uartBootQspi => Sys2Proof.Machine.execUartBootQspi s
  | .uartBootTftp => Sys2Proof.Machine.execUartBootTftp s
  | .uartReboot => Sys2Proof.Machine.execUartReboot s
  | .pwrAlertTaken => Sys2Proof.Machine.execPwrAlertTaken s
  | .pwrAlertRelease => Sys2Proof.Machine.execPwrAlertRelease s
  | .vinFailTaken => Sys2Proof.Machine.execVinFailTaken s
  | .vinFailGlitch => Sys2Proof.Machine.execVinFailGlitch s
  | .saveDomainsOff => Sys2Proof.Machine.execSaveDomainsOff s
  | .flushEnd => Sys2Proof.Machine.execFlushEnd s
  | .lastGaspProgrammed => Sys2Proof.Machine.execLastGaspProgrammed s
  | .brownout => Sys2Proof.Machine.execBrownout s
  | .overvolt => Sys2Proof.Machine.execOvervolt s
  | .vauxLow => Sys2Proof.Machine.execVauxLow s
  | .droopReading slot mv => Sys2Proof.Machine.execDroopReading slot mv s
  | .boostRelease slot => Sys2Proof.Machine.execBoostRelease slot s
  | .droopHigh slot cycles stretched => Sys2Proof.Machine.execDroopHigh slot cycles stretched s
  | .voltageTransitionComplete slot => Sys2Proof.Machine.execVoltageTransitionComplete slot s
  | .slotModeChange slot on cal => Sys2Proof.Machine.execSlotModeChange slot on cal s
  | .pkgWSample w => Sys2Proof.Machine.execPkgWSample w s
  | .capLoopCheck => Sys2Proof.Machine.execCapLoopCheck s
  | .hysteresisExpire => Sys2Proof.Machine.execHysteresisExpire s
  | .keepwarmAdjust w => Sys2Proof.Machine.execKeepwarmAdjust w s
  | .refLoss => Sys2Proof.Machine.execRefLoss s
  | .refMonitorWindow a b f => Sys2Proof.Machine.execRefMonitorWindow a b f s
  | .pllSwitchComplete => Sys2Proof.Machine.execPllSwitchComplete s
  | .jitterTestComplete a b f => Sys2Proof.Machine.execJitterTestComplete a b f s
  | .genUnlock gen => Sys2Proof.Machine.execGenUnlock gen s
  | .tjSample tj => Sys2Proof.Machine.execTjSample tj s
  | .thermtrip => Sys2Proof.Machine.execThermtrip s
  | .coolantEval => Sys2Proof.Machine.execCoolantEval s
  | .heatBalanceCheck => Sys2Proof.Machine.execHeatBalanceCheck s
  | .rampHoldCheck => Sys2Proof.Machine.execRampHoldCheck s
  | .forecastForm => Sys2Proof.Machine.execForecastForm s
  | .ring c v m => Sys2Proof.Machine.execRing c v m s
  | .abort c v m => Sys2Proof.Machine.execAbort c v m s
  | .release c v m => Sys2Proof.Machine.execRelease c v m s
  | .mbClaim c m => Sys2Proof.Machine.execMbClaim c m s
  | .put f => Sys2Proof.Machine.execPut f s
  | .ringFrame f => Sys2Proof.Machine.execRingFrame f s
  | .abortFrame f => Sys2Proof.Machine.execAbortFrame f s
  | .get f => Sys2Proof.Machine.execGet f s
  | .stat f => Sys2Proof.Machine.execStat f s
  | .releaseFrame f => Sys2Proof.Machine.execReleaseFrame f s
  | .evack f => Sys2Proof.Machine.execEvack f s
  | .commandComplete m => Sys2Proof.Machine.execCommandComplete m s
  | .commandBoundExpire m => Sys2Proof.Machine.execCommandBoundExpire m s
  | .ownerIdleTimeout m => Sys2Proof.Machine.execOwnerIdleTimeout m s
  | .eventPush m => Sys2Proof.Machine.execEventPush m s
  | .identify m => Sys2Proof.Machine.execIdentify m s
  | .deviceStatus m => Sys2Proof.Machine.execDeviceStatus m s
  | .jobStage m => Sys2Proof.Machine.execJobStage m s
  | .jobUnstage m => Sys2Proof.Machine.execJobUnstage m s
  | .jobLoad m pIdle => Sys2Proof.Machine.execJobLoad m pIdle s
  | .jobStart m => Sys2Proof.Machine.execJobStart m s
  | .jobStopEnd m => Sys2Proof.Machine.execJobStopEnd m s
  | .jobStopAbort m => Sys2Proof.Machine.execJobStopAbort m s
  | .jobPause m => Sys2Proof.Machine.execJobPause m s
  | .jobResume m => Sys2Proof.Machine.execJobResume m s
  | .jobUnload m => Sys2Proof.Machine.execJobUnload m s
  | .regulatorSet m => Sys2Proof.Machine.execRegulatorSet m s
  | .jobStatus m => Sys2Proof.Machine.execJobStatus m s
  | .regulatorRead m => Sys2Proof.Machine.execRegulatorRead m s
  | .stepRead m => Sys2Proof.Machine.execStepRead m s
  | .watchRead m => Sys2Proof.Machine.execWatchRead m s
  | .clusterHalt m => Sys2Proof.Machine.execClusterHalt m s
  | .clusterResume m => Sys2Proof.Machine.execClusterResume m s
  | .clusterRead m => Sys2Proof.Machine.execClusterRead m s
  | .powerRead m => Sys2Proof.Machine.execPowerRead m s
  | .powerTable m => Sys2Proof.Machine.execPowerTable m s
  | .powerConfig m => Sys2Proof.Machine.execPowerConfig m s
  | .vinSet m readVout => Sys2Proof.Machine.execVinSet m readVout s
  | .slotRead m => Sys2Proof.Machine.execSlotRead m s
  | .stackRead m => Sys2Proof.Machine.execStackRead m s
  | .twinBind m => Sys2Proof.Machine.execTwinBind m s
  | .twinUnbind m => Sys2Proof.Machine.execTwinUnbind m s
  | .restore m reply records => Sys2Proof.Machine.execRestore m reply records s
  | .exportSet m => Sys2Proof.Machine.execExportSet m s
  | .rankUpdate m => Sys2Proof.Machine.execRankUpdate m s
  | .streamRead m => Sys2Proof.Machine.execStreamRead m s
  | .unitRead m => Sys2Proof.Machine.execUnitRead m s
  | .unitSet m bringUp => Sys2Proof.Machine.execUnitSet m bringUp s
  | .bistLogic m misr1 misr2 => Sys2Proof.Machine.execBistLogic m misr1 misr2 s
  | .bistMemorySlot m misr1 misr2 => Sys2Proof.Machine.execBistMemorySlot m misr1 misr2 s
  | .bistMemoryWay m misr1 misr2 row => Sys2Proof.Machine.execBistMemoryWay m misr1 misr2 row s
  | .bistReferenceTest m a b f => Sys2Proof.Machine.execBistReferenceTest m a b f s
  | .errorRead m => Sys2Proof.Machine.execErrorRead m s
  | .lastGaspRead m => Sys2Proof.Machine.execLastGaspRead m s
  | .fwInfo m => Sys2Proof.Machine.execFwInfo m s
  | .fwWrite m => Sys2Proof.Machine.execFwWrite m s
  | .fwActivate m => Sys2Proof.Machine.execFwActivate m s
  | .reboot m => Sys2Proof.Machine.execReboot m s
  | .debugChallenge m => Sys2Proof.Machine.execDebugChallenge m s
  | .debugResponse m => Sys2Proof.Machine.execDebugResponse m s
  | .counters m => Sys2Proof.Machine.execCounters m s
  | .forecast m => Sys2Proof.Machine.execForecast m s
  | .eventMask m => Sys2Proof.Machine.execEventMask m s
  | .eventFetch m => Sys2Proof.Machine.execEventFetch m s
  | .fabricConfig m => Sys2Proof.Machine.execFabricConfig m s
  | .fabricRead m => Sys2Proof.Machine.execFabricRead m s
  | .laneSetOut m => Sys2Proof.Machine.execLaneSetOut m s
  | .laneSetIn m => Sys2Proof.Machine.execLaneSetIn m s
  | .qpCreate m => Sys2Proof.Machine.execQpCreate m s
  | .qpModify m => Sys2Proof.Machine.execQpModify m s
  | .qpDestroy m => Sys2Proof.Machine.execQpDestroy m s
  | .qpReset m => Sys2Proof.Machine.execQpReset m s
  | .qpRead m => Sys2Proof.Machine.execQpRead m s
  | .sysResetAssert => Sys2Proof.Machine.execSysResetAssert s
  | .sysResetDeassert bootSel => Sys2Proof.Machine.execSysResetDeassert bootSel s
  | .watchdogExpire => Sys2Proof.Machine.execWatchdogExpire s
  | .refWaitRetry => Sys2Proof.Machine.execRefWaitRetry s
  | .pllFirstLock => Sys2Proof.Machine.execPllFirstLock s
  | .firmwareVerify cal => Sys2Proof.Machine.execFirmwareVerify cal s
  | .hbmTrainingComplete failed => Sys2Proof.Machine.execHbmTrainingComplete failed s
  | .opticalStageEnd => Sys2Proof.Machine.execOpticalStageEnd s
  | .bistStageComplete failed => Sys2Proof.Machine.execBistStageComplete failed s
  | .announce => Sys2Proof.Machine.execAnnounce s
  | .laneLoopback lane pass => Sys2Proof.Machine.execLaneLoopback lane pass s
  | .loopbackRetry lane pass => Sys2Proof.Machine.execLoopbackRetry lane pass s
  | .logicCheck c check bist => Sys2Proof.Machine.execLogicCheck c check bist s
  | .hardwareFence unit set => Sys2Proof.Machine.execHardwareFence unit set s
  | .repairRecordWrite ok => Sys2Proof.Machine.execRepairRecordWrite ok s
  | .errorRateWindow => Sys2Proof.Machine.execErrorRateWindow s
  | .rcRead who addr => Sys2Proof.Machine.execRcRead who addr s
  | .registerWrite who addr size v => Sys2Proof.Machine.execRegisterWrite who addr size v s
  | .undecodableInstruction c word poisoned => Sys2Proof.Machine.execUndecodableInstruction c word poisoned s
  | .vauxRemoved => Sys2Proof.Machine.execVauxRemoved s
  | .sourceRestoreRequest failed replacement target => Sys2Proof.Machine.execSourceRestoreRequest failed replacement target s
  | .jobPauseNotice => Sys2Proof.Machine.execJobPauseNotice s
  | .jobResumeNotice => Sys2Proof.Machine.execJobResumeNotice s
  | .arpEntryAgeOut ip => Sys2Proof.Machine.execArpEntryAgeOut ip s

end Sys2Proof.Machine
end

