-- ==== Sys2Proof/Machine/Idle.lean ====
section
/-!
DEFINITION. What a nanosecond without a command does (DESIGN CHOICE, log entry 1): the tick with its slewing (R572, R574), the exchanges of
a burst (R574), PCEIL (R581, R582), the transmit queues (R504, R524, R532), the state stream (R424), the counts of a measured phase (R662),
the VIN monitor (R652), service minutes (R840), the record rate (R846) and the console (R623).
-/
namespace Sys2Proof.Machine

/-- A period of the model's clock ends now. -/
def State.every (s : State) (n : Nat) : Bool := s.now % n == 0

/-- The tick counts one nanosecond; slewing at 100 ppm adds or drops one in 10,000 until the offset is removed (R572, R574). -/
def State.countTick (s : State) : State :=
  let h := s.hud
  if h.slew = 0 then { s with tick := s.tick + 1 }
  else if h.slewAcc < 9999 then { s with tick := s.tick + 1, hud := { h with slewAcc := h.slewAcc + 1 } }
  else if 0 < h.slew then { s with tick := s.tick + 2, hud := { h with slewAcc := 0, slew := h.slew - 1 } }
  else { s with hud := { h with slewAcc := 0, slew := h.slew + 1 } }

/-- The next exchange of a burst, 4 µs after the one before (R574). -/
def State.burstTick (s : State) : State :=
  if 0 < s.hud.burstLeft ∧ s.hud.burstAt + 4000 * (8 - s.hud.burstLeft) ≤ s.now then s.sendSync else s

/-- PCEIL between rounds of grants (R581, R582, R585, R677): in RELAY mode along the grant; in LOCAL mode, and in a fallback, by the credit
earned, in whole watts. -/
def State.movePceil (s : State) : State :=
  let h := s.hud
  if decide (s.boot.stage ≠ 5) then s
  else if h.relayMode && !h.fallback then
    if h.moveUp = 0 ∧ h.moveDown = 0 then s else { s with hud := { h with pceil := s.pceilAt (s.tick - h.round * roundNs) } }
  else
    let credit := min (h.rampRate * 250000000) (h.credit + h.rampRate)
    let up := decide (h.pceil < s.opp.tgtW ∧ h.pceil < s.pceilBound) && !s.therm.holdUp
    let down := decide (s.opp.tgtW < h.pceil) && !s.therm.holdDown
    if 1000000000 ≤ credit ∧ (up ∨ down) then
      { s with hud := { h with credit := credit - 1000000000, pceil := if up then h.pceil + 1 else h.pceil - 1 } }
    else { s with hud := { h with credit := credit } }

/-- The frame that a lane sends next: of the first class that has one (R532). -/
def nextFrame (tx : List TxFrame) (l : Nat) : Option TxFrame :=
  (List.range 4).findSome? fun k => tx.find? fun f => decide (f.lane = l ∧ f.cls = k)

/-- A lane sends a frame: its VID names the spine of the lane's counter (R504, R524). -/
def State.sendFrame (s : State) (l : Nat) : State :=
  match nextFrame s.fab.tx l with
  | none => s
  | some f =>
    let x := s.lane l
    let s := s.setLane l { x with spine := (x.spine + 1) % 256 }
    { s with fab := { s.fab with tx := s.fab.tx.erase f, sent := s.fab.sent ++ [{ f with vid := s.fab.vlanBase + x.spine }] } }

/-- Every lane sends at most one frame. -/
def State.transmit (s : State) : State := if s.fab.tx.isEmpty then s else (List.range 144).foldl State.sendFrame s

/-- The state stream earns 200 GB/s while records wait, and sends when a record fits (R424). -/
def State.streamTick (s : State) : State :=
  if s.ss.unsent.isEmpty || s.twinGone || s.ss.stopped then { s with ss := { s.ss with credit := 0 } }
  else State.sendNext { s with ss := { s.ss with credit := s.ss.credit + 200 } }

/-- The sequencer holds issue for a WAIT (R309). -/
def Cluster.waiting (k : Cluster) : Bool :=
  match k.hold with
  | .wait _ _ _ _ => true
  | _ => false

/-- Cluster cycles of the phase that runs, and those in which the sequencer was not WAITING (R662). -/
def State.countPhase (s : State) : State :=
  if !s.inPhase then s
  else
    let live := s.present.filter fun c => !(s.cl c).fenced
    { s with opp := { s.opp with
        phaseCyc := s.opp.phaseCyc + live.length
        phaseBusy := s.opp.phaseBusy + (live.filter fun c => !(s.cl c).waiting).length } }

/-- VIN at the lands, every 10 µs: a free value (R652; log entry 2). -/
def State.sampleVin (s : State) : State :=
  if s.every 10000 then { s with freeCtr := s.freeCtr + 1, pwr := { s.pwr with vinMv := (Config.vinMv s.freeCtr).toNat } } else s

/-- A second ends without dropped records (R846); a service minute ends (R830). -/
def State.countService (s : State) : State :=
  let s : State := if s.every 1000000000 && s.log.droppedNow == 0 then { s with log := { s.log with inSecond := 0 } } else s
  if s.every 60000000000 && s.boot.nganor then { s with ras := { s.ras with serviceMin := s.ras.serviceMin + 1 } } else s

/-- The console sends at 115,200 baud, ten bits a byte (R623). -/
def State.drainUart (s : State) : State :=
  match s.uart.lines with
  | [] => s
  | l :: t =>
    let acc := s.uart.acc + 11520
    if l.length * 1000000000 ≤ acc then { s with uart := { s.uart with lines := t, sent := s.uart.sent ++ [l], acc := 0 } }
    else { s with uart := { s.uart with acc := acc } }

/-- A nanosecond passes. Without clocks only the model's own time goes on. -/
def State.idle (s : State) : State :=
  let s : State := { s with now := s.now + 1 }
  if !s.clocked then s
  else ((((((((s.countTick.burstTick).movePceil).transmit).streamTick).countPhase).sampleVin).countService).drainUart)

end Sys2Proof.Machine
end

