-- ==== Sys2Proof/Safety.lean ====
section
/-!
DEFINITION. What holds of every state of the block that a step leaves, and what one command may not undo.
-/
namespace Sys2Proof.Machine

/-- Memory and the table of poisoned units are in canonical form: addresses strictly rising, no entry equal to what an unlisted one reads
as. -/
def State.memOk (s : State) : Bool := Memory.wf s.mem && tabWf false s.poison

/-- What `Keeps` says, of the parts of the later state that it looks at: the queue, memory, poison, TRIP_SEEN, OV_SEEN. -/
def KeepsCore (s : State) (pending : List Instr) (mem : List Host.Cell) (poison : Tab Bool) (trip ov : Bool) : Prop :=
  pending = s.pending ∧ (s.memOk = true → (Memory.wf mem && tabWf false poison) = true) ∧ (s.therm.tripSeen = true → trip = true) ∧
    (s.pwr.ovSeen = true → ov = true)

/-- From `s` to `t` the queue is the same, canonical memory stays canonical, and the sticky bits TRIP_SEEN and OV_SEEN stay set (R17). -/
def Keeps (s t : State) : Prop := KeepsCore s t.pending t.mem t.poison t.therm.tripSeen t.pwr.ovSeen

end Sys2Proof.Machine
end

