-- ==== Sys2Proof/Certificates/Slice0/Obligations.lean ====
section
/-!
DEFINITION. What is claimed of the model: one proposition per claim, each named in OBLIGATIONS.json. The premises of a claim are
about the state and the operands alone; a claim of the form `∃ t, exec i s = .next t ∧ …` says where the command completes.
-/
open Sys2Proof Sys2Proof.Machine

namespace Sys2Proof.Claims

/-- The sequencer of a cluster can issue: RUNNING, nothing held, not fenced, the clocks running. -/
def CanIssue (s : State) (c : Nat) : Prop :=
  (s.cl c).st = .running ∧ (s.cl c).hold = .none ∧ (s.cl c).fenced = false ∧ s.clocked = true

/-- The state differs at most in one logical cluster. -/
def OnlyCluster (c : Nat) (s t : State) : Prop := t = { s with clusters := t.clusters } ∧ ∀ d, d ≠ c → t.cl d = s.cl d

/-- The scalar registers as before, but for one that receives a value; s0 receives none. -/
def SregWritten (k j : Cluster) (rd v : Nat) : Prop := ∀ r, j.sreg r = if r = rd ∧ r ≠ 0 then v % 2 ^ 64 else k.sreg r

/-- PC advances by 16 (R318); past the end of the local store the rules say nothing. -/
def PcAdvances (k j : Cluster) : Prop := k.pc + 16 < 0x200000 → j.pc = k.pc + 16

/-- The counters as before, but for one that receives a value. -/
def CounterWritten (k j : Cluster) (e v : Nat) : Prop := ∀ d, j.ev d = if d = e then v % 2 ^ 64 else k.ev d

/-- What an instruction fault leaves (R298, R303, R305, R310): the cluster halts, the first fault is recorded and a later one
only sets MULTI; a record and an event are logged, and a running job owes its fault policy. -/
def Faulted (c cause : Nat) (precise : Bool) (addr slot : Nat) (s t : State) : Prop :=
  let k := s.cl c
  let stopped : Cluster := { k with st := .halting, hold := .none, ended := false }
  t.cl c = (if k.fault then { stopped with multi := true }
    else { stopped with fault := true, cause := cause, precise := precise, faultPc := k.pc, faultAddr := addr, faultSlot := slot }) ∧
  (∀ d, d ≠ c → t.cl d = s.cl d) ∧
  t = { s with clusters := t.clusters, log := t.log, step := { s.step with faultPending := s.step.faultPending || s.jobRuns } }

end Sys2Proof.Claims

open Sys2Proof.Claims

/-- R329 on 64-bit operands: the result that each FUNC gives. -/
def Sys2Proof.Claims.aluValue (func : Nat) (a b : BitVec 64) : BitVec 64 :=
  match func with
  | 0x00 => a + b
  | 0x01 => a - b
  | 0x02 => a &&& b
  | 0x03 => a ||| b
  | 0x04 => a ^^^ b
  | 0x05 => a <<< (b.toNat % 64)
  | 0x06 => a >>> (b.toNat % 64)
  | 0x07 => a.sshiftRight (b.toNat % 64)
  | 0x08 => a * b
  | 0x09 => BitVec.ofNat 64 (a.toNat * b.toNat / 2 ^ 64)
  | 0x0A => if a.slt b then 1 else 0
  | 0x0B => if a.ult b then 1 else 0
  | 0x0C => if a.sle b then a else b
  | 0x0D => if a.sle b then b else a
  | 0x0E => if a.ule b then a else b
  | _ => if a.ule b then b else a

/-- R328, R329: ALU and ALUI with a defined FUNC write RD, discarded for s0; PC advances by 16 and nothing else changes. A reserved FUNC
is a precise ILLEGAL fault. -/
def Obligations.ScalarOperationsCompute : Prop :=
  ∀ (s : State) (c : BitVec 8) (bits : BitVec 120) (imm : Bool),
    let w := iword (if imm then 0x11 else 0x10) bits
    let k := s.cl c.toNat
    CanIssue s c.toNat →
    onlyBits w (if imm then [(15, 8), (20, 16), (28, 24), (127, 64)] else [(15, 8), (20, 16), (28, 24), (36, 32)]) = true →
    (fld w 15 8 < 16 → ∃ t, exec (if imm then .alui c bits else .alu c bits) s = .next t ∧ OnlyCluster c.toNat s t ∧
      t.cl c.toNat = { k with pc := (t.cl c.toNat).pc, s := (t.cl c.toNat).s } ∧ PcAdvances k (t.cl c.toNat) ∧
      SregWritten k (t.cl c.toNat) (fld w 20 16)
        (aluValue (fld w 15 8) (BitVec.ofNat 64 (k.sreg (fld w 28 24)))
          (BitVec.ofNat 64 (if imm then fld w 127 64 else k.sreg (fld w 36 32)))).toNat) ∧
    (16 ≤ fld w 15 8 → ∃ t, exec (if imm then .alui c bits else .alu c bits) s = .next t ∧ Faulted c.toNat 0x01 true 0 0 s t)

/-- R319 to R322: NOP and HALT, JUMP with its link, BR by its condition, LOOP, which counts down and branches unless it reached zero. A
taken branch whose target leaves the local store, and an indirect target that is misaligned or outside it, is a precise ADDRESS fault; a
reserved condition is ILLEGAL. -/
def Obligations.ControlFlowFollowsTheTable : Prop :=
  ∀ (s : State) (c : BitVec 8) (bits : BitVec 120), CanIssue s c.toNat →
    let k := s.cl c.toNat
    let badTarget (i : Instr) : Prop := ∃ t a, exec i s = .next t ∧ Faulted c.toNat 0x06 true a 0 s t
    let goes (i : Instr) (pc : Nat) : Prop := ∃ t, exec i s = .next t ∧ OnlyCluster c.toNat s t ∧ t.cl c.toNat = { k with pc := pc }
    let goesOn (i : Instr) : Prop := ∃ t, exec i s = .next t ∧ OnlyCluster c.toNat s t ∧
      t.cl c.toNat = { k with pc := (t.cl c.toNat).pc } ∧ PcAdvances k (t.cl c.toNat)
    (onlyBits (iword 0x01 bits) [] = true → goesOn (.nop c bits)) ∧
    (onlyBits (iword 0x07 bits) [] = true → ∃ t, exec (.halt c bits) s = .next t ∧ OnlyCluster c.toNat s t ∧
      t.cl c.toNat = { k with pc := (t.cl c.toNat).pc, st := .halting, ended := true }) ∧
    (let w := iword 0x02 bits
     let dst : Int := if bitN w 8 then (k.sreg (fld w 28 24) : Int) else k.pc + 16 * sfld w 63 32
     let inside : Prop := 0 ≤ dst ∧ dst < 0x200000 ∧ (bitN w 8 = true → dst % 16 = 0)
     onlyBits w [(8, 8), (20, 16), (28, 24), (63, 32)] = true →
      (inside → ∃ t, exec (.jump c bits) s = .next t ∧ OnlyCluster c.toNat s t ∧
        t.cl c.toNat = { k with pc := dst.toNat, s := (t.cl c.toNat).s } ∧
        SregWritten k (t.cl c.toNat) (fld w 20 16) (k.pc + 16)) ∧
      (¬inside → badTarget (.jump c bits))) ∧
    (let w := iword 0x03 bits
     let a := BitVec.ofNat 64 (k.sreg (fld w 20 16))
     let b := if bitN w 11 then (BitVec.ofNat 32 (fld w 95 64)).signExtend 64 else BitVec.ofNat 64 (k.sreg (fld w 28 24))
     let holds := match fld w 10 8 with
       | 0 => a == b | 1 => a != b | 2 => a.slt b | 3 => !a.slt b | 4 => a.ult b | _ => !a.ult b
     let dst : Int := k.pc + 16 * sfld w 63 32
     onlyBits w [(10, 8), (11, 11), (20, 16), (28, 24), (63, 32), (95, 64)] = true →
      (fld w 10 8 < 6 → holds = false → goesOn (.br c bits)) ∧
      (fld w 10 8 < 6 → holds = true → 0 ≤ dst ∧ dst < 0x200000 → goes (.br c bits) dst.toNat) ∧
      (fld w 10 8 < 6 → holds = true → ¬(0 ≤ dst ∧ dst < 0x200000) → badTarget (.br c bits)) ∧
      (6 ≤ fld w 10 8 → ∃ t, exec (.br c bits) s = .next t ∧ Faulted c.toNat 0x01 true 0 0 s t)) ∧
    (let w := iword 0x04 bits
     let n := (BitVec.ofNat 64 (k.sreg (fld w 20 16)) - 1#64).toNat
     let dst : Int := k.pc + 16 * sfld w 63 32
     onlyBits w [(20, 16), (63, 32)] = true →
      (n = 0 ∨ (0 ≤ dst ∧ dst < 0x200000) → ∃ t, exec (.loop c bits) s = .next t ∧ OnlyCluster c.toNat s t ∧
        t.cl c.toNat = { k with pc := (t.cl c.toNat).pc, s := (t.cl c.toNat).s } ∧
        (n = 0 → PcAdvances k (t.cl c.toNat)) ∧ (n ≠ 0 → (t.cl c.toNat).pc = dst.toNat) ∧
        SregWritten k (t.cl c.toNat) (fld w 20 16) n) ∧
      (n ≠ 0 → ¬(0 ≤ dst ∧ dst < 0x200000) → badTarget (.loop c bits)))

/-- R271 to R273, R275, R276, R323, R324, R362, R363: a WAIT whose counter meets its threshold is satisfied at issue, otherwise it holds
issue; WAIT_SATISFIED ends a hold whose threshold is reached; CONSUME subtracts the threshold. On e63 the step start is asked for as well,
so that only its own effects are stated there. WAIT_TIMEOUT faults a WAIT held longer than WAIT_LIMIT. A FENCE completes at issue where
the units and the writes it names are at rest, and otherwise holds issue until FENCE_COMPLETE finds them so; with ACQ the clean lines of
the scalar cache go and the load slots of QMASK drop what they hold and fetch it again. A QMASK without ACQ is ILLEGAL. Beside the rules
it rests on the model's readings in notes/assumptions/ 5, 6. -/
def Obligations.WaitsAndFencesHold : Prop :=
  ∀ (s : State) (c : BitVec 8),
    let k := s.cl c.toNat
    let next := (k.pc + 16) % 0x200000
    (∀ bits : BitVec 120, CanIssue s c.toNat →
      let w := iword 0x05 bits
      let thr := if bitN w 9 then k.sreg (fld w 28 24) else fld w 127 64
      let ev := fld w 21 16
      onlyBits w [(8, 8), (9, 9), (21, 16), (28, 24), (127, 64)] = true →
      (k.ev ev < thr → ∃ t, exec (.wait c bits) s = .next t ∧ OnlyCluster c.toNat s t ∧
        t.cl c.toNat = { k with hold := .wait ev thr (bitN w 8) s.tick }) ∧
      (thr ≤ k.ev ev → ev ≠ 63 → ∃ t, exec (.wait c bits) s = .next t ∧ OnlyCluster c.toNat s t ∧
        t.cl c.toNat = { k with pc := next, e := (t.cl c.toNat).e } ∧
        CounterWritten k (t.cl c.toNat) ev (if bitN w 8 then k.ev ev - thr else k.ev ev))) ∧
    (∀ ev thr consume since, k.hold = .wait ev thr consume since → thr ≤ k.ev ev → ev ≠ 63 → k.st = .running → s.clocked = true →
      ∃ t, exec (.waitSatisfied c) s = .next t ∧ OnlyCluster c.toNat s t ∧
        t.cl c.toNat = { k with pc := next, hold := .none, e := (t.cl c.toNat).e } ∧
        CounterWritten k (t.cl c.toNat) ev (if consume then k.ev ev - thr else k.ev ev)) ∧
    (∀ ev thr consume since, k.hold = .wait ev thr consume since → k.ev ev < thr → k.st = .running →
      (0 < k.waitLimit ∧ since + 1000 * k.waitLimit < s.tick → ∃ t, exec (.waitTimeout c) s = .next t ∧
        Faulted c.toNat 0x09 true 0 0 s t) ∧
      (k.waitLimit = 0 ∨ s.tick ≤ since + 1000 * k.waitLimit → exec (.waitTimeout c) s = .next s)) ∧
    (∀ bits : BitVec 120, CanIssue s c.toNat →
      let w := iword 0x70 bits
      onlyBits w [(18, 16), (31, 24)] = true → bitN w 17 = false →
      (bitN w 18 = false → fld w 31 24 = 0 → bitN w 16 = false ∨ k.unitsDone = true → ∃ t, exec (.fence c bits) s = .next t ∧
        OnlyCluster c.toNat s t ∧ t.cl c.toNat = { k with pc := next }) ∧
      (bitN w 18 = false → fld w 31 24 = 0 → bitN w 16 = true → k.unitsDone = false →
        ∃ t, exec (.fence c bits) s = .next t ∧ OnlyCluster c.toNat s t ∧
          t.cl c.toNat = { k with hold := .fence 1 (s.marks c.toNat) }) ∧
      (bitN w 18 = true → bitN w 16 = false ∨ k.unitsDone = true → ∃ t, exec (.fence c bits) s = .next t ∧
        t = { s with clusters := t.clusters, memsys := t.memsys } ∧ (∀ d, d ≠ c.toNat → t.cl d = s.cl d) ∧
        t.cl c.toNat = { k with pc := next, cache := (t.cl c.toNat).cache, slots := (t.cl c.toNat).slots } ∧
        (t.cl c.toNat).cache = k.cache.filter (fun p => !p.2.dirty.isEmpty) ∧
        ∀ q x, (q, x) ∈ k.slots → q < 8 → bitN w (24 + q) = true → x.desc.store = false →
          ∃ y, (q, y) ∈ (t.cl c.toNat).slots ∧ y = { x with fetch := x.take, ring := [], side := y.side, dist := x.desc.pfInit, quiet := 0 }) ∧
      (bitN w 18 = false → fld w 31 24 ≠ 0 → ∃ t, exec (.fence c bits) s = .next t ∧ Faulted c.toNat 0x01 true 0 0 s t)) ∧
    (∀ mask marks, k.hold = .fence mask marks → bitN mask 2 = false → k.st = .running → s.clocked = true →
      (bitN mask 0 = true → k.unitsDone = true) → (bitN mask 1 = true → s.relDone c.toNat marks = true) →
      ∃ t, exec (.fenceComplete c) s = .next t ∧ OnlyCluster c.toNat s t ∧ t.cl c.toNat = { k with pc := next, hold := .none })

/-- R267, R268, R270, R306, R307, R333, R334: EVSET writes its operand, EVSUB subtracts it modulo 2^64, EVRD reads the counter into a
scalar register; a program's write sets and its write to EV_ADD adds to a counter of a present cluster that is not fenced. Beside the
rules it rests on the model's readings in notes/assumptions/ 6, 29. -/
def Obligations.CountersAreSetSubtractedAndAdded : Prop :=
  ∀ (s : State) (c : BitVec 8),
    let k := s.cl c.toNat
    let next := (k.pc + 16) % 0x200000
    (∀ (bits : BitVec 120) (sub : Bool), CanIssue s c.toNat →
      let w := iword (if sub then 0x21 else 0x20) bits
      let v := if bitN w 8 then k.sreg (fld w 28 24) else fld w 127 64
      onlyBits w [(8, 8), (21, 16), (28, 24), (127, 64)] = true → fld w 21 16 ≠ 63 → (bitN w 8 = true → fld w 127 64 = 0) →
      ∃ t, exec (if sub then .evsub c bits else .evset c bits) s = .next t ∧ OnlyCluster c.toNat s t ∧
        t.cl c.toNat = { k with pc := next, e := (t.cl c.toNat).e } ∧
        CounterWritten k (t.cl c.toNat) (fld w 21 16)
          (if sub then (BitVec.ofNat 64 (k.ev (fld w 21 16)) - BitVec.ofNat 64 v).toNat else v)) ∧
    (∀ bits : BitVec 120, CanIssue s c.toNat →
      let w := iword 0x22 bits
      onlyBits w [(21, 16), (28, 24)] = true → fld w 21 16 ≠ 63 →
      ∃ t, exec (.evrd c bits) s = .next t ∧ OnlyCluster c.toNat s t ∧
        t.cl c.toNat = { k with pc := next, s := (t.cl c.toNat).s } ∧
        SregWritten k (t.cl c.toNat) (fld w 28 24) (k.ev (fld w 21 16))) ∧
    (∀ (e : BitVec 6) (v : BitVec 64), s.absent c.toNat = false → k.fenced = false → e ≠ 63 →
      (∃ t, exec (.eventCounterWrite c e v) s = .next t ∧ OnlyCluster c.toNat s t ∧ t.cl c.toNat = { k with e := (t.cl c.toNat).e } ∧
        CounterWritten k (t.cl c.toNat) e.toNat v.toNat) ∧
      (∃ t, exec (.evAdd c e v) s = .next t ∧ OnlyCluster c.toNat s t ∧ t.cl c.toNat = { k with e := (t.cl c.toNat).e } ∧
        CounterWritten k (t.cl c.toNat) e.toNat (k.ev e.toNat + v.toNat))) ∧
    (∀ (e : BitVec 6) (v : BitVec 64), s.absent c.toNat = true ∨ k.fenced = true ∨ e = 63 →
      exec (.eventCounterWrite c e v) s = .next s ∧ exec (.evAdd c e v) s = .next s)

/-- R266, R275, R306, R325 to R327: a SIGNAL within the device adds its value to a counter of the target cluster, and is discarded where
that cluster is absent or fenced; through a window to another device it becomes one operation there; without the permission of its window
it is a precise ADDRESS fault; with REL it holds issue until the condition of R275 is met. Beside the rules it rests on the model's
readings in notes/assumptions/ 6. -/
def Obligations.SignalsArriveTravelOrHold : Prop :=
  ∀ (s : State) (c : BitVec 8) (bits : BitVec 120), CanIssue s c.toNat →
    let k := s.cl c.toNat
    let j : Cluster := { k with pc := (k.pc + 16) % 0x200000 }
    let w := iword 0x06 bits
    let v := if bitN w 10 then k.sreg (fld w 44 40) else fld w 127 64
    let win := s.window c.toNat (fld w 37 32)
    onlyBits w [(8, 8), (9, 9), (10, 10), (21, 16), (31, 24), (37, 32), (44, 40), (127, 64)] = true → fld w 21 16 ≠ 63 →
    (bitN w 9 = true → bitN w 8 = true) →
    (win.valid = false ∨ win.wr = false → ∃ t, exec (.signal c bits) s = .next t ∧ Faulted c.toNat 0x06 true 0 0 s t) ∧
    (win.valid = true → win.wr = true → bitN w 8 = false →
      (win.dev = s.me → ∃ t, exec (.signal c bits) s = .next t ∧ t = { s with clusters := t.clusters } ∧
        ∀ d, let b := if d = c.toNat then j else s.cl d
          if d = fld w 31 24 ∧ s.absent d = false ∧ b.fenced = false then
            t.cl d = { b with e := (t.cl d).e } ∧ CounterWritten b (t.cl d) (fld w 21 16) (b.ev (fld w 21 16) + v)
          else t.cl d = b) ∧
      (win.dev ≠ s.me → ∃ t, exec (.signal c bits) s = .next t ∧ t = { s with clusters := t.clusters, fab := t.fab } ∧
        t.cl c.toNat = j ∧ (∀ d, d ≠ c.toNat → t.cl d = s.cl d) ∧ t.fab.opidNext = s.fab.opidNext + 1 ∧
        t.fab.ops = s.fab.ops ++ [{ opid := s.fab.opidNext, dest := win.dev, origin := .signal c.toNat, left := 1 }])) ∧
    (win.valid = true → win.wr = true → bitN w 8 = true →
      let s1 := s.cleanCache c.toNat
      let met := s1.relDone c.toNat (s1.marks c.toNat) && (!bitN w 9 || k.unitsDone)
      exec (.signal c bits) s = .next (if met then s1.sendSignal c.toNat w
        else s1.modCl c.toNat fun k => { k with hold := .rel w (s1.marks c.toNat) }))

/-- R298 to R302, R308: a halt request stops a running cluster from issuing and abandons what it holds; a halting cluster whose units have
come to rest is HALTED; RESUME runs an IDLE or HALTED cluster that has neither a fault nor the fence bit, its stopped MMA and its paused
slots with it. -/
def Obligations.ClustersHaltAndResume : Prop :=
  ∀ (s : State) (c : BitVec 8),
    let k := s.cl c.toNat
    (s.absent c.toNat = false →
      (∃ t, exec (.haltReq c) s = .next t ∧ OnlyCluster c.toNat s t ∧
        t.cl c.toNat = (match k.st with
          | .idle => k
          | .running => { k with st := .halting, hold := .none, ended := false, haltReq := true }
          | _ => { k with haltReq := true })) ∧
      (∃ t, exec (.resume c) s = .next t ∧ OnlyCluster c.toNat s t ∧
        (k.fault = true ∨ k.fenced = true ∨ k.st = .running ∨ k.st = .halting → t.cl c.toNat = k) ∧
        (k.fault = false → k.fenced = false → k.st = .idle → t.cl c.toNat = { k with st := .running }) ∧
        (k.fault = false → k.fenced = false → k.st = .halted →
          t.cl c.toNat = { k with st := .running, haltReq := false, mma0 := (t.cl c.toNat).mma0, slots := (t.cl c.toNat).slots } ∧
          (t.cl c.toNat).mma0 = k.mma0.map (fun m => { m with stopped := false }) ∧
          ∀ q, (t.cl c.toNat).slot q = if (k.slot q).state = .paused then { k.slot q with state := .running } else k.slot q))) ∧
    (s.absent c.toNat = true → exec (.haltReq c) s = .next s ∧ exec (.resume c) s = .next s) ∧
    (k.st = .halting → s.clocked = true → k.pour0 = none → k.pour1 = none → k.load0 = none → k.load1 = none →
      (∀ m, k.mma0 = some m → m.stopped = true ∨ m.started = false) →
      ∃ t, exec (.clusterHalted c) s = .next t ∧ OnlyCluster c.toNat s t ∧ t.cl c.toNat = { k with st := .halted })

/-- R330 to R332, R464, R467: LD and ST on a local store act at once; on HBM they act on a line that the scalar cache holds (a store on
one it owns) and otherwise ask the line's home slice and hold issue. A misaligned or too wide address is a precise ADDRESS fault and
poison a precise POISON fault that leaves RD. Beside the rules it rests on the model's readings in notes/assumptions/ 6, 49, 81, 84. -/
def Obligations.ScalarAccessesReadAndWrite : Prop :=
  ∀ (s : State) (c : BitVec 8) (bits : BitVec 120) (st : Bool), CanIssue s c.toNat →
    let k := s.cl c.toNat
    let next := (k.pc + 16) % 0x200000
    let w := iword (if st then 0x19 else 0x18) bits
    let i : Instr := if st then .st c bits else .ld c bits .clean
    let n := 2 ^ fld w 9 8
    let a := (BitVec.ofNat 64 (k.sreg (fld w 28 24)) + BitVec.ofInt 64 (if st then 32 * sfld w 63 37 else sfld w 63 32)).toNat
    let value := fun v => if bitN w 10 then ((BitVec.ofNat (8 * n) v).signExtend 64).toNat else v
    onlyBits w (if st then [(9, 8), (28, 24), (36, 32), (63, 37)] else [(9, 8), (10, 10), (20, 16), (28, 24), (63, 32)]) = true →
    (2 ^ 48 ≤ a ∨ a % n ≠ 0 → ∃ t, exec i s = .next t ∧ Faulted c.toNat 0x06 true a 0 s t) ∧
    (a < 2 ^ 48 → a % n = 0 →
      (∀ d off, s.place a = .ls d off → s.absent d = false → (s.cl d).fenced = false →
        (st = false → s.poisoned a n = false → ∃ t, exec i s = .next t ∧ OnlyCluster c.toNat s t ∧
          t.cl c.toNat = { k with pc := next, s := (t.cl c.toNat).s } ∧
          SregWritten k (t.cl c.toNat) (fld w 20 16) (value (leAt (s.bytes a n) 0 n))) ∧
        (st = false → s.poisoned a n = true → k.fault = false → ∃ t, exec i s = .next t ∧
          (t.cl c.toNat).cause = 0x08 ∧ (t.cl c.toNat).precise = true ∧ (t.cl c.toNat).faultAddr = a ∧ (t.cl c.toNat).faultPc = k.pc ∧
          (t.cl c.toNat).s = k.s ∧ (t.cl c.toNat).st = .halting ∧ t.mem = s.mem) ∧
        (st = true → ∃ t, exec i s = .next t ∧
          t = { s with clusters := t.clusters, mem := t.mem, poison := t.poison, memsys := t.memsys } ∧
          (∀ e, e ≠ c.toNat → t.cl e = s.cl e) ∧ t.cl c.toNat = { k with pc := next } ∧
          ∀ b, t.byte b = if a ≤ b ∧ b < a + n then BitVec.ofNat 8 (k.sreg (fld w 36 32) / 2 ^ (8 * (b - a))) else s.byte b)) ∧
      (s.place a = .hbm →
        (∀ x, tabFind k.cache (a / 128) = some x → st = false → bitN x.bad (a % 128 / 32) = false →
          ∃ t, exec i s = .next t ∧ OnlyCluster c.toNat s t ∧ t.cl c.toNat = { k with pc := next, s := (t.cl c.toNat).s } ∧
            SregWritten k (t.cl c.toNat) (fld w 20 16) (value (leAt x.data (a % 128) n))) ∧
        (∀ x, tabFind k.cache (a / 128) = some x → st = true → x.st ≠ .shared →
          ∃ t y, exec i s = .next t ∧ OnlyCluster c.toNat s t ∧ t.cl c.toNat = { k with pc := next, cache := (t.cl c.toNat).cache } ∧
            tabFind (t.cl c.toNat).cache (a / 128) = some y ∧ y.st = .modified ∧
            y.data = patch x.data (a % 128) (leBytes n (k.sreg (fld w 36 32))) ∧
            ∀ l, l ≠ a / 128 → tabFind (t.cl c.toNat).cache l = tabFind k.cache l) ∧
        (tabFind k.cache (a / 128) = none ∨ st = true ∧ (∃ x, tabFind k.cache (a / 128) = some x ∧ x.st = .shared) →
          ∃ t, exec i s = .next t ∧ t = { s with clusters := t.clusters, memsys := { s.memsys with slices := t.memsys.slices } } ∧
            (∀ e, e ≠ c.toNat → t.cl e = s.cl e) ∧ t.cl c.toNat = { k with hold := .line w } ∧
            (t.slice (s.lineHome (a / 128))).reqs =
              (s.slice (s.lineHome (a / 128))).reqs ++ [{ line := a / 128, who := c.toNat, own := st }])))

/-- R280, R286, R287, R335 to R338: QCFG puts the descriptor that it reads into an idle slot, QGO launches a configured dense slot whose
descriptor passes its checks, QEND ends a running slot; the wrong slot state is a precise SLOT fault. Beside the rules it rests on the
model's readings in notes/assumptions/ 6, 7, 82. -/
def Obligations.StreamSlotsAreConfiguredLaunchedAndEnded : Prop :=
  ∀ (s : State) (c : BitVec 8) (bits : BitVec 120), CanIssue s c.toNat →
    let k := s.cl c.toNat
    let next := (k.pc + 16) % 0x200000
    let w (op : Nat) := iword op bits
    (let q := fld (w 0x30) 19 16
     let off := fld (w 0x30) 52 32
     onlyBits (w 0x30) [(8, 8), (19, 16), (52, 32)] = true → q < 12 → off % 32 = 0 → off + 64 ≤ 0x200000 → ∀ remote,
      ((k.slot q).state = .configured ∨ (k.slot q).state = .running ∨ (k.slot q).state = .paused →
        ∃ t, exec (.qcfg c bits remote) s = .next t ∧ Faulted c.toNat 0x07 true 0 q s t) ∧
      ((k.slot q).state = .idle ∨ (k.slot q).state = .done ∨ (k.slot q).state = .fault → bitN (w 0x30) 8 = false →
        s.poisoned (lsBase c.toNat + off) 64 = false →
        ∃ t, exec (.qcfg c bits remote) s = .next t ∧ t = { s with clusters := t.clusters, memsys := t.memsys } ∧
          (∀ d, d ≠ c.toNat → t.cl d = s.cl d) ∧ t.cl c.toNat = { k with pc := next, slots := (t.cl c.toNat).slots } ∧
          ∀ r, (t.cl c.toNat).slot r = if r = q then { state := .configured, desc := streamDescOf (s.lsBytes c.toNat off 64) } else k.slot r)) ∧
    (let q := fld (w 0x31) 19 16
     let x := k.slot q
     onlyBits (w 0x31) [(19, 16)] = true → q < 12 → ∀ remote,
      (x.state ≠ .configured → ∃ t, exec (.qgo c bits remote) s = .next t ∧ Faulted c.toNat 0x07 true 0 q s t) ∧
      (x.state = .configured → x.desc.pod = false → x.desc.ok q false = true →
        ∃ t, exec (.qgo c bits remote) s = .next t ∧ OnlyCluster c.toNat s t ∧
          t.cl c.toNat = { k with pc := next, slots := (t.cl c.toNat).slots } ∧
          ∀ r, (t.cl c.toNat).slot r = if r = q then
            { state := .running, desc := x.desc, dist := if x.desc.store then 0 else x.desc.pfInit, slCursor := x.desc.slA }
            else k.slot r) ∧
      (x.state = .configured → x.desc.pod = false → x.desc.ok q false = false → k.fault = false →
        ∃ t, exec (.qgo c bits remote) s = .next t ∧ (t.cl c.toNat).cause = 0x05 ∧ (t.cl c.toNat).precise = true ∧
          (t.cl c.toNat).faultPc = k.pc ∧ (t.cl c.toNat).st = .halting ∧ ((t.cl c.toNat).slot q).state = .fault ∧ t.mem = s.mem)) ∧
    (let q := fld (w 0x32) 19 16
     let x := k.slot q
     onlyBits (w 0x32) [(19, 16)] = true → q < 12 →
      (x.state = .idle ∨ x.state = .done ∨ x.state = .fault → ∃ t, exec (.qend c bits) s = .next t ∧ OnlyCluster c.toNat s t ∧
        t.cl c.toNat = { k with pc := next }) ∧
      (x.state = .configured → ∃ t, exec (.qend c bits) s = .next t ∧ OnlyCluster c.toNat s t ∧
        t.cl c.toNat = { k with pc := next, slots := (t.cl c.toNat).slots } ∧
        ∀ r, (t.cl c.toNat).slot r = if r = q then { x with state := .idle } else k.slot r) ∧
      ((x.state = .running ∨ x.state = .paused) → x.desc.store = false → x.flying = true →
        ∃ t, exec (.qend c bits) s = .next t ∧ OnlyCluster c.toNat s t ∧ t.cl c.toNat = { k with pc := next, slots := (t.cl c.toNat).slots } ∧
          ∀ r, (t.cl c.toNat).slot r = if r = q then
            { x with ending := true, take := x.fetch, ring := x.ring.filter (fun p => decide (p.2 = .flying)), side := [] } else k.slot r) ∧
      ((x.state = .running ∨ x.state = .paused) → x.desc.store = true → x.held ≠ [] →
        ∃ t, exec (.qend c bits) s = .next t ∧ OnlyCluster c.toNat s t ∧ t.cl c.toNat = { k with pc := next, slots := (t.cl c.toNat).slots } ∧
          ∀ r, (t.cl c.toNat).slot r = if r = q then { x with ending := true } else k.slot r) ∧
      ((x.state = .running ∨ x.state = .paused) → (if x.desc.store then x.held = [] else x.flying = false) →
        ∃ t, exec (.qend c bits) s = .next t ∧ OnlyCluster c.toNat s t ∧
          t.cl c.toNat = { k with pc := next, slots := (t.cl c.toNat).slots, e := (t.cl c.toNat).e } ∧
          CounterWritten k (t.cl c.toNat) x.desc.ev
            (k.ev x.desc.ev + if x.desc.evEn = true ∧ 0 < x.since ∧ s.absent c.toNat = false then 1 else 0) ∧
          ((t.cl c.toNat).slot q).state = .done ∧ ((t.cl c.toNat).slot q).ending = false ∧
          ∀ r, r ≠ q → (t.cl c.toNat).slot r = k.slot r))

/-- An instruction entered the load unit: the first free place, the refill visits it serves marked, PC advanced. -/
def Sys2Proof.Claims.LoadEntered (k j : Cluster) (w : Nat) (op : LoadOp) (fills : List Fill) : Prop :=
  let r : LoadRun := { w := w, pc := k.pc, seq := k.issued, fills := fills, op := op }
  (k.load0 = none → j.load0 = some r ∧ j.load1 = k.load1) ∧ (k.load0 ≠ none → j.load0 = k.load0 ∧ j.load1 = some r) ∧
  j.pc = (k.pc + 16) % 0x200000 ∧ j.issued = k.issued + 1

/-- R262 to R265, R346 to R349: TLM, TST, LUTLD and RTLD enter the load unit at issue where it has a place and nothing they wait for is
outstanding, and where it has none they hold issue; a misplaced offset is a precise ADDRESS fault, a bad rescale header a precise TABLE
fault. Tile registers and tables are written only at completion. Beside the rules it rests on the model's readings in notes/assumptions/
5, 6. -/
def Obligations.LoadUnitInstructionsEnter : Prop :=
  ∀ (s : State) (c : BitVec 8) (bits : BitVec 120), CanIssue s c.toNat →
    let k := s.cl c.toNat
    let free : Prop := k.load0 = none ∨ k.load1 = none
    let same (t : State) : Prop := OnlyCluster c.toNat s t ∧ t.cl c.toNat = { k with
      pc := (t.cl c.toNat).pc, issued := (t.cl c.toNat).issued, load0 := (t.cl c.toNat).load0, load1 := (t.cl c.toNat).load1,
      mma0 := (t.cl c.toNat).mma0, mma1 := (t.cl c.toNat).mma1 }
    (let w := iword 0x41 bits
     let off := fld w 52 32
     let reg := fld w 19 16
     onlyBits w [(12, 12), (19, 16), (29, 24), (52, 32)] = true → fld w 29 24 ≠ 63 →
      (off % 32 ≠ 0 ∨ 0x200000 < off + 16384 → ∃ t, exec (.tlm c bits) s = .next t ∧
        Faulted c.toNat 0x06 true (lsBase c.toNat + off) 0 s t) ∧
      (off % 32 = 0 → off + 16384 ≤ 0x200000 →
        (free → k.readPending reg = false → k.needsMet (k.needsOf [reg] 0) = true → ∃ t, exec (.tlm c bits) s = .next t ∧ same t ∧
          LoadEntered k (t.cl c.toNat) w (.tlm reg off) (k.fillsOf [reg] 0)) ∧
        (¬free ∨ k.readPending reg = true ∨ k.needsMet (k.needsOf [reg] 0) = false → ∃ t, exec (.tlm c bits) s = .next t ∧
          OnlyCluster c.toNat s t ∧ t.cl c.toNat = { k with hold := .stall w false }))) ∧
    (let w := iword 0x42 bits
     let off := fld w 52 32
     let reg := fld w 19 16
     let q := fld w 23 20
     let x := k.slot q
     onlyBits w [(8, 8), (12, 12), (19, 16), (23, 20), (29, 24), (52, 32)] = true → fld w 29 24 ≠ 63 →
      (free → k.loadPending [reg] = false → k.pourPending reg = false →
        (bitN w 8 = false → off % 32 = 0 → off + 16384 ≤ 0x200000 → ∃ t, exec (.tst c bits) s = .next t ∧ same t ∧
          LoadEntered k (t.cl c.toNat) w (.tst reg off) []) ∧
        (bitN w 8 = true → 8 ≤ q → q < 12 → x.state = .running → x.ending = false → x.desc.pod = false → x.desc.fromTst = true →
          x.desc.f10 = 128 → ∃ t, exec (.tst c bits) s = .next t ∧ same t ∧ LoadEntered k (t.cl c.toNat) w (.tstSlot reg q) [])) ∧
      (bitN w 8 = true → q < 12 → q < 8 ∨ x.state ≠ .running ∨ x.ending = true ∨ x.desc.pod = true ∨ x.desc.fromTst = false ∨
        x.desc.f10 ≠ 128 → ∃ t, exec (.tst c bits) s = .next t ∧ Faulted c.toNat 0x07 true 0 q s t)) ∧
    (let w := iword 0x43 bits
     let off := fld w 52 32
     onlyBits w [(12, 12), (17, 16), (29, 24), (52, 32)] = true → fld w 29 24 ≠ 63 → off % 32 = 0 → off + 1056 ≤ 0x200000 → free →
      ∃ t, exec (.lutld c bits) s = .next t ∧ same t ∧ LoadEntered k (t.cl c.toNat) w (.lut (fld w 17 16) off) []) ∧
    (let w := iword 0x44 bits
     let off := fld w 52 32
     let ch := leAt (s.lsBytes c.toNat off 32) 0 2
     let rest := (slice (s.lsBytes c.toNat off 32) 2 30).all (· == 0#8)
     onlyBits w [(12, 12), (17, 16), (29, 24), (52, 32)] = true → fld w 29 24 ≠ 63 → off % 32 = 0 → off + 32 ≤ 0x200000 → free →
      (1 ≤ ch → ch ≤ 4096 → rest = true → off + 32 + 8 * ch ≤ 0x200000 → ∃ t, exec (.rtld c bits) s = .next t ∧ same t ∧
        LoadEntered k (t.cl c.toNat) w (.rt (fld w 17 16) off ch) []) ∧
      (ch = 0 ∨ 4096 < ch ∨ rest = false → ∃ t, exec (.rtld c bits) s = .next t ∧
        Faulted c.toNat 0x04 true (lsBase c.toNat + off) 0 s t))

/-- R262, R263, R350, R351, R359: an MMA enters the array at issue where a place is free, and a Pour the vector engine; with no place they
hold issue. A ring that is misaligned or overlaps another is ILLEGAL. Beside the rules it rests on the model's readings in
notes/assumptions/ 5, 6. -/
def Obligations.ArrayAndVectorInstructionsEnter : Prop :=
  ∀ (s : State) (c : BitVec 8) (bits : BitVec 120), CanIssue s c.toNat →
    let k := s.cl c.toNat
    let next := (k.pc + 16) % 0x200000
    (let w := iword 0x50 bits
     let na := 2 ^ fld w 21 20
     let nb := 2 ^ fld w 29 28
     let ra := fld w 19 16
     let rb := fld w 27 24
     let rings := ra % na = 0 ∧ rb % nb = 0 ∧ (ra + na ≤ rb ∨ rb + nb ≤ ra ∨ ra = rb ∧ na = nb ∧ fld w 34 32 = fld w 38 36)
     onlyBits w [(8, 8), (9, 9), (10, 10), (11, 11), (12, 12), (19, 16), (21, 20), (27, 24), (29, 28), (34, 32), (38, 36), (45, 40),
        (55, 48), (82, 64)] = true → fld w 34 32 < 5 → fld w 38 36 < 5 → fld w 45 40 ≠ 63 →
      (¬rings → ∃ t, exec (.mma c bits) s = .next t ∧ Faulted c.toNat 0x01 true 0 0 s t) ∧
      (rings → k.mma0 = none → ∃ t m, exec (.mma c bits) s = .next t ∧ OnlyCluster c.toNat s t ∧
        t.cl c.toNat = { k with pc := next, issued := k.issued + 1, mma0 := some m } ∧
        m.w = w ∧ m.pc = k.pc ∧ m.seq = k.issued ∧ m.started = false ∧ m.k = 0 ∧ m.corr = 0) ∧
      (rings → k.mma0 ≠ none → k.mma1 = none → ∃ t m, exec (.mma c bits) s = .next t ∧ OnlyCluster c.toNat s t ∧
        t.cl c.toNat = { k with pc := next, issued := k.issued + 1, mma1 := some m } ∧
        m.w = w ∧ m.pc = k.pc ∧ m.seq = k.issued ∧ m.started = false ∧ m.k = 0 ∧ m.corr = 0) ∧
      (rings → k.mma0 ≠ none → k.mma1 ≠ none → ∃ t, exec (.mma c bits) s = .next t ∧ OnlyCluster c.toNat s t ∧
        t.cl c.toNat = { k with hold := .stall w false })) ∧
    (let w := iword 0x58 bits
     let off := fld w 52 32
     let src := fld w 20 16
     let dst := fld w 28 24
     let ch := s.lsBytes c.toNat off (32 + 16 * min 8 (chainCount (s.lsBytes c.toNat off 1)))
     onlyBits w [(8, 8), (9, 9), (20, 16), (28, 24), (52, 32), (69, 64)] = true → src ≤ 0x11 → fld w 69 64 ≠ 63 →
      off % 32 = 0 → off + 160 ≤ 0x200000 →
      let x := k.slot (dst - 0x10)
      let toSlot : Prop := 0x18 ≤ dst ∧ dst ≤ 0x1B
      let open_ : Prop := x.state = .running ∧ x.ending = false ∧ x.desc.fromTst = false
      let fault := chainFault { src := src, dst := dst, transpose := bitN w 8, slotPod := x.desc.pod,
                                slotFmt := x.tensor.map (·.fmt), c := k.issueView } ch
      (toSlot → ¬open_ → ∃ t, exec (.pour c bits) s = .next t ∧ Faulted c.toNat 0x07 true 0 (dst - 0x10) s t) ∧
      (dst < 0x10 ∨ toSlot ∧ open_ → ∀ stage code, fault = some (stage, code) → k.fault = false → ∃ t, exec (.pour c bits) s = .next t ∧
        (t.cl c.toNat).cause = 0x03 ∧ (t.cl c.toNat).precise = true ∧ (t.cl c.toNat).faultPc = k.pc ∧
        (t.cl c.toNat).pourFault = true ∧ (t.cl c.toNat).pourStage = stage ∧ (t.cl c.toNat).pourCode = code ∧
        (t.cl c.toNat).st = .halting ∧ (t.cl c.toNat).pour0 = k.pour0 ∧ t.mem = s.mem) ∧
      (dst < 0x10 ∨ toSlot ∧ open_ ∧ (k.slotAhead (dst - 0x10)).pourBad (chainDst ch) = false →
        fault = none → k.pour0 = none → k.loadPending (pourReads w ch) = false →
        (0x10 ≤ src → ∀ m ∈ k.mmas, m.set ≠ src - 0x10) → k.needsMet (k.needsOf (pourDsts w ch) (pourSlab w ch)) = true →
        ∃ t p, exec (.pour c bits) s = .next t ∧ OnlyCluster c.toNat s t ∧
          t.cl c.toNat = { k with pc := next, issued := k.issued + 1, pour0 := some p, mma0 := (t.cl c.toNat).mma0, mma1 := (t.cl c.toNat).mma1 } ∧
          p.w = w ∧ p.pc = k.pc ∧ p.seq = k.issued ∧ p.chain = ch ∧ p.out = none) ∧
      (dst < 0x10 ∨ toSlot ∧ open_ ∧ (k.slotAhead (dst - 0x10)).pourBad (chainDst ch) = false →
        fault = none → k.pour0 ≠ none → k.pour1 ≠ none → ∃ t, exec (.pour c bits) s = .next t ∧ OnlyCluster c.toNat s t ∧
        t.cl c.toNat = { k with hold := .stall w false }))

/-- R264, R265, R290, R340, R345: a raw TLD takes 128 rows of its dense slot into the load unit where they are in the ring, holds issue
where they are not, and is a precise SLOT fault in a slot that is idle, configured, faulted or of another mode. UNIT_ENTRY lets in an
instruction that held issue once its unit has a place. Beside the rules it rests on the model's readings in notes/assumptions/ 6. -/
def Obligations.TileLoadsTakeItemsAndStalledInstructionsEnter : Prop :=
  ∀ (s : State) (c : BitVec 8),
    let k := s.cl c.toNat
    (∀ (bits : BitVec 120) (grid : Option (List Byte)), CanIssue s c.toNat →
      let w := iword 0x40 bits
      let q := fld w 23 20
      let td := fld w 19 16
      let x := k.slot q
      onlyBits w [(8, 8), (10, 9), (11, 11), (12, 12), (19, 16), (23, 20), (29, 24), (52, 32), (78, 64)] = true → bitN w 8 = true →
      fld w 10 9 = 0 → bitN w 11 = false → fld w 52 32 = 0 → fld w 78 64 = 0 → fld w 29 24 ≠ 63 → q < 12 →
      (8 ≤ q ∨ x.state = .idle ∨ x.state = .configured ∨ x.state = .fault ∨ x.state = .done ∧ x.fetch - x.take < 128 ∨
          x.desc.pod = true ∨ x.desc.f10 ≠ 128 ∨ x.desc.ringItems < 128 →
        ∃ t, exec (.tld c bits grid) s = .next t ∧ Faulted c.toNat 0x07 true 0 q s t) ∧
      (q < 8 → x.state = .running ∨ x.state = .paused → x.ending = false → x.desc.pod = false → x.desc.f10 = 128 → 128 ≤ x.desc.ringItems →
        (k.load0 = none ∨ k.load1 = none) → k.readPending td = false → k.needsMet (k.needsOf [td] 0) = true →
        ((∀ i, i < 128 → tabFind x.ring (x.take + i) = some .ready) → ∃ t p, exec (.tld c bits grid) s = .next t ∧ OnlyCluster c.toNat s t ∧
          LoadEntered k (t.cl c.toNat) w (.raw td (tabOf 0#8 16384 fun b => s.byte (x.ringAddr c.toNat (x.take + b / 128) + b % 128)) p)
            (k.fillsOf [td] 0) ∧
          ((t.cl c.toNat).slot q).take = x.take + 128 ∧ (∀ r, r ≠ q → (t.cl c.toNat).slot r = k.slot r) ∧
          (t.cl c.toNat).tiles = k.tiles ∧ (t.cl c.toNat).s = k.s ∧ (t.cl c.toNat).e = k.e) ∧
        (tabFind x.ring x.take = none → ∃ t, exec (.tld c bits grid) s = .next t ∧ OnlyCluster c.toNat s t ∧
          t.cl c.toNat = { k with hold := .stall w true }))) ∧
    (∀ (w : Nat) (starved : Bool) (grid : Option (List Byte)), k.st = .running → k.fenced = false → s.clocked = true →
      k.hold = .stall w starved → w % 256 = 0x43 → onlyBits w [(12, 12), (17, 16), (29, 24), (52, 32)] = true → fld w 29 24 ≠ 63 →
      fld w 52 32 % 32 = 0 → fld w 52 32 + 1056 ≤ 0x200000 →
      (k.load0 = none ∨ k.load1 = none → ∃ t, exec (.unitEntry c grid) s = .next t ∧ OnlyCluster c.toNat s t ∧ (t.cl c.toNat).hold = .none ∧
        LoadEntered k (t.cl c.toNat) w (.lut (fld w 17 16) (fld w 52 32)) [] ∧ (t.cl c.toNat).luts = k.luts) ∧
      (k.load0 ≠ none → k.load1 ≠ none → ∃ t, exec (.unitEntry c grid) s = .next t ∧ OnlyCluster c.toNat s t ∧
        t.cl c.toNat = { k with hold := .stall w starved }))

/-- R360, R361, R540 to R544: each EXCH posts its operation: within this device the post waits in the engine with the fields of its
descriptor, an atomic to another device sends one packet, and a descriptor that the checks reject is an imprecise EXCH fault. With 16
posts of the cluster outstanding the instruction holds issue. Beside the rules it rests on the model's readings in notes/assumptions/ 6,
8, 32. -/
def Obligations.ExchangesPost : Prop :=
  ∀ (s : State) (c : BitVec 8) (bits : BitVec 120) (kind : Nat) (op : BitVec 8 → BitVec 120 → Instr), CanIssue s c.toNat →
    (kind, op) ∈ [(0x01, Instr.exchWrite), (0x02, .exchRead), (0x03, .exchReduceWrite), (0x04, .exchAtomic), (0x10, .reduceScatter),
      (0x11, .allGather), (0x12, .allToAll), (0x13, .broadcast)] →
    let k := s.cl c.toNat
    let next := (k.pc + 16) % 0x200000
    let w := exchWord kind bits
    let off := fld w 52 32
    let d := postOf kind (s.lsBytes c.toNat off 64)
    let mine := (s.fab.posts.filter fun p => decide (p.owner = c.toNat)).length
    onlyBits w [(8, 8), (9, 9), (23, 16), (29, 24), (52, 32)] = true → fld w 29 24 ≠ 63 → off % 32 = 0 → off + 64 ≤ 0x200000 →
    (16 ≤ mine → ∃ t, exec (op c bits) s = .next t ∧ OnlyCluster c.toNat s t ∧ t.cl c.toNat = { k with hold := .stall w false }) ∧
    (mine < 16 → bitN w 9 = false → s.poisoned (lsBase c.toNat + off) 64 = false →
      (s.postCheck c.toNat d = none → k.fault = false → ∃ t, exec (op c bits) s = .next t ∧
        t.cl c.toNat = { k with pc := next, st := .halting, ended := false, fault := true, cause := 0x0A, precise := false, faultPc := next,
                                faultAddr := 0, faultSlot := 0 } ∧
        (∀ e, e ≠ c.toNat → t.cl e = s.cl e) ∧ t.fab = s.fab ∧ t.mem = s.mem) ∧
      (∀ dev a, s.postCheck c.toNat d = some (dev, a) →
        let p : Post := { id := s.fab.postNext, owner := c.toNat, desc := d, ev := if bitN w 8 then some (fld w 29 24) else none,
                          dev := dev, raddr := a }
        (kind < 0x10 → d.verify = false → dev = s.me → ∃ t, exec (op c bits) s = .next t ∧
          t = { s with clusters := t.clusters, fab := { s.fab with postNext := s.fab.postNext + 1, posts := s.fab.posts ++ [p] } } ∧
          t.cl c.toNat = { k with pc := next } ∧ (∀ e, e ≠ c.toNat → t.cl e = s.cl e)) ∧
        (kind = 0x04 → dev ≠ s.me → ∃ t, exec (op c bits) s = .next t ∧ t = { s with clusters := t.clusters, fab := t.fab } ∧
          t.cl c.toNat = { k with pc := next } ∧ (∀ e, e ≠ c.toNat → t.cl e = s.cl e) ∧ t.fab.posts = s.fab.posts ++ [p] ∧
          t.fab.ops = s.fab.ops ++ [{ opid := s.fab.opidNext, dest := dev, origin := .post s.fab.postNext, left := 1,
                                      toReturn := if d.aop = 0 then 0 else 8 }]) ∧
        (0x10 ≤ kind → ∃ t q, exec (op c bits) s = .next t ∧ (t.cl c.toNat).pc = next ∧ t.fab.postNext = s.fab.postNext + 1 ∧
          q ∈ t.fab.posts ∧ q.id = s.fab.postNext ∧ q.owner = c.toNat ∧ q.desc = d ∧ q.coll ≠ none)))

/-- R268, R282, R517, R518, R542: the completion of a post within this device makes its effect (a WRITE or READ copies bytes, an ATOMIC
without result adds), then the arrival, and the post is gone; it waits while operations of the post are outstanding. Beside the rules it
rests on the model's readings in notes/assumptions/ 32. -/
def Obligations.PostsCompleteWithTheirEffect : Prop :=
  ∀ (s : State) (p : Post), s.fab.posts.find? (fun q => decide (q.id = p.id)) = some p →
    ((∃ o ∈ s.fab.ops, o.origin = .post p.id) → exec (.exchComplete p.id) s = .next s) ∧
    ((∀ o ∈ s.fab.ops, o.origin ≠ .post p.id) → p.coll = none → p.dev = s.me → p.desc.verify = false → p.owner < 256 →
      let d := p.desc
      let gone (t : State) : Prop := t.fab.posts = s.fab.posts.filter (fun q => decide (q.id ≠ p.id)) ∧
        (∀ c, c ≠ p.owner → t.cl c = s.cl c) ∧ t.cl p.owner = { s.cl p.owner with e := (t.cl p.owner).e } ∧
        ∀ e, (t.cl p.owner).ev e = if p.ev = some e ∧ s.absent p.owner = false ∧ (s.cl p.owner).fenced = false then
            ((s.cl p.owner).ev e + 1) % 2 ^ 64 else (s.cl p.owner).ev e
      (d.kind = 1 → s.place p.raddr = .hbm → p.raddr + d.count ≤ s.memsys.hbmTop → ∃ t, exec (.exchComplete p.id) s = .next t ∧ gone t ∧
        ∀ b, t.byte b = if p.raddr ≤ b ∧ b < p.raddr + d.count then s.byte (d.loc + (b - p.raddr)) else s.byte b) ∧
      (d.kind = 2 → s.refuses p.raddr d.count = none → ∃ t, exec (.exchComplete p.id) s = .next t ∧ gone t ∧
        ∀ b, t.byte b = if d.loc ≤ b ∧ b < d.loc + d.count then s.byte (p.raddr + (b - d.loc)) else s.byte b) ∧
      (d.kind = 4 → d.aop = 0 → p.raddr % 8 = 0 → s.place p.raddr = .hbm → p.raddr + 8 ≤ s.memsys.hbmTop →
        (s.slice (s.lineHome (p.raddr / 128))).dir = [] → s.poisoned p.raddr 8 = false →
        ∃ t, exec (.exchComplete p.id) s = .next t ∧ gone t ∧
        leAt (t.bytes p.raddr 8) 0 8 = (leAt (s.bytes p.raddr 8) 0 8 + d.operand) % 2 ^ 64 ∧
        ∀ b, b < p.raddr ∨ p.raddr + 8 ≤ b → t.byte b = s.byte b))

/-- R315, R316, R318: a reserved opcode, and a set bit that the layout of the instruction does not define, is a precise ILLEGAL fault; a
poisoned word is a precise POISON fault. Beside the rules it rests on the model's readings in notes/assumptions/ 27. -/
def Obligations.UndefinedWordsAreIllegal : Prop :=
  ∀ (s : State) (c : BitVec 8), CanIssue s c.toNat →
    (∀ word : BitVec 128, word.toNat % 256 ∉ [0x01, 0x02, 0x03, 0x04, 0x05, 0x06, 0x07, 0x10, 0x11, 0x18, 0x19, 0x20, 0x21, 0x22, 0x30, 0x31,
        0x32, 0x40, 0x41, 0x42, 0x43, 0x44, 0x50, 0x58, 0x60, 0x70] →
      ∃ t, exec (.undecodableInstruction c word false) s = .next t ∧ Faulted c.toNat 0x01 true 0 0 s t) ∧
    (∀ word : BitVec 128, (s.cl c.toNat).fault = false → ∃ t, exec (.undecodableInstruction c word true) s = .next t ∧
      t.cl c.toNat = { s.cl c.toNat with fault := true, cause := 0x08, precise := true, faultPc := (s.cl c.toNat).pc, faultAddr := 0,
                                         faultSlot := 0, st := .halting, ended := false } ∧
      (∀ d, d ≠ c.toNat → t.cl d = s.cl d) ∧ t.mem = s.mem) ∧
    (∀ (bits : BitVec 120) (op : Nat) (i : Instr) (fs : List (Nat × Nat)),
      (op, i, fs) ∈ [(0x01, Instr.nop c bits, []), (0x02, .jump c bits, [(8, 8), (20, 16), (28, 24), (63, 32)]),
        (0x03, .br c bits, [(10, 8), (11, 11), (20, 16), (28, 24), (63, 32), (95, 64)]), (0x04, .loop c bits, [(20, 16), (63, 32)]),
        (0x05, .wait c bits, [(8, 8), (9, 9), (21, 16), (28, 24), (127, 64)]),
        (0x06, .signal c bits, [(8, 8), (9, 9), (10, 10), (21, 16), (31, 24), (37, 32), (44, 40), (127, 64)]), (0x07, .halt c bits, []),
        (0x10, .alu c bits, [(15, 8), (20, 16), (28, 24), (36, 32)]), (0x11, .alui c bits, [(15, 8), (20, 16), (28, 24), (127, 64)]),
        (0x18, .ld c bits .clean, [(9, 8), (10, 10), (20, 16), (28, 24), (63, 32)]),
        (0x19, .st c bits, [(9, 8), (28, 24), (36, 32), (63, 37)]), (0x20, .evset c bits, [(8, 8), (21, 16), (28, 24), (127, 64)]),
        (0x21, .evsub c bits, [(8, 8), (21, 16), (28, 24), (127, 64)]), (0x22, .evrd c bits, [(8, 8), (21, 16), (28, 24), (127, 64)]),
        (0x30, .qcfg c bits none, [(8, 8), (19, 16), (52, 32)]), (0x31, .qgo c bits none, [(19, 16)]), (0x32, .qend c bits, [(19, 16)]),
        (0x40, .tld c bits none, [(8, 8), (10, 9), (11, 11), (12, 12), (19, 16), (23, 20), (29, 24), (52, 32), (78, 64)]),
        (0x41, .tlm c bits, [(12, 12), (19, 16), (29, 24), (52, 32)]),
        (0x42, .tst c bits, [(8, 8), (12, 12), (19, 16), (23, 20), (29, 24), (52, 32)]),
        (0x43, .lutld c bits, [(12, 12), (17, 16), (29, 24), (52, 32)]), (0x44, .rtld c bits, [(12, 12), (17, 16), (29, 24), (52, 32)]),
        (0x50, .mma c bits, [(8, 8), (9, 9), (10, 10), (11, 11), (12, 12), (19, 16), (21, 20), (27, 24), (29, 28), (34, 32), (38, 36), (45, 40),
          (55, 48), (82, 64)]),
        (0x58, .pour c bits, [(8, 8), (9, 9), (20, 16), (28, 24), (52, 32), (69, 64)]), (0x70, .fence c bits, [(18, 16), (31, 24)])] →
      onlyBits (iword op bits) fs = false → ∃ t, exec i s = .next t ∧ Faulted c.toNat 0x01 true 0 0 s t) ∧
    (∀ (bits : BitVec 120) (kind : Nat) (op : BitVec 8 → BitVec 120 → Instr),
      (kind, op) ∈ [(0x01, Instr.exchWrite), (0x02, .exchRead), (0x03, .exchReduceWrite), (0x04, .exchAtomic), (0x10, .reduceScatter),
        (0x11, .allGather), (0x12, .allToAll), (0x13, .broadcast)] →
      onlyBits (exchWord kind bits) [(8, 8), (9, 9), (23, 16), (29, 24), (52, 32)] = false →
      ∃ t, exec (op c bits) s = .next t ∧ Faulted c.toNat 0x01 true 0 0 s t)

/-- The arrival of an instruction that names a counter: one is added where it asks for it and the cluster is there and not fenced. -/
def Sys2Proof.Claims.Arrived (s t : State) (c e : Nat) (en : Bool) : Prop :=
  CounterWritten (s.cl c) (t.cl c) e ((s.cl c).ev e + if en = true ∧ s.absent c = false ∧ (s.cl c).fenced = false then 1 else 0)

/-- R141, R149 to R151, R155, R159, R160, R355, R357: the array begins an issued MMA with its first K-steps, passes a refill visit whose
writes are complete and waits where they are not, runs the correction cycles of the next register entered, stops a halted MMA at a
progress point, and completes one whose K-steps and corrections are made with its arrival. Beside the rules it rests on the model's
readings in notes/assumptions/ 34. -/
def Obligations.TheArrayStartsAdvancesCorrectsAndCompletes : Prop :=
  ∀ (s : State) (c : BitVec 8),
    let k := s.cl c.toNat
    let kept (t : State) : Prop := OnlyCluster c.toNat s t ∧ t.cl c.toNat = { k with
      mma0 := (t.cl c.toNat).mma0, mma1 := (t.cl c.toNat).mma1, a0 := (t.cl c.toNat).a0, a1 := (t.cl c.toNat).a1,
      arith := (t.cl c.toNat).arith }
    s.clocked = true →
    (∀ m, k.mma0 = some m → (∀ n, k.mma1 = some n → n.seq ≠ m.seq ∧ n.started = false) → m.started = false → k.st = .running →
      k.fenced = false →
      (k.mmaLimit m false = 0 → exec (.mmaStart c) s = .next s) ∧
      (k.mmaLimit m false ≠ 0 → mmaBadReg k m = none → ∃ t m', exec (.mmaStart c) s = .next t ∧ kept t ∧ (t.cl c.toNat).mma0 = some m' ∧
        m'.started = true ∧ m'.k = m.k + m.early ∧ m'.w = m.w ∧ (t.cl c.toNat).mma1 = k.mma1)) ∧
    (∀ m r, k.current = some m → k.findMma m.seq = some m → m.refills.find? (fun r => decide (m.k ≤ r.start)) = some r →
      k.st = .running ∨ k.st = .halting →
      (r.ok = false → exec (.refillVisit c) s = .next s) ∧
      (r.ok = true → m.k = r.start → m.held = false → m.stopped = false → r.start < k.mmaLimit m false → mmaBadReg k m = none →
        ∃ t m', exec (.refillVisit c) s = .next t ∧ kept t ∧ (t.cl c.toNat).findMma m.seq = some m' ∧ m'.k = r.start + 1 ∧ m'.w = m.w)) ∧
    (∀ m e, k.mmas.find? (fun m => m.started && decide (m.corr < (mmaEntries m.w).length)) = some m → k.findMma m.seq = some m →
      (mmaEntries m.w)[m.corr]? = some e → e.1 < m.k → m.corr < enteredCount m.w m.k → m.held = false →
      k.st = .running ∨ k.st = .halting → k.stepStart = false →
      ∃ t m', exec (.correctionCycles c) s = .next t ∧ kept t ∧ (t.cl c.toNat).findMma m.seq = some m' ∧ m'.corr = m.corr + 1 ∧ m'.k = m.k ∧
        (t.cl c.toNat).acc m.set = (correctEntry k m.w m.corr (s.listItems c.toNat k) (k.acc m.set)).1) ∧
    (∀ m, k.mma0 = some m → (∀ n, k.mma1 = some n → n.seq ≠ m.seq) → m.started = true → m.held = false → m.k = mmaK m.w →
      m.corr = (mmaEntries m.w).length → k.st = .running → k.stepStart = false →
      ∃ t, exec (.mmaComplete c) s = .next t ∧ OnlyCluster c.toNat s t ∧
        t.cl c.toNat = { k with mma0 := k.mma1, mma1 := none, e := (t.cl c.toNat).e } ∧
        Arrived s t c.toNat (fld m.w 45 40) (bitN m.w 12)) ∧
    (∀ m (kp : BitVec 24), k.mma0 = some m → (∀ n, k.mma1 = some n → n.seq ≠ m.seq) → m.started = true → m.stopped = false → m.held = false →
      k.st = .halting → kp.toNat = m.k → 0 < m.k → m.k < mmaK m.w → m.k ≤ m.haltBound →
      m.k % progressUnit (mmaFmts m.w).1 (mmaFmts m.w).2 = 0 → enteredCount m.w m.k ≤ m.corr →
      ∃ t, exec (.mmaProgressStop c kp) s = .next t ∧ OnlyCluster c.toNat s t ∧
        t.cl c.toNat = { k with mma0 := some { m with stopped := true }, kDone := m.k, mmaPc := m.pc })

/-- R173, R197, R204, R214, R268, R341, R347 to R349, R485: a Pour computes all it reads when it starts and writes its registers when it
completes; a tile load, tile store or table load takes effect when it completes; each then makes its arrival. Beside the rules it rests on
the model's readings in notes/assumptions/ 31, 33. -/
def Obligations.PoursAndTileLoadsComplete : Prop :=
  ∀ (s : State) (c : BitVec 8), s.clocked = true →
    let k := s.cl c.toNat
    (∀ (p : PourRun) (grid : Option (List Byte)), k.pour0 = some p → p.out = none → p.late = false → fld p.w 28 24 < 0x18 → k.rtInv = 0#4 →
      (∀ l ∈ k.loads, l.op.isTable = false) →
      let r := pourRun { c := k, ls := s.lsBytes c.toNat, src := fld p.w 20 16, dst := fld p.w 28 24, transpose := bitN p.w 8, chain := p.chain }
        ((List.range 128).map (s.genOf c.toNat)) (k.slot (fld p.w 28 24 - 0x10))
      ∃ t, exec (.pourStart c grid) s = .next t ∧
        (t.cl c.toNat).pour0 = some { p with out := some { r.out with poison := s.pourPoison c.toNat p } } ∧
        t.mem = s.mem ∧ (t.cl c.toNat).tiles = k.tiles ∧ (t.cl c.toNat).s = k.s ∧ (t.cl c.toNat).e = k.e ∧
        (∀ d, d ≠ c.toNat → t.cl d = s.cl d)) ∧
    (∀ p o d x, k.pour0 = some p → p.out = some o → o.regs = [(d, x)] → o.slot = 0 → o.lists = [] → o.vecs = [] → k.stepStart = false →
      k.rtInv = 0#4 →
      ∃ t, exec (.pourComplete c) s = .next t ∧ OnlyCluster c.toNat s t ∧
        (∀ r, (t.cl c.toNat).tile r = if r = d then
          { x with poison := o.poison || (pourSlab p.w p.chain == 2 && (k.tile d).poison) } else k.tile r) ∧
        (t.cl c.toNat).pour0 = k.pour1 ∧ (t.cl c.toNat).pour1 = none ∧ (t.cl c.toNat).s = k.s ∧ (t.cl c.toNat).pc = k.pc ∧
        Arrived s t c.toNat (fld p.w 69 64) (bitN p.w 9)) ∧
    (∀ l (side : Tab (List Byte)), k.load0 = some l →
      let done (t : State) : Prop := (t.cl c.toNat).load0 = k.load1 ∧ (t.cl c.toNat).load1 = none ∧ (t.cl c.toNat).s = k.s ∧
        (t.cl c.toNat).pc = k.pc ∧ (∀ d, d ≠ c.toNat → t.cl d = s.cl d) ∧ Arrived s t c.toNat (fld l.w 29 24) (bitN l.w 12)
      (∀ td off, l.op = .tlm td off → ∃ t, exec (.tileLoadComplete c side) s = .next t ∧ done t ∧ t.mem = s.mem ∧
        ((t.cl c.toNat).tile td).tag = {} ∧ ((t.cl c.toNat).tile td).poison = s.poisoned (lsBase c.toNat + off) 16384 ∧
        (∀ b, b < 16384 → tabGet 0#8 ((t.cl c.toNat).tile td).bytes b = s.byte (lsBase c.toNat + off + b)) ∧
        ∀ r, r ≠ td → (t.cl c.toNat).tile r = k.tile r) ∧
      (∀ tn off, l.op = .tst tn off → ∃ t, exec (.tileLoadComplete c side) s = .next t ∧ done t ∧ (t.cl c.toNat).tiles = k.tiles ∧
        ∀ b, t.byte b = if lsBase c.toNat + off ≤ b ∧ b < lsBase c.toNat + off + 16384 then
          (tabDense 0#8 16384 0 (k.tile tn).bytes).getD (b - (lsBase c.toNat + off)) 0#8 else s.byte b) ∧
      (∀ n off, l.op = .lut n off → (∀ p ∈ k.pours, l.seq ≤ p.seq) → ∃ t, exec (.tileLoadComplete c side) s = .next t ∧ done t ∧ t.mem = s.mem ∧
        (t.cl c.toNat).tiles = k.tiles ∧
        (∀ i, i < 256 → tabGet 0 (tabGet {} (t.cl c.toNat).luts n).t i = leAt (s.lsBytes c.toNat off 1056) (0x20 + 4 * i) 4) ∧
        ∀ m, m ≠ n → tabGet {} (t.cl c.toNat).luts m = tabGet {} k.luts m) ∧
      (∀ n off ch, l.op = .rt n off ch → (∀ p ∈ k.pours, l.seq ≤ p.seq) → ∃ t, exec (.tileLoadComplete c side) s = .next t ∧ done t ∧
        t.mem = s.mem ∧ (tabGet {} (t.cl c.toNat).rts n).channels = ch ∧ (tabGet {} (t.cl c.toNat).rts n).addr = off ∧
        (∀ i, i < ch → tabGet 0 (tabGet {} (t.cl c.toNat).rts n).ent i = leAt (s.bytes (lsBase c.toNat + off + 32 + 8 * i) 8) 0 8) ∧
        ∀ m, m ≠ n → tabGet {} (t.cl c.toNat).rts m = tabGet {} k.rts m))

/-- R285, R289, R291, R292, R296, R297, R299: a running dense slot requests its next item and the item lands in the ring; a store slot's
item reaches memory; a request that fails leaves a load item unfetched and faults a store slot; a running slot of a halted cluster with
nothing under way is PAUSED. Beside the rules it rests on the model's readings in notes/assumptions/ 82, 83. -/
def Obligations.StreamSlotsMoveTheirItems : Prop :=
  ∀ (s : State) (c : BitVec 8) (q : Fin 12),
    let k := s.cl c.toNat
    let x := k.slot q.val
    let only (t : State) : Prop := (∀ d, d ≠ c.toNat → t.cl d = s.cl d) ∧ (∀ r, r ≠ q.val → (t.cl c.toNat).slot r = k.slot r) ∧
      (t.cl c.toNat).s = k.s ∧ (t.cl c.toNat).pc = k.pc ∧ (t.cl c.toNat).tiles = k.tiles
    s.clocked = true → x.state = .running →
    (x.desc.store = false → x.desc.pod = false → x.ending = false → x.sideWait = false → k.st = .running → k.fenced = false →
      k.transInv = false → k.stepStart = false → k.hold = .none → x.fetch < x.desc.f14 → x.fetch - x.take < x.dist →
      x.fetch - x.take < x.desc.ringItems →
      (∀ a, (x.desc.addr + x.desc.stride * x.fetch) % 32 = 0 →
        s.translate c.toNat (x.desc.addr + x.desc.stride * x.fetch) x.desc.f10 false = some (s.me, a) →
        ∃ t, exec (.streamRequest c q) s = .next t ∧ OnlyCluster c.toNat s t ∧ only t ∧
          (t.cl c.toNat).slot q.val = { x with fetch := x.fetch + 1, ring := (tabSet x.ring x.fetch
                                               (if s.readable a x.desc.f10 false then .flying else .unfetched)) }) ∧
      (s.translate c.toNat (x.desc.addr + x.desc.stride * x.fetch) x.desc.f10 false = none →
        ∃ t, exec (.streamRequest c q) s = .next t ∧ OnlyCluster c.toNat s t ∧ only t ∧
          (t.cl c.toNat).slot q.val = { x with fetch := x.fetch + 1, ring := tabSet x.ring x.fetch .unfetched })) ∧
    (x.desc.store = false → x.desc.pod = false → x.ending = false → ∀ i a, tabFind x.ring i = some .flying →
      x.tensor = none → (x.desc.addr + x.desc.stride * i) % 32 = 0 →
      s.translate c.toNat (x.desc.addr + x.desc.stride * i) x.desc.f10 false = some (s.me, a) →
      ∃ t, exec (.streamItemComplete c q i [] .clean) s = .next t ∧ only t ∧
        tabFind ((t.cl c.toNat).slot q.val).ring i = some .ready ∧ ((t.cl c.toNat).slot q.val).done = x.done + 1 ∧
        ∀ b, t.byte b = if x.ringAddr c.toNat i ≤ b ∧ b < x.ringAddr c.toNat i + x.desc.f10 then s.byte (a + (b - x.ringAddr c.toNat i))
          else s.byte b) ∧
    (x.desc.store = true → ∀ it, x.held.find? (fun z => decide (z.idx = it.idx) && z.sent) = some it → it.dev = s.me → it.extra = [] →
      s.place it.addr = .hbm → it.addr + it.bytes.length ≤ s.memsys.hbmTop → x.ending = false →
      ∃ t, exec (.streamItemComplete c q it.idx [] .clean) s = .next t ∧ only t ∧
        ((t.cl c.toNat).slot q.val).held = x.held.filter (fun z => decide (z.idx ≠ it.idx)) ∧ ((t.cl c.toNat).slot q.val).done = x.done + 1 ∧
        ∀ b, t.byte b = if it.addr ≤ b ∧ b < it.addr + it.bytes.length then it.bytes.getD (b - it.addr) 0#8 else s.byte b) ∧
    (∀ i (status : BitVec 8), status ≠ 0 →
      (x.desc.store = false → tabFind x.ring i = some .flying → ∃ t, exec (.streamRequestFail c q i status) s = .next t ∧ only t ∧
        (t.cl c.toNat).slot q.val = { x with ring := tabSet x.ring i .unfetched } ∧ t.mem = s.mem) ∧
      (x.desc.store = true → k.fault = false → ∀ it, x.held.find? (fun z => decide (z.idx = i) && z.sent) = some it →
        ∃ t, exec (.streamRequestFail c q i status) s = .next t ∧ ((t.cl c.toNat).slot q.val).state = .fault ∧
          (t.cl c.toNat).cause = 0x06 ∧ (t.cl c.toNat).precise = false ∧ (t.cl c.toNat).faultSlot = q.val ∧ (t.cl c.toNat).faultAddr = it.addr ∧
          t.mem = s.mem)) ∧
    (k.st ≠ .running → x.flying = false → x.held = [] → ∃ t, exec (.slotPaused c q) s = .next t ∧ OnlyCluster c.toNat s t ∧
      t.cl c.toNat = { k with slots := (t.cl c.toNat).slots } ∧
      ∀ r, (t.cl c.toNat).slot r = if r = q.val then { x with state := .paused } else k.slot r)

/-- R252 to R255, R282 to R284, R306: a program's TRANS_INV, RT_INV and GRID_INV reach a present cluster that is not fenced. TRANS_INV
asks for a reread, which takes entries 1 to 63 from HBM, an unreadable, poisoned or reserved one becoming not VALID with TRANS_BAD; RT_INV
reloads the loaded tables it names once no Pour issued before is outstanding; GRID_INV makes every active store slot that packs G4 reread
its grid. Beside the rules it rests on the model's readings in notes/assumptions/ 87. -/
def Obligations.TablesAndTranslationsAreReread : Prop :=
  ∀ (s : State) (c : BitVec 8),
    let k := s.cl c.toNat
    let open_ : Prop := s.absent c.toNat = false ∧ k.fenced = false
    (open_ → ∃ t, exec (.transInv c) s = .next t ∧ OnlyCluster c.toNat s t ∧ t.cl c.toNat = { k with transInv := true }) ∧
    (¬open_ → ∀ mask, exec (.transInv c) s = .next s ∧ exec (.rtInv c mask) s = .next s ∧ exec (.gridInv c) s = .next s) ∧
    (let at_ (i : Nat) := k.transBase + 16 * i
     let word (i : Nat) := leAt (s.bytes (at_ i) 16) 0 16
     let bad (i : Nat) : Prop := s.memsys.hbmTop < at_ i + 16 ∨ s.poisoned (at_ i) 16 = true ∨ fld (word i) 63 48 ≠ 0 ∨ fld (word i) 127 125 ≠ 0
     k.transInv = true → k.stepStart = false → ∃ t, exec (.translationRereadComplete c) s = .next t ∧
        (∀ d, d ≠ c.toNat → t.cl d = s.cl d) ∧ t.mem = s.mem ∧
        t.cl c.toNat = { k with transInv := false, transBad := (t.cl c.toNat).transBad, trans := (t.cl c.toNat).trans } ∧
        ((t.cl c.toNat).transBad = true ↔ k.transBad = true ∨ ∃ i, 1 ≤ i ∧ i ≤ 63 ∧ bad i) ∧
        ∀ i, 1 ≤ i → i ≤ 63 → (bad i → tabGet 0 (t.cl c.toNat).trans i = 0) ∧ (¬bad i → tabGet 0 (t.cl c.toNat).trans i = word i)) ∧
    (open_ → k.rtInv = 0#4 → ∀ mask : BitVec 4,
      (∀ p, k.pour0 = some p → p.seq < k.issued → ∃ t, exec (.rtInv c mask) s = .next t ∧ OnlyCluster c.toNat s t ∧
        t.cl c.toNat = { k with rtInv := (t.cl c.toNat).rtInv, rtInvAt := (t.cl c.toNat).rtInvAt } ∧
        ∀ n, n < 4 → (t.cl c.toNat).rtInv.getLsbD n = (mask.getLsbD n && k.rtLoaded n)) ∧
      (k.pour0 = none → k.pour1 = none → ∃ t, exec (.rtInv c mask) s = .next t ∧ t.mem = s.mem ∧ (∀ d, d ≠ c.toNat → t.cl d = s.cl d) ∧
        t.cl c.toNat = { k with rts := (t.cl c.toNat).rts, rtInvAt := (t.cl c.toNat).rtInvAt, rtStale := (t.cl c.toNat).rtStale,
                                rtLogged := (t.cl c.toNat).rtLogged } ∧
        ∀ n, n < 4 →
          let old := tabGet {} k.rts n
          let new := tabGet {} (t.cl c.toNat).rts n
          let ch := leAt (s.lsBytes c.toNat old.addr 32) 0 2
          let sound : Prop := 1 ≤ ch ∧ ch ≤ 4096 ∧ (slice (s.lsBytes c.toNat old.addr 32) 2 30).all (· == 0#8) = true ∧
            old.addr + 32 + 8 * ch ≤ 0x200000
          (mask.getLsbD n = false ∨ k.rtLoaded n = false → new = old) ∧
          (mask.getLsbD n = true → k.rtLoaded n = true → ¬sound → new = old ∧ (t.cl c.toNat).rtStale.getLsbD n = true) ∧
          (mask.getLsbD n = true → k.rtLoaded n = true → sound → new.channels = ch ∧ new.addr = old.addr ∧
            ∀ i, i < ch → tabGet 0 new.ent i = leAt (s.bytes (lsBase c.toNat + old.addr + 32 + 8 * i) 8) 0 8))) ∧
    (open_ → ∃ t, exec (.gridInv c) s = .next t ∧ OnlyCluster c.toNat s t ∧
      t.cl c.toNat = { k with gridInv := k.slots.any (fun p => p.2.packsG4), slots := (t.cl c.toNat).slots } ∧
      ∀ q, (t.cl c.toNat).slot q = if (k.slot q).packsG4 then { k.slot q with gridStale := true } else k.slot q)

/-- R370, R371, R375, R376, R397, R403, R409, R410, R418, R438, R776: a first arrival that names the phase is recorded and any other only
sets PHASE_SKEW; the last one begins the next phase. A job pauses and resumes by the notices of other members, and the pre-image copy of
R418 copies the owned bytes. A wait longer than STALL_LIMIT_MS is reported and failure handling is due; failure handling halts the
clusters, abandons their posts, rolls back and leaves the job STOPPED. Beside the rules it rests on the model's readings in
notes/assumptions/ 44, 86. -/
def Obligations.PhasesCollectArrivalsAndStallsStopTheJob : Prop :=
  ∀ (s : State),
    let missing (l : List Nat) : Prop := ∃ d ∈ s.present, d ∉ l
    (∀ (c : BitVec 8) (v : BitVec 64), s.absent c.toNat = false → (s.cl c.toNat).fenced = false → s.jobRuns = true →
      let n := v.toNat % 8
      (n ≠ s.step.phase ∨ 5 ≤ s.step.phase ∨ c.toNat ∈ s.step.arrived →
        exec (.phaseArrive c v) s = .next { s with step := { s.step with skew := true } }) ∧
      (n = s.step.phase → n < 5 → c.toNat ∉ s.step.arrived → missing (c.toNat :: s.step.arrived) →
        exec (.phaseArrive c v) s = .next { s with step := { s.step with arrived := c.toNat :: s.step.arrived } }) ∧
      (n = s.step.phase → n < 5 → n ≠ 3 → c.toNat ∉ s.step.arrived → ¬missing (c.toNat :: s.step.arrived) → s.job.state = .running →
        ∀ m, s.phaseAfter n = some m → m ≠ 3 → ∃ t, exec (.phaseArrive c v) s = .next t ∧ t.step.phase = m ∧ t.step.arrived = [] ∧
          t.step.phaseSince = s.now ∧ t.step.pref = s.prefOf s.step.kind m ∧ t.step.number = s.step.number ∧ t.mem = s.mem ∧
          t.clusters = s.clusters)) ∧
    (∀ (c : BitVec 8) (v : BitVec 64), s.absent c.toNat = true ∨ (s.cl c.toNat).fenced = true ∨ s.jobRuns = false →
      exec (.phaseArrive c v) s = .next s) ∧
    (s.job.state = .running → ∃ t, exec .jobPauseNotice s = .next t ∧ t.step = { s.step with pausedAt := s.now } ∧
      t = { s with job := { s.job with state := .paused }, step := t.step, log := t.log }) ∧
    (s.job.state ≠ .running → exec .jobPauseNotice s = .next s) ∧
    (s.job.state = .paused → s.step.phase < 5 → missing s.step.arrived → ∃ t, exec .jobResumeNotice s = .next t ∧
      t = { s with job := { s.job with state := .running }, step := t.step } ∧
      t.step = { s.step with phaseSince := s.step.phaseSince + (s.now - s.step.pausedAt),
                             waitSince := s.step.waitSince + (s.now - s.step.pausedAt), fetches := t.step.fetches }) ∧
    (∀ r, let g := (s.step.u + 1) % 2
      let dst := s.genBaseAddr g + r.boff
      s.jobRuns = true → (s.gen g).state = .pre → (s.gen g).copied = false → s.ss.regions = [r] → r.bytes % 32 = 0 →
      r.addr + r.bytes ≤ dst ∨ dst + r.bytes ≤ r.addr → missing s.step.arrived →
      ∃ t, exec .preimageCopyComplete s = .next t ∧ t.gen g = { s.gen g with copied := true } ∧ t.gen (1 - g) = s.gen (1 - g) ∧
        t.clusters = s.clusters ∧ t.step = s.step ∧
        ∀ a, t.byte a = if dst ≤ a ∧ a < dst + r.bytes then s.byte (r.addr + (a - dst)) else s.byte a) ∧
    (s.job.state = .running → s.step.failing = false →
      ((∃ w ∈ s.waits, s.job.sched.stallMs * 1000000 < w) → ∃ t, exec .stall s = .next t ∧
        t = { s with step := { s.step with failing := true }, log := t.log } ∧ t.log.eventSeq = s.log.eventSeq + 1) ∧
      ((∀ w ∈ s.waits, w ≤ s.job.sched.stallMs * 1000000) → exec .stall s = .next s)) ∧
    (s.jobRuns = true → s.step.failing = true → ∃ t, exec .failureHandling s = .next t ∧ t.job.state = .stopped ∧ t.step.phase = 7 ∧
      t.step.failing = false ∧ t.step.faultPending = false ∧ t.ss.stopped = true ∧ t.ss.formed = [] ∧ t.ss.unsent = [] ∧ t.ss.sent = [] ∧
      (∀ p ∈ t.fab.posts, 256 ≤ p.owner) ∧
      ∀ c ∈ s.present, (s.cl c).st = .running → (t.cl c).st = .halting) ∧
    (s.jobRuns = true → s.step.failing = false → s.step.faultPending = false → exec .failureHandling s = .next s)

/-- R385 to R389, R392, R393, R395, R396: a doorbell is accepted in UPDATE under a verdict of NONE or CLAMP for an owned slot and refused
otherwise; the record is then written at PUB_BASE + 32 SLOT with the digest of the image; a fetch rereads a stale record after 20 µs, is
complete when its digest agrees and passes to resolution after three mismatches, where a replica that differs from agreeing owner and twin
is rewritten. Beside the rules it rests on the model's readings in notes/assumptions/ 28, 43. -/
def Obligations.PublicationAndVerifiedFetch : Prop :=
  ∀ (s : State),
    (∀ (c : BitVec 8) (v : BitVec 64), s.absent c.toNat = false → (s.cl c.toNat).fenced = false → s.jobRuns = true →
      let slot := fld v.toNat 15 0
      let good : Prop := s.step.phase = 3 ∧ s.step.updateBegun = true ∧ s.step.verdict ≤ 1 ∧ ∃ e ∈ s.owned, e.slot = slot
      fld v.toNat 29 24 ≠ 63 →
      (good → exec (.pubDoorbell c v) s = .next { s with step := { s.step with doorbells := s.step.doorbells ++
        [{ slot := slot, cluster := fld v.toNat 23 16, ev := fld v.toNat 29 24, evEn := bitN v.toNat 30, version := s.step.number }] } }) ∧
      (¬good → ∃ t, exec (.pubDoorbell c v) s = .next t ∧ t.step = { s.step with pubRefused := true } ∧ t.mem = s.mem ∧
        (∀ d, d ≠ fld v.toNat 23 16 → t.cl d = s.cl d) ∧ Arrived s t (fld v.toNat 23 16) (fld v.toNat 29 24) (bitN v.toNat 30))) ∧
    (∀ d e, s.step.doorbells.find? (fun d => decide (d.slot = e.slot)) = some d → s.owned.find? (fun x => decide (x.slot = e.slot)) = some e →
      s.poisoned e.image e.bytes = false → e.image + e.bytes ≤ s.job.pubBase ∨ s.job.pubBase + 32 * e.slot + 32 ≤ e.image →
      let a := s.job.pubBase + 32 * e.slot
      ∃ t, exec (.publicationRecordWrite e.slot) s = .next t ∧ t.step = { s.step with doorbells := s.step.doorbells.erase d } ∧
        leAt (t.bytes a 4) 0 4 = e.id % 2 ^ 32 ∧ leAt (t.bytes (a + 4) 4) 0 4 = e.bytes % 2 ^ 32 ∧
        leAt (t.bytes (a + 8) 8) 0 8 = d.version % 2 ^ 64 ∧
        leAt (t.bytes (a + 0x10) 8) 0 8 = imageDigest e.id d.version (s.bytes e.image e.bytes) ∧
        leAt (t.bytes (a + 0x18) 8) 0 8 = (e.image + 2 ^ 48) % 2 ^ 64 ∧
        (∀ b, b < a ∨ a + 32 ≤ b → t.byte b = s.byte b) ∧ Arrived s t d.cluster d.ev d.evEn ∧ ∀ c, c ≠ d.cluster → t.cl c = s.cl c) ∧
    (∀ post f p e, s.fetchOf post = some (f, p, e) →
      (f.stage = 1 → s.now < f.lastRead + 20000 → exec (.verifiedFetchRecheck post) s = .next s) ∧
      (f.stage = 1 → f.lastRead + 20000 ≤ s.now → ∃ t, exec (.verifiedFetchRecheck post) s = .next t ∧
        t = { s with step := { s.step with fetches := t.step.fetches }, fab := t.fab } ∧
        t.step.fetches = s.step.fetches.map (fun x => if x.post = post then { x with stage := 0, lastRead := s.now } else x) ∧
        t.fab.opidNext = s.fab.opidNext + 1 ∧ t.fab.posts = s.fab.posts) ∧
      (f.stage = 2 → (∀ o ∈ s.fab.ops, o.origin ≠ .post post) → s.poisoned e.image e.bytes = false →
        let fetches (t : State) (f : Fetch → Fetch) : Prop :=
          t.step.fetches = s.step.fetches.map (fun x => if x.post = post then f x else x) ∧ t.mem = s.mem ∧ t.clusters = s.clusters
        (imageDigest e.id f.version (s.bytes e.image e.bytes) = f.digest → ∃ t, exec (.verifiedFetchDigest post) s = .next t ∧
          fetches t (fun x => { x with stage := 4 }) ∧
          t.step.fetchRetry = (if f.reads = 0 then s.step.fetchRetry else satAdd 0xFFFF s.step.fetchRetry 1)) ∧
        (imageDigest e.id f.version (s.bytes e.image e.bytes) ≠ f.digest → 2 ≤ f.reads → ∃ t, exec (.verifiedFetchDigest post) s = .next t ∧
          fetches t (fun x => { x with stage := 5 })) ∧
        (imageDigest e.id f.version (s.bytes e.image e.bytes) ≠ f.digest → f.reads < 2 → ∃ t, exec (.verifiedFetchDigest post) s = .next t ∧
          fetches t (fun _ => { f with reads := f.reads + 1 }) ∧ t.fab.opidNext = s.fab.opidNext + 1)) ∧
      (f.stage = 5 → s.ss.committed < f.version → ∀ o w, exec (.mismatchResolution post o w) s = .next s) ∧
      (f.stage = 5 → f.version ≤ s.ss.committed → 0 < e.bytes → e.bytes ≤ 288 → ∀ owner : List Byte, owner.length = e.bytes →
        imageDigest e.id f.version owner = f.digest → ∃ t, exec (.mismatchResolution post owner owner) s = .next t ∧
          t.step.fetches = s.step.fetches.map (fun x => if x.post = post then { x with stage := 4 } else x) ∧ t.clusters = s.clusters ∧
          ∀ a, t.byte a = if e.image ≤ a ∧ a < e.image + e.bytes then owner.getD (a - e.image) 0#8 else s.byte a))

/-- R426 to R431, R433, R436, R783: at the twin a DELTA whose digests agree is XORed into the backup and logged, one that does not is
answered by NAK and leaves it; FULL bytes replace a range; END is answered by STEP_ACK once every record is applied; COMMIT drops the log
of committed steps; ROLLBACK takes the later ones out again. Beside the rules it rests on the model's readings in notes/assumptions/ 12,
42. -/
def Obligations.TheTwinAppliesRecords : Prop :=
  ∀ (s : State) (b : Binding) (r : Record), s.ss.binding = some b → b.source = r.origin →
    let a := b.base + r.boff
    let old := s.bytes a r.length
    let new := xorBytes old (decodeSectors r.length r.payload)
    let inRange (x : Nat) : Prop := a ≤ x ∧ x < a + r.length
    (r.type = 1 → r.boff + r.length ≤ b.bytes → r.seq ∉ b.applied →
      (rangeDigest r.shard r.region r.offset old ≠ r.oldDig → ∃ t, exec (.deltaRecord r) s = .next t ∧
        t = { s with ss := { s.ss with msgs := s.ss.msgs ++ [(b.source, { type := recNakOld, step := r.step, seq := r.seq, origin := s.me })] } }) ∧
      (rangeDigest r.shard r.region r.offset old = r.oldDig → s.poisoned a r.length = false →
        rangeDigest r.shard r.region r.offset new ≠ r.newDig → ∃ t, exec (.deltaRecord r) s = .next t ∧
        t = { s with ss := { s.ss with msgs := s.ss.msgs ++ [(b.source, { type := recNakNew, step := r.step, seq := r.seq, origin := s.me })] } }) ∧
      (rangeDigest r.shard r.region r.offset old = r.oldDig → s.poisoned a r.length = false →
        rangeDigest r.shard r.region r.offset new = r.newDig → b.endWait = none → r.length % 32 = 0 →
        ∃ t, exec (.deltaRecord r) s = .next t ∧
          t = { s with mem := t.mem, poison := t.poison, memsys := t.memsys,
                       ss := { s.ss with binding := some { b with log := b.log ++ [r], applied := r.seq :: b.applied } } } ∧
          ∀ x, (inRange x → t.byte x = new.getD (x - a) 0#8) ∧ (¬inRange x → t.byte x = s.byte x))) ∧
    (r.type = 2 → r.boff + r.length ≤ b.bytes → r.diff = [] → r.length % 32 = 0 →
      rangeDigest r.shard r.region r.offset (decodeSectors r.length r.payload) = r.newDig → ∃ t, exec (.fullRecord r) s = .next t ∧
        t = { s with mem := t.mem, poison := t.poison, memsys := t.memsys } ∧
        ∀ x, (inRange x → t.byte x = (decodeSectors r.length r.payload).getD (x - a) 0#8) ∧ (¬inRange x → t.byte x = s.byte x)) ∧
    (r.type = 1 ∨ r.type = 2 → b.bytes < r.boff + r.length →
      ∃ t, exec (if r.type = 1 then .deltaRecord r else .fullRecord r) s = .next t ∧
        t = { s with ss := { s.ss with twin := 3, restoring := false }, log := t.log }) ∧
    (r.type = 3 →
      ((∀ i, i < r.length → r.offset + i ∈ b.applied) → ∃ t, exec (.endRecord r) s = .next t ∧
        t = { s with ss := { s.ss with
          binding := some { b with endWait := none, applied := b.applied.filter (fun q => decide (r.offset + r.length ≤ q)) },
          msgs := s.ss.msgs ++ [(b.source, { type := recAck, step := r.step, origin := s.me })] } }) ∧
      ((∃ i, i < r.length ∧ r.offset + i ∉ b.applied) → exec (.endRecord r) s =
        .next { s with ss := { s.ss with binding := some { b with endWait := some r } } })) ∧
    (r.type = 4 → exec (.commitRecord r) s = .next { s with ss := { s.ss with
      binding := some { b with log := b.log.filter (fun x => decide (r.step < x.step)), committed := max b.committed r.step } } }) ∧
    (r.type = 5 → ∀ x, b.log.filter (fun x => decide (r.step < x.step)) = [x] → x.length % 32 = 0 →
      ∃ t, exec (.rollbackRecord r) s = .next t ∧
        t = { s with mem := t.mem, poison := t.poison, memsys := t.memsys,
                     ss := { s.ss with binding := some { b with log := b.log.filter (fun x => decide (x.step ≤ r.step)), endWait := none },
                                       msgs := s.ss.msgs ++ [(b.source, { type := recAck, step := r.step, origin := s.me })] } } ∧
        ∀ y, t.byte y = if b.base + x.boff ≤ y ∧ y < b.base + x.boff + x.length then
          s.byte y ^^^ (decodeSectors x.length x.payload).getD (y - (b.base + x.boff)) 0#8 else s.byte y)

/-- R413, R425, R427, R428, R447: at the origin STEP_ACK advances ACKED_STEP and retires the step's records, a NAK sends a record again
(the second NAK NEW, and any NAK OLD, as FULL with the same SEQ); a lost twin leaves the device waiting under PAUSE or stepping under
CONTINUE; export that lags stops. SOURCE hands its backup to a replacement and unbinds. Beside the rules it rests on the model's readings
in notes/assumptions/ 12, 13. -/
def Obligations.TheOriginFollowsItsTwin : Prop :=
  ∀ (s : State) (r : Record),
    let listens : Prop := r.origin = s.ss.twinDev ∧ s.ss.twin ≠ 0 ∧ s.ss.twin ≠ 3
    (¬listens → exec (.stepAck r) s = .next s ∧ exec (.nakNew r) s = .next s ∧ exec (.nakOld r) s = .next s) ∧
    (listens → r.type = 0x10 → s.ss.formed = [] → s.ss.unsent = [] → s.step.phase ≠ 6 → s.step.endAfter = none →
      let left := s.ss.sent.filter (fun x => decide (r.step < x.step))
      exec (.stepAck r) s = .next { s with ss := { s.ss with
        sent := left, nakCount := [], acked := if left = [] then max r.step s.ss.ended else r.step } }) ∧
    (listens → r.type = 0x11 ∨ r.type = 0x12 → ∀ d, s.ss.sent.find? (fun x => decide (x.seq = r.seq)) = some d →
      let n := tabGet 0 s.ss.nakCount r.seq + 1
      let full := r.type = 0x12 ∨ 2 ≤ n
      ∃ t, exec (if r.type = 0x11 then .nakNew r else .nakOld r) s = .next t ∧
        t = { s with ss := { s.ss with nakNew := t.ss.nakNew, nakOld := t.ss.nakOld, nakCount := t.ss.nakCount, sent := t.ss.sent,
                                       unsent := t.ss.unsent }, totals := t.totals } ∧
        t.ss.nakNew = (if r.type = 0x11 then satAdd 0xFFFF s.ss.nakNew 1 else s.ss.nakNew) ∧
        t.ss.nakOld = (if r.type = 0x12 then satAdd 0xFFFF s.ss.nakOld 1 else s.ss.nakOld) ∧
        t.ss.sent = s.ss.sent.filter (fun x => decide (x.seq ≠ r.seq)) ∧
        ∃ e, t.ss.unsent = e :: s.ss.unsent ∧ e.seq = d.seq ∧ e.step = d.step ∧ e.boff = d.boff ∧ (¬full → e = d) ∧ (full → e.type = 2)) ∧
    (s.ss.twin ≠ 0 → s.ss.twin ≠ 3 →
      (s.ss.twinless = 0 ∨ s.jobRuns = false → ∃ t, exec .twinless s = .next t ∧
        t = { s with ss := { s.ss with twin := 3, restoring := false }, log := t.log }) ∧
      (s.ss.twinless = 1 → s.jobRuns = true → s.ss.exportOn = false → s.step.phase ≠ 6 → s.step.endAfter = none →
        ∃ t, exec .twinless s = .next t ∧ t.ss.twin = 3 ∧ t.ss.twinlessRun = true ∧ t.ss.formed = [] ∧ t.ss.unsent = [] ∧ t.ss.sent = [] ∧
          t.mem = s.mem ∧ t.clusters = s.clusters ∧ s.ss.acked ≤ t.ss.acked ∧ ∀ x ∈ s.ss.outstanding, x.step ≤ t.ss.acked)) ∧
    (s.ss.exportOn = true → ∃ t, exec .exportLag s = .next t ∧
      t = { s with ss := { s.ss with exportOn := false, exportLag := true }, log := t.log }) ∧
    (s.ss.exportOn = false → exec .exportLag s = .next s) ∧
    (∀ failed replacement target b, s.ss.binding = some b →
      (b.source ≠ failed ∨ target < b.committed → exec (.sourceRestoreRequest failed replacement target) s = .next s) ∧
      (b.source = failed → b.committed ≤ target → (∀ x ∈ b.log, x.step ≤ target) →
        ∃ t, exec (.sourceRestoreRequest failed replacement target) s = .next t ∧ t = { s with ss := t.ss, log := t.log } ∧
          t.ss.binding = none ∧ t.ss.twin = 0 ∧ t.ss.msgs.length = s.ss.msgs.length + (b.bytes + 1048575) / 1048576 ∧
          ∀ m ∈ t.ss.msgs.drop s.ss.msgs.length, m.1 = replacement ∧ m.2.type = 2 ∧ m.2.step = target))

/-- R464 to R467: a slice orders the request that its rotating pointer reaches first, recalls a line that another agent owns, and
otherwise grants it: alone the requester owns the line, and with ownership every other sharer loses its copy. The scalar access that
waited for the line is made with the grant. A recalled owner's answer ends its copy and grants the request. Beside the rules it rests on
the model's readings in notes/assumptions/ 15, 49. -/
def Obligations.CoherenceRequestsAreOrderedAndAnswered : Prop :=
  ∀ (s : State) (h : Fin 24),
    let x := s.slice h.val
    let distance (r : LineReq) := (r.who + 260 - x.ptr) % 260
    let entry (r : LineReq) := x.dir.find? (fun e => decide (e.line = r.line))
    let pointed (t : State) (r : LineReq) : Prop := (t.slice h.val).ptr = (r.who + 1) % 260
    ((∀ r ∈ x.reqs, ∃ q ∈ x.reqs, q.line = r.line ∧ q.recalled ≠ none) → exec (.coherenceRequest h) s = .next s) ∧
    (∀ r ∈ x.reqs, (∀ q ∈ x.reqs, q.recalled = none) → (∀ q ∈ x.reqs, q ≠ r → distance r < distance q) →
      let k := s.cl r.who
      (∀ e o, entry r = some e → e.owner = some o → o ≠ r.who →
        ∃ t, exec (.coherenceRequest h) s = .next t ∧ pointed t r ∧ t.clusters = s.clusters ∧ t.mem = s.mem ∧
          (t.slice h.val).dir = x.dir ∧ (t.slice h.val).reqs = x.reqs.map (fun q => if q = r then { q with recalled := some o } else q)) ∧
      (entry r = none → (x.dir.filter (fun e => decide (e.line % 256 = r.line % 256))).length < 16 → tabFind k.cache r.line = none →
        k.cache.length < 64 → s.poison = [] →
        let data := s.bytes (r.line * 128) 128
        let granted (t : State) : Prop := pointed t r ∧ t.mem = s.mem ∧ (∀ d, d ≠ r.who → t.cl d = s.cl d) ∧
          (t.slice h.val).dir = { line := r.line, owner := some r.who } :: x.dir ∧
          (t.slice h.val).reqs = x.reqs.filter (fun q => !decide (q.line = r.line ∧ q.who = r.who))
        (k.hold = .none → ∃ t, exec (.coherenceRequest h) s = .next t ∧ granted t ∧
          t.cl r.who = { k with cache := (t.cl r.who).cache } ∧
          ∀ l, tabFind (t.cl r.who).cache l = if l = r.line then some { st := .exclusive, data := data } else tabFind k.cache l) ∧
        (∀ w, k.hold = .line w → k.accAddr w / 128 = r.line → accStore w = false →
          ∃ t, exec (.coherenceRequest h) s = .next t ∧ granted t ∧
            t.cl r.who = { k with pc := (k.pc + 16) % 0x200000, hold := .none, cache := (t.cl r.who).cache, s := (t.cl r.who).s } ∧
            SregWritten k (t.cl r.who) (fld w 20 16) (loadValue w (leAt data (k.accAddr w % 128) (accSize w)))) ∧
        (∀ w, k.hold = .line w → k.accAddr w / 128 = r.line → accStore w = true →
          ∃ t y, exec (.coherenceRequest h) s = .next t ∧ granted t ∧
            t.cl r.who = { k with pc := (k.pc + 16) % 0x200000, hold := .none, cache := (t.cl r.who).cache } ∧
            tabFind (t.cl r.who).cache r.line = some y ∧ y.st = .modified ∧
            y.data = patch data (k.accAddr w % 128) (leBytes (accSize w) (k.sreg (fld w 36 32))))) ∧
      (∀ e y, entry r = some e → e.owner = none → r.own = true → tabFind k.cache r.line = some y → k.hold = .none →
        ∃ t, exec (.coherenceRequest h) s = .next t ∧ pointed t r ∧
          (t.slice h.val).dir.find? (fun e => decide (e.line = r.line)) = some { line := r.line, owner := some r.who } ∧
          tabFind (t.cl r.who).cache r.line = some { y with st := .exclusive } ∧
          ∀ d ∈ e.sharers, d ≠ r.who → tabFind (t.cl d).cache r.line = none)) ∧
    (∀ line, (∀ r ∈ x.reqs, r.line = line → r.recalled = none) → exec (.recallAnswer h line) s = .next s) ∧
    (∀ line r o y, x.reqs.find? (fun r => decide (r.line = line) && r.recalled.isSome) = some r → r.recalled = some o → o ≠ r.who →
      tabFind (s.cl o).cache line = some y → y.dirty = [] → r.own = true → (∀ e ∈ x.dir, e.line = line → e = { line := line, owner := some o }) →
      s.lineHome line = h.val → (x.dir.filter (fun e => decide (e.line % 256 = line % 256))).length < 16 →
      tabFind (s.cl r.who).cache line = none → (s.cl r.who).cache.length < 64 → (s.cl r.who).hold = .none →
      ∃ t, exec (.recallAnswer h line) s = .next t ∧ tabFind (t.cl o).cache line = none ∧ t.mem = s.mem ∧
        (t.slice h.val).dir.find? (fun e => decide (e.line = line)) = some { line := line, owner := some r.who } ∧
        (∃ z, tabFind (t.cl r.who).cache line = some z ∧ z.st = .exclusive ∧ z.data = s.bytes (line * 128) 128) ∧
        ∀ d, d ≠ o → d ≠ r.who → t.cl d = s.cl d)

/-- R477 to R480, R482, R486 to R489: a refill adds CAP × 0.3125 sectors (5 CAP in sixteenths) to every bucket up to BURST; a stack admits
the next partition of E1, else of E2, in rotation, whose bucket falls by the request's sectors; credit grows by n × MIN / 256 up to 64 for
every partition that waits and is 0 for the others. A stack cap below LEVEL 1 holds nothing back. The scrub reads its unit and moves to
the next, leaving every byte as it was; a reading drives the throttle level, the refresh rate and HOT, with an event and a record on entry
of LEVEL 3; 10 ms without one act as 100 °C. Beside the rules it rests on the model's readings in notes/assumptions/ 16, 17, 24. -/
def Obligations.StacksAdmitScrubAndThrottle : Prop :=
  ∀ (s : State),
    (∃ t, exec .regulatorTokenRefill s = .next t ∧ t = { s with memsys := { s.memsys with stks := t.memsys.stks } } ∧
      ∀ k, k < 12 → (t.stack k).queue = (s.stack k).queue ∧ ∀ p, p < 16 →
        (t.stack k).part p = { (s.stack k).part p with
          tok := imin (16 * ((s.stack k).part p).burst) (((s.stack k).part p).tok + 5 * ((s.stack k).part p).cap) }) ∧
    (∀ (k : Fin 12),
      let x := s.stack k.val
      let waits (p : Nat) : Prop := ∃ r ∈ x.queue, r.part = p
      let next (last : Nat) (set : Nat → Prop) (p : Nat) : Prop :=
        p < 16 ∧ set p ∧ ∀ q, q < 16 → set q → (p + 15 - last % 16) % 16 ≤ (q + 15 - last % 16) % 16
      let e2 (p : Nat) : Prop := waits p ∧ 16 ≤ (x.part p).tok
      let e1 (p : Nat) : Prop := e2 p ∧ 256 ≤ (x.part p).cred
      ((∀ p, p < 16 → ¬e2 p) → exec (.regulatorAdmit k) s = .next s) ∧
      (∀ p first, x.level = 0 → (first = true ∧ next x.last1 e1 p ∨ first = false ∧ (∀ q, q < 16 → ¬e1 q) ∧ next x.last2 e2 p) →
        ∀ r, x.queue.find? (fun r => decide (r.part = p)) = some r →
        ∃ t, exec (.regulatorAdmit k) s = .next t ∧ t = { s with memsys := { s.memsys with stks := t.memsys.stks } } ∧
          (∀ j, j ≠ k.val → t.stack j = s.stack j) ∧
          let y := t.stack k.val
          y = { x with queue := x.queue.erase r, parts := y.parts, last1 := y.last1, last2 := y.last2 } ∧
          (first = true → y.last1 = p ∧ y.last2 = x.last2) ∧ (first = false → y.last1 = x.last1 ∧ y.last2 = p) ∧
          ∀ q, q < 16 →
            y.part q = { x.part q with
              tok := if q = p then (x.part q).tok - 16 * r.sectors else (x.part q).tok
              sectors := if q = p then ((x.part q).sectors + r.sectors) % 2 ^ 48 else (x.part q).sectors
              cred := (y.part q).cred } ∧
            (waits q → (y.part q).cred = imin (64 * 256)
              ((x.part q).cred - (if q = p ∧ first = true then 256 * r.sectors else 0) + r.sectors * (x.part q).min)) ∧
            (¬waits q → (y.part q).cred = 0))) ∧
    (∀ ecc, s.memsys.channels ≠ [] →
      let a := s.memsys.scrub
      let u := unitSize a
      ∃ t, exec (.patrolScrub ecc) s = .next t ∧ t.mem = s.mem ∧ t.memsys.scrub ≠ a ∧
        (ecc = .clean ∨ ecc = .second → t = { s with memsys := t.memsys, log := t.log }) ∧ (ecc ≠ .uncorrectable → t.poison = s.poison) ∧
        (ecc = .uncorrectable → (s.place a = .hbm ∨ ∃ d off, s.place a = .ls d off) → t.poisoned (a / u * u) 1 = true)) ∧
    (∀ ecc, s.memsys.channels = [] → exec (.patrolScrub ecc) s = .next s) ∧
    (∀ (k : Fin 12) (temp : BitVec 8),
      let x := s.stack k.val
      let n := temp.toNat
      let level := if 100 ≤ n then 3 else if x.level = 3 ∧ 95 < n then 3 else if 94 ≤ n then 2 else if 2 ≤ x.level ∧ 91 < n then 2
        else if 88 ≤ n then 1 else if 1 ≤ x.level ∧ 85 < n then 1 else 0
      ∃ t, exec (.stackTempRead k temp) s = .next t ∧
        t = { s with memsys := { s.memsys with stks := t.memsys.stks }, log := t.log } ∧ (∀ j, j ≠ k.val → t.stack j = s.stack j) ∧
        t.stack k.val = { x with
          temp := n, tempMax := max x.tempMax n, lastRead := s.now, missing := false, level := level
          refresh2x := decide (85 < n ∨ x.refresh2x = true ∧ 83 < n), hot := x.hot || decide (level = 3 ∧ x.level ≠ 3) } ∧
        (level ≠ 3 ∨ x.level = 3 → t.log = s.log) ∧ (level = 3 → x.level ≠ 3 → s.log.eventSeq < t.log.eventSeq)) ∧
    (∀ (k : Fin 12),
      let x := s.stack k.val
      (x.missing = true ∨ s.now < x.lastRead + 10000000 ∨ s.memsys.channels = [] → exec (.stackTempMissing k) s = .next s) ∧
      (x.missing = false → x.lastRead + 10000000 ≤ s.now → s.memsys.channels ≠ [] → ∃ t, exec (.stackTempMissing k) s = .next t ∧
        (t.stack k.val).level = 3 ∧ (t.stack k.val).refresh2x = true ∧ (t.stack k.val).missing = true ∧ (t.stack k.val).temp = x.temp ∧
        t = { s with memsys := { s.memsys with stks := t.memsys.stks }, log := t.log } ∧ ∀ j, j ≠ k.val → t.stack j = s.stack j))

/-- R499, R536, R554, R758, R833: light below 16 dBm sets LASER_LOW and below 14 dBm takes the lanes that it feeds DOWN; a lane goes DOWN
on loss of its link with FLAP, its event and its queued frames lost, and UP after 100 ms of alignment with light; a loopback failure
fences the lane's unit, the third in a row retires it, and a pass lets a fenced lane relink. Beside the rules it rests on the model's
readings in notes/assumptions/ 48. -/
def Obligations.LanesFollowTheirLightAndLink : Prop :=
  ∀ (s : State) (lane : Fin 144),
    let l := lane.val
    let x := s.lane l
    let u := unitOfLane l
    let only (t : State) : Prop := ∀ d, d ≠ l → t.lane d = s.lane d
    (∀ (e : Fin 16) onB power,
      let old := tabGet {} s.fab.engines e.val
      ∃ t, exec (.laserPowerChange e onB power) s = .next t ∧ t = { s with fab := t.fab, log := t.log } ∧
        (let new := tabGet {} t.fab.engines e.val
         (onB = true → new.lb = power ∧ new.la = old.la) ∧ (onB = false → new.la = power ∧ new.lb = old.lb) ∧
         new.ctrlOnB = (if old.ctrlOnB then decide (1400 ≤ new.lb) else decide (new.la < 1400 ∧ 1600 ≤ new.lb))) ∧
        (∀ d, laneEngine d = e.val → (t.lane d).laserLow = decide (t.lanePower d < 1600) ∧
          (t.lane d).state = if t.lanePower d < 1400 ∧ (s.lane d).state = .up then .down else (s.lane d).state) ∧
        ∀ d, laneEngine d ≠ e.val → t.lane d = s.lane d) ∧
    (∀ codewords : BitVec 16,
      let counted := satAdd 0xFFFF x.fecUncorr codewords.toNat
      (x.state = .up → ∃ t, exec (.laneDown lane codewords) s = .next t ∧ t = { s with fab := t.fab, log := t.log } ∧ only t ∧
        t.lane l = { x with fecUncorr := counted, state := .down, flap := true, downAt := s.now, test := true } ∧
        t.fab.tx = s.fab.tx.filter (fun f => decide (f.lane ≠ l)) ∧ t.log.eventSeq = s.log.eventSeq + 1) ∧
      (x.state = .out → x.miscabled = true → exec (.laneDown lane codewords) s =
        .next (s.setLane l { x with fecUncorr := counted, state := .down, downAt := s.now })) ∧
      (x.state ≠ .up → x.state ≠ .out ∨ x.miscabled = false → exec (.laneDown lane codewords) s =
        .next (s.setLane l { x with fecUncorr := counted }))) ∧
    (let ready : Prop := x.state = .down ∧ x.fenced = false ∧ 1400 ≤ s.lanePower l ∧ x.downAt + 100000000 ≤ s.now ∧ s.clocked = true ∧
        s.boot.nganor = true ∧ 3 ≤ s.boot.stage ∧ s.boot.stage ≤ 5
     (¬ready → exec (.laneUp lane) s = .next s) ∧
     (ready → (s.unit u).state ≠ .fenced → ∃ t, exec (.laneUp lane) s = .next t ∧ t = { s with fab := t.fab, log := t.log } ∧ only t ∧
       t.lane l = { x with state := .up, miscabled := false, misTimes := [], test := false } ∧ t.log.eventSeq = s.log.eventSeq + 1) ∧
     (ready → (s.unit u).state = .fenced → ∃ t, exec (.laneUp lane) s = .next t ∧ (t.lane l).state = .up ∧
       (t.unit u).state = .active ∧ (t.unit u).fence = false ∧ ∀ v, v ≠ u → t.unit v = s.unit v)) ∧
    (∀ pass,
      let tested (i : Instr) : Prop :=
        (pass = true → ¬(x.fenced = true ∧ (s.unit u).state = .fenced) →
          exec i s = .next (s.setLane l { x with test := false, testAt := s.now, failures := 0 })) ∧
        (pass = true → x.fenced = true → (s.unit u).state = .fenced → exec i s = .next (s.setLane l
          { x with test := false, testAt := s.now, failures := 0, state := .down, fenced := false, downAt := s.now })) ∧
        (pass = false → x.failures < 2 → s.ras.hist = [] → ∃ t, exec i s = .next t ∧ (t.unit u).state = .fenced ∧ only t ∧
          t.lane l = { x with test := false, testAt := s.now, failures := x.failures + 1, state := .out, fenced := true }) ∧
        (pass = false → 2 ≤ x.failures → (s.unit u).state ≠ .retired → ∃ t, exec i s = .next t ∧ (t.unit u).state = .retired ∧ only t ∧
          (t.lane l).state = .retired)
      (x.test = true → x.state = .down → tested (.laneLoopback lane pass)) ∧
      (x.test = false ∨ x.state ≠ .down → exec (.laneLoopback lane pass) s = .next s) ∧
      ((s.unit u).state = .fenced → 0 < x.failures → x.testAt + 60000000000 ≤ s.now → tested (.loopbackRetry lane pass)) ∧
      ((s.unit u).state ≠ .fenced ∨ x.failures = 0 ∨ s.now < x.testAt + 60000000000 → exec (.loopbackRetry lane pass) s = .next s))

/-- R501, R503, R506, R513, R554, R555: a lane that is UP discards and counts frames with a bad FCS, PAUSE frames, misplaned frames (the
sixteenth in 1 s takes the lane OUT with MISCABLED) and frames of other types; an Ilric packet of a known OP waits for its row. Beside the
rules it rests on the model's readings in notes/assumptions/ 46. -/
def Obligations.ReceivedFramesAreSorted : Prop :=
  ∀ (s : State) (lane : Fin 144) (f : Frame),
    let l := lane.val
    let x := s.lane l
    let run (t : State) : Prop := exec (.frameReceive lane f) s = .next t
    let ilric : Prop := x.state = .up ∧ s.clocked = true ∧ f.fcsOk = true ∧ f.etype ≠ 0x8808 ∧ f.etype = s.fab.etype
    let mine : Prop := f.dst = s.mac l ∧ f.src / 2 ^ 24 = s.mac l / 2 ^ 24
    let other := { s with fab := { s.fab with other := satAdd 0xFFFF s.fab.other 1 } }
    (x.state ≠ .up ∨ s.clocked = false → run s) ∧
    (x.state = .up → s.clocked = true → f.fcsOk = false → run (s.setLane l { x with badFcs := x.badFcs + 1 })) ∧
    (x.state = .up → s.clocked = true → f.fcsOk = true → f.etype = 0x8808 →
      run (s.setLane l { x with pauseRx := satAdd 0xFFFF x.pauseRx 1 })) ∧
    (ilric → mine → ∀ p, packetOf f.body = some p → knownOp p.op = true →
      run { s with fab := { s.fab with rx := s.fab.rx ++ [(l, f.body)] } }) ∧
    (ilric → mine → (packetOf f.body = none ∨ ∃ p, packetOf f.body = some p ∧ knownOp p.op = false) → run other) ∧
    (ilric → ¬mine →
      let times := s.now :: x.misTimes.filter (fun t => decide (s.now < t + 1000000000))
      (times.length < 16 → run (s.setLane l { x with misplane := satAdd 0xFFFF x.misplane 1, misTimes := times })) ∧
      (16 ≤ times.length → ∃ t, run t ∧ t = { s with fab := t.fab, log := t.log } ∧ (t.lane l).state = .out ∧ (t.lane l).miscabled = true ∧
        (t.lane l).misplane = satAdd 0xFFFF x.misplane 1 ∧ (∀ d, d ≠ l → t.lane d = s.lane d) ∧ s.log.eventSeq < t.log.eventSeq)) ∧
    (x.state = .up → s.clocked = true → f.fcsOk = true → f.etype ≠ s.fab.etype → f.etype ≠ 0x8808 →
      (f.etype = 0x0800 → f.dst = s.mac l → run s) ∧ (f.etype = 0x86DD → run s) ∧
      (f.etype = 0x0800 → f.dst ≠ s.mac l → ∃ t, run t ∧ (t.lane l).misplane = satAdd 0xFFFF x.misplane 1) ∧
      (f.etype ≠ 0x0800 → f.etype ≠ 0x86DD → run other))

namespace Sys2Proof.Claims

/-- The key of the context that a packet of a lane meets. -/
def rxKey (lane : Fin 144) (p : Packet) : Nat := ctxKey (decide (128 ≤ lane.val)) p.src

/-- The packet waits in the lane's receive queue. -/
def Waits (s : State) (lane : Fin 144) (p : Packet) : Prop := ∃ e ∈ s.fab.rx, e.1 = lane.val ∧ packetOf e.2 = some p

/-- The packet waits, it is the next in order of its context, and no ACK is due with it. -/
def InOrder (s : State) (lane : Fin 144) (p : Packet) (op : Nat) (x : RecvCtx) : Prop :=
  Waits s lane p ∧ p.op = op ∧ s.recvCtx (rxKey lane p) = some x ∧ x.epoch = p.epoch ∧ p.psn = x.cum % 2 ^ 32 ∧ x.got = [] ∧ x.unacked < 15

/-- The packet is marked received (R527, R528). -/
def Taken (t : State) (lane : Fin 144) (p : Packet) (x : RecvCtx) : Prop :=
  ∃ y, t.recvCtx (rxKey lane p) = some y ∧ y.cum = x.cum + 1 ∧ y.got = [] ∧ y.epoch = x.epoch ∧ y.newCnt = x.newCnt + 1 ∧
    y.unacked = x.unacked + 1 ∧ y.lastTx = p.txTime

/-- The rows of packets that a receive context orders, by OP (R513). -/
def packetRows (lane : Fin 144) (p : Packet) : List (Nat × Instr) :=
  [(1, .write lane p), (2, .read lane p), (3, .reduceWriteF32 lane p), (4, .reduceWriteH16 lane p), (5, .reduceWriteI32 lane p),
   (8, .atomicAdd lane p), (9, .atomicFetchAdd lane p), (0xA, .atomicSwap lane p), (0xB, .atomicCas lane p), (0x10, .readData lane p),
   (0x11, .atomicResult lane p), (0x12, .status lane p), (0x18, .collData lane p), (0x20, .ctrl lane p)]

/-- One more operation that answers a device is under way, of `n` packets. -/
def Answers (s t : State) (dest : DevId) (n : Nat) : Prop :=
  t.fab.opidNext = s.fab.opidNext + 1 ∧
  t.fab.ops = s.fab.ops ++ [{ opid := s.fab.opidNext, dest := dest, origin := .respond, left := n }]

end Sys2Proof.Claims

/-- R527, R528: a packet of an older epoch, one beyond the 4,096 that a context tracks, one that no free context can take and a duplicate
are not processed; a duplicate is acknowledged at once. Each PSN therefore takes effect at most once. Beside the rules it rests on the
model's readings in notes/assumptions/ 18. -/
def Obligations.EachPacketTakesEffectAtMostOnce : Prop :=
  ∀ (s : State) (lane : Fin 144) (p : Packet), ∀ r ∈ packetRows lane p,
    let k := rxKey lane p
    let quiet (t : State) : Prop := t = { s with fab := t.fab } ∧ t.fab.ops = s.fab.ops ∧ t.fab.posts = s.fab.posts ∧ t.fab.ctrl = s.fab.ctrl
    (p.op ≠ r.1 ∨ ¬Waits s lane p → exec r.2 s = .next s) ∧
    (p.op = r.1 → Waits s lane p →
      (s.recvCtx k = none → (if 2 ^ 18 ≤ k then 1024 else 16384) ≤ (s.fab.recv.filter (fun q => keyControl q.1 == keyControl k)).length →
        ∃ t, exec r.2 s = .next t ∧ quiet t ∧ t.fab.recv = s.fab.recv ∧ t.fab.ctxFull = satAdd 0xFFFF s.fab.ctxFull 1) ∧
      ∀ x, s.recvCtx k = some x →
        (signed 16 ((p.epoch + 65536 - x.epoch) % 65536) < 0 →
          ∃ t, exec r.2 s = .next t ∧ quiet t ∧ t.fab.recv = s.fab.recv ∧ t.fab.stale = satAdd 0xFFFF s.fab.stale 1) ∧
        (x.epoch = p.epoch →
          let d := signed 32 ((p.psn + 2 ^ 32 - x.cum % 2 ^ 32) % 2 ^ 32)
          (d < 0 ∨ x.cum + d.toNat ∈ x.got → ∃ t, exec r.2 s = .next t ∧ quiet t ∧ t.recvCtx k = some { x with
            lane := lane.val, lastArrival := s.now, lastTx := p.txTime, newCnt := 0, lateCnt := 0, unacked := 0 } ∧
            (s.ackLane k lane.val ≠ none → t.fab.tx.length = s.fab.tx.length + 1)) ∧
          (4096 ≤ d → x.cum + d.toNat ∉ x.got → ∃ t, exec r.2 s = .next t ∧ quiet t ∧ t.fab.tx = s.fab.tx ∧
            t.recvCtx k = some { x with lane := lane.val, lastArrival := s.now })))

/-- R463, R515 to R519: in order, a WRITE stores its payload, a READ is answered with the bytes, REDUCE_WRITE adds each element in its
format, an atomic acts on its word and answers with the old value; an ADD to EV_ADD is an arrival. A tag mismatch is refused with DENIED,
an address that does not allow the access with its status, and neither changes memory. Beside the rules it rests on the model's readings
in notes/assumptions/ 35, 36, 84. -/
def Obligations.RemoteRequestsActOnMemory : Prop :=
  ∀ (s : State) (lane : Fin 144) (p : Packet) (x : RecvCtx),
    let a := p.addr
    let n := p.payload.length
    let arg (off : Nat) := leAt p.payload off 8
    let stored (t : State) : Prop := t = { s with mem := t.mem, poison := t.poison, memsys := t.memsys, fab := t.fab, log := t.log }
    let outside (t : State) (n : Nat) : Prop := ∀ b, b < a ∨ a + n ≤ b → t.byte b = s.byte b
    (∀ r ∈ (packetRows lane p).take 9, InOrder s lane p r.1 x → s.jobOk p = false → ∃ t, exec r.2 s = .next t ∧ Taken t lane p x ∧
      t = { s with fab := t.fab } ∧ t.fab.denied = satAdd 0xFFFF s.fab.denied 1 ∧ Answers s t p.src 1) ∧
    (s.jobOk p = true →
      (∀ r ∈ (packetRows lane p).take 5, r.1 ≠ 2 → InOrder s lane p r.1 x → ∀ code, s.refuses a n = some code →
        ∃ t, exec r.2 s = .next t ∧ Taken t lane p x ∧ t = { s with fab := t.fab } ∧ Answers s t p.src 1) ∧
      (InOrder s lane p 1 x → s.refuses a n = none → ∃ t, exec (.write lane p) s = .next t ∧ Taken t lane p x ∧ stored t ∧
        outside t n ∧ ∀ i, i < n → t.byte (a + i) = p.payload.getD i 0#8) ∧
      (InOrder s lane p 2 x →
        let m := leAt p.payload 8 4
        s.refuses a m = none → s.poisoned a m = false → 0 < m → m ≤ 4096 - arg 0 % 4096 →
        ∃ t, exec (.read lane p) s = .next t ∧ Taken t lane p x ∧ t = { s with memsys := t.memsys, fab := t.fab, log := t.log } ∧
          Answers s t p.src 1 ∧ ∀ y, s.sendCtx p.src = some y → y.w.floor ≤ y.out.length → t.sendCtx p.src = some { y with
            waiting := y.waiting ++ [(s.fab.opidNext, { op := 0x10, flags := 1, cls := 0, addr := arg 0, job := p.job, aux := p.aux, payload := s.bytes a m })] }) ∧
      (∀ r ∈ [(3, 1, Instr.reduceWriteF32 lane p), (4, 2, .reduceWriteH16 lane p), (5, 3, .reduceWriteI32 lane p)],
        let z := if r.1 = 4 then 2 else 4
        InOrder s lane p r.1 x → s.refuses a n = none → s.poisoned a n = false → n % z = 0 →
        ∃ t, exec r.2.2 s = .next t ∧ Taken t lane p x ∧ stored t ∧ outside t n ∧ ∀ i, z * i < n →
          t.bytes (a + z * i) z = leBytes z (combineElem r.2.1 .rne (leAt (s.bytes a n) (z * i) z) (leAt p.payload (z * i) z)).1) ∧
      (∀ r ∈ [(8, 0, Instr.atomicAdd lane p), (9, 1, .atomicFetchAdd lane p), (0xA, 2, .atomicSwap lane p), (0xB, 3, .atomicCas lane p)],
        InOrder s lane p r.1 x →
        (∀ d off, s.place a = .csr d off → r.1 ≠ 8 ∨ off < 0x600 ∨ 0x7F8 ≤ off ∨ off % 8 ≠ 0 →
          ∃ t, exec r.2.2 s = .next t ∧ Taken t lane p x ∧ t = { s with fab := t.fab } ∧ t.fab.denied = satAdd 0xFFFF s.fab.denied 1) ∧
        (∀ d off, s.place a = .csr d off → s.absent d = false → (s.cl d).fenced = false → r.1 = 8 → 0x600 ≤ off → off < 0x7F8 → off % 8 = 0 →
          ∃ t, exec r.2.2 s = .next t ∧ Taken t lane p x ∧ t = { s with clusters := t.clusters, fab := t.fab } ∧
            (∀ c, c ≠ d → t.cl c = s.cl c) ∧ CounterWritten (s.cl d) (t.cl d) ((off - 0x600) / 8) ((s.cl d).ev ((off - 0x600) / 8) + arg 0)) ∧
        ((∀ d off, s.place a ≠ .csr d off) → s.refuses a 8 = none → a % 8 = 0 → s.poisoned a 8 = false →
          (a < 0x400000000000 → (s.slice (s.lineHome (a / 128))).dir.find? (fun e => decide (e.line = a / 128)) = none) →
          let old := leAt (s.bytes a 8) 0 8
          let new := if r.2.1 = 2 then arg 0 else if r.2.1 = 3 then (if old = arg 0 then arg 8 else old) else old + arg 0
          ∃ t, exec r.2.2 s = .next t ∧ Taken t lane p x ∧ stored t ∧ outside t 8 ∧ t.bytes a 8 = leBytes 8 new ∧
            (r.2.1 ≠ 0 → Answers s t p.src 1))))

/-- R297, R513, R516, R519, R520, R531, R542, R545 to R548: bytes that come back are written at their return address and counted off their
operation; an error STATUS stays with a stream item, faults the cluster of a SIGNAL or of a post; collective data is refused with RNR
until its collective is posted and then taken into the buffer; a control fragment passes to Nganor. Beside the rules it rests on the
model's readings in notes/assumptions/ 36. -/
def Obligations.ResponsesAndCollectiveDataAreTaken : Prop :=
  ∀ (s : State) (lane : Fin 144) (p : Packet) (x : RecvCtx),
    (∀ r ∈ [(0x10, Instr.readData lane p), (0x11, .atomicResult lane p)], InOrder s lane p r.1 x →
      (s.opOf p = none → ∃ t, exec r.2 s = .next t ∧ Taken t lane p x ∧ t = { s with fab := t.fab } ∧ t.fab.ops = s.fab.ops) ∧
      ∀ o, s.opOf p = some o → s.refuses p.addr p.payload.length = none → (∀ f ∈ s.step.fetches, o.origin = .post f.post → f.stage ≠ 0) →
        ∃ t, exec r.2 s = .next t ∧ Taken t lane p x ∧
          t = { s with mem := t.mem, poison := t.poison, memsys := t.memsys, fab := t.fab } ∧
          t.fab.ops = (s.fab.ops.map (fun q => if q.opid = o.opid then { q with toReturn := q.toReturn - p.payload.length } else q)).filter
            (fun q => !decide (q.left = 0 ∧ q.toReturn = 0 ∧ q.status = 0)) ∧
          ∀ b, t.byte b = if p.addr ≤ b ∧ b < p.addr + p.payload.length then p.payload.getD (b - p.addr) 0#8 else s.byte b) ∧
    (InOrder s lane p 0x12 x → ∀ o, s.opOf p = some o → ∃ t, exec (.status lane p) s = .next t ∧ Taken t lane p x ∧ t.mem = s.mem ∧
      (∀ c q i, o.origin = .item c q i → t.clusters = s.clusters ∧
        t.fab.ops = s.fab.ops.map (fun q => if q.opid = o.opid then { q with status := p.addr % 256 } else q)) ∧
      (∀ c, o.origin = .signal c → (s.cl c).st = .running → Faulted c 0x06 false 0 0xF { s with fab := t.fab } t ∧
        t.fab.ops = s.fab.ops.filter (fun q => decide (q.opid ≠ o.opid))) ∧
      (∀ id q, o.origin = .post id → s.fab.posts.find? (fun q => decide (q.id = id)) = some q → q.owner < 256 → (s.cl q.owner).st = .running →
        (∀ r ∈ t.fab.posts, r.id ≠ id) ∧ (t.cl q.owner).st = .halting ∧ (t.cl q.owner).fault = true ∧ ∀ c, c ≠ q.owner → t.cl c = s.cl c)) ∧
    (InOrder s lane p 0x20 x → ∃ t, exec (.ctrl lane p) s = .next t ∧ Taken t lane p x ∧ t = { s with fab := t.fab } ∧
      t.fab.ctrl = s.fab.ctrl ++ [(p.src, p.payload)]) ∧
    (InOrder s lane p 0x18 x → s.jobOk p = true →
      let id := p.addr / 2 ^ 32
      let off := p.addr % 2 ^ 32 * 32
      ((∀ q ∈ s.fab.posts, q.desc.collId = id → q.coll = none) → ∃ t, exec (.collData lane p) s = .next t ∧ t = { s with fab := t.fab } ∧
        t.recvCtx (rxKey lane p) = some { x with lane := lane.val, lastArrival := s.now } ∧ t.fab.rnrCnt = satAdd 0xFFFF s.fab.rnrCnt 1) ∧
      ∀ q k, s.fab.posts.find? (fun q => decide (q.desc.collId = id) && q.coll.isSome) = some q → q.coll = some k →
        (∀ r ∈ s.fab.posts, r.id = q.id → r = q) →
        (p.src ∉ k.members → ∃ t, exec (.collData lane p) s = .next t ∧ Taken t lane p x ∧ t = { s with fab := t.fab } ∧
          t.fab.denied = satAdd 0xFFFF s.fab.denied 1) ∧
        (p.src ∈ k.members →
          let i := k.members.idxOf p.src
          let plan := collPlan q.desc.kind k.members.length k.me
          let coll (t : State) (k : Coll) : Prop := t.fab.posts = s.fab.posts.map (fun r => if r.id = q.id then { r with coll := some k } else r)
          (plan[k.round]? = none → ∃ t, exec (.collData lane p) s = .next t ∧ Taken t lane p x ∧ t = { s with fab := t.fab } ∧
            coll t { k with got := k.got ++ [(i, off, p.payload)] }) ∧
          (∀ st, plan[k.round]? = some st → k.round + 1 = plan.length → k.got = [] → st.combine = false → 0 < p.payload.length →
            st.recv.flatMap (fun r => (q.desc.expects k r.2 r.1).map (fun e => (r.1, e))) = [(i, (off, off + p.payload.length))] →
            ∃ t, exec (.collData lane p) s = .next t ∧ Taken t lane p x ∧ coll t { k with round := k.round + 1, got := [] } ∧
              t = { s with mem := t.mem, poison := t.poison, memsys := t.memsys, fab := t.fab } ∧
              ∀ b, t.byte b = if q.desc.loc + off ≤ b ∧ b < q.desc.loc + off + p.payload.length then
                p.payload.getD (b - (q.desc.loc + off)) 0#8 else s.byte b)))

/-- R526, R528, R529, R531, R537: an ACK of the context's epoch takes out what CUM and BITMAP name and moves the window; with RNR it
refuses one PSN. The receiver's timer sends an ACK 2 µs after the first unacknowledged arrival. A packet whose timer has run out goes
again on the next plane, its plane excluded for 1 ms; after sixteen the destination is unreachable. Beside the rules it rests on the
model's readings in notes/assumptions/ 18, 47, 90. -/
def Obligations.AcknowledgementsWindowsAndRetransmissions : Prop :=
  ∀ (s : State) (k : Nat) (x : SendCtx), s.sendCtx k = some x →
    (∀ (lane : Fin 144) (p : Packet), rxKey lane p = k → Waits s lane p → p.op = 0x40 →
      let fabric (t : State) : Prop := t = { s with fab := t.fab }
      (x.epoch ≠ p.epoch → ∃ t, exec (.ack lane p) s = .next t ∧ fabric t ∧ t.fab.send = s.fab.send) ∧
      (x.epoch = p.epoch → bitN p.flags 2 = true → ∃ t, exec (.ack lane p) s = .next t ∧ fabric t ∧ t.sendCtx k =
        some { x with out := x.out.map (fun q => if q.pkt.psn = p.addr % 2 ^ 32 then { q with rnrAt := some s.now } else q) }) ∧
      (x.epoch = p.epoch → bitN p.flags 2 = false → x.waiting = [] →
        let ahead (q : SentPkt) := signed 32 ((q.pkt.psn + 2 ^ 32 - p.psn) % 2 ^ 32)
        let done (q : SentPkt) : Bool := decide (ahead q < 0) || decide (1 ≤ ahead q ∧ ahead q ≤ 64) && bitN p.addr ((ahead q).toNat - 1)
        (∀ q ∈ x.out, done q = true ∨ (∀ r ∈ x.out, done r = true → r.sentAt ≤ q.sentAt + 4000)) →
        ∃ t y, exec (.ack lane p) s = .next t ∧ fabric t ∧ t.sendCtx k = some y ∧
          y.out = x.out.filter (fun q => !done q) ∧ y.waiting = [] ∧ y.nextPsn = x.nextPsn ∧ y.epoch = x.epoch ∧
          (let new : Rat := (p.aux : Rat)
           let late : Rat := (p.job : Rat)
           let top : Rat := (s.fab.wMax : Rat)
           let w : Rat := if p.job = 0 then (if top < x.w + new / x.w then top else x.w + new / x.w) else x.w
           (x.f + new < w → y.w = w ∧ y.f = x.f + new ∧ y.m = x.m + late ∧ y.alpha = x.alpha) ∧
           (w ≤ x.f + new → x.f + new ≠ 0 → y.f = 0 ∧ y.m = 0 ∧ y.alpha = x.alpha + ((x.m + late) / (x.f + new) - x.alpha) / 16 ∧
             (x.m + late ≤ 0 → y.w = w) ∧ (0 < x.m + late → 1 ≤ y.w ∧ (1 ≤ w * (1 - y.alpha / 2) → y.w = w * (1 - y.alpha / 2))))) ∧
          (∀ o ∈ s.fab.ops, (∀ q ∈ x.out, done q = true → q.opid ≠ o.opid) → ¬(o.left = 0 ∧ o.toReturn = 0 ∧ o.status = 0) → o ∈ t.fab.ops) ∧
          (∀ q, x.out.filter done = [q] → ∀ o ∈ t.fab.ops, o.opid = q.opid →
            ∃ r ∈ s.fab.ops, o = { r with left := r.left - 1 } ∧ ¬(o.left = 0 ∧ o.toReturn = 0 ∧ o.status = 0)))) ∧
    (∀ psn,
      (∀ q ∈ x.out, q.pkt.psn ≠ psn) → exec (.retransmitTimeout k psn) s = .next s) ∧
    (∀ psn q, x.out.find? (fun q => decide (q.pkt.psn = psn)) = some q →
      let due := match q.rnrAt with | some t => t + 20000 | none => q.sentAt + (if q.retx < 4 then 20000 else 200000)
      (s.now < due → exec (.retransmitTimeout k psn) s = .next s) ∧
      (due ≤ s.now → q.rnrAt ≠ none ∨ q.retx < 16 →
        let excl := if q.rnrAt = none then (q.plane, s.now + 1000000) :: x.excl.filter (fun e => decide (e.1 ≠ q.plane)) else x.excl
        (∀ lane, s.nextPlane k { x with excl := excl } (q.plane + 1) = some lane →
          let again : Packet := { q.pkt with flags := q.pkt.flags % 2 + 2, txTime := s.tick % 2 ^ 32 }
          let q' : SentPkt := { pkt := again, opid := q.opid, sentAt := s.now, plane := lane - (keyLanes k).2,
                                retx := if q.rnrAt = none then q.retx + 1 else q.retx, rnrAt := none }
          ∃ t, exec (.retransmitTimeout k psn) s = .next t ∧ t = { s with fab := t.fab, totals := t.totals } ∧
            t.sendCtx k = some { x with excl := excl, out := x.out.map (fun y => if y.pkt.psn = psn then q' else y) } ∧
            t.fab.retxCnt = satAdd 0xFFFFFFFF s.fab.retxCnt 1 ∧
            t.fab.tx = s.fab.tx ++ [{ lane := lane, cls := q.pkt.cls, dest := k % 2 ^ 18, vid := 0, pkt := again }])) ∧
      (due ≤ s.now → q.rnrAt = none → 16 ≤ q.retx → ∃ t, exec (.retransmitTimeout k psn) s = .next t ∧
        t.sendCtx k = some { x with waiting := [], out := [] } ∧ t.fab.giveup = satAdd 0xFFFF s.fab.giveup 1 ∧ t.mem = s.mem ∧
        s.log.eventSeq < t.log.eventSeq ∧ ∀ o ∈ t.fab.ops, o.dest = k % 2 ^ 18 → o.status = 5))

/-- R521, R522, R528, R530, R537: the receiver's timer acknowledges with CUM, BITMAP, the echoed time, LATE and NEW; an idle send context
goes after 100 µs, and what waited for one is then sent under a new epoch; a receive context goes after 4 ms without an arrival; an
expired exclusion ends. Beside the rules it rests on the model's readings in notes/assumptions/ 18, 47. -/
def Obligations.ContextsAreAcknowledgedAndFreed : Prop :=
  ∀ (s : State) (k : Nat),
    (s.recvCtx k = none → exec (.ackTimer k) s = .next s ∧ exec (.receiveContextFree k) s = .next s) ∧
    (∀ x, s.recvCtx k = some x →
      (x.unacked = 0 ∨ s.now < x.firstUnacked + 2000 → exec (.ackTimer k) s = .next s) ∧
      (0 < x.unacked → x.firstUnacked + 2000 ≤ s.now → ∀ lane, s.ackLane k x.lane = some lane →
        ∃ t p, exec (.ackTimer k) s = .next t ∧ t = { s with fab := t.fab } ∧
          t.recvCtx k = some { x with newCnt := 0, lateCnt := 0, unacked := 0 } ∧
          t.fab.tx = s.fab.tx ++ [{ lane := lane, cls := 0, dest := k % 2 ^ 18, vid := 0, pkt := p }] ∧
          p.op = 0x40 ∧ p.flags = 0 ∧ p.src = s.me ∧ p.epoch = x.epoch ∧ p.psn = x.cum % 2 ^ 32 ∧ p.txTime = x.lastTx ∧
          p.job = x.lateCnt ∧ p.aux = x.newCnt ∧ p.payload = [] ∧ ∀ i, i < 64 → bitN p.addr i = x.got.contains (x.cum + 1 + i)) ∧
      (s.now < x.lastArrival + 4000000 → exec (.receiveContextFree k) s = .next s) ∧
      (x.lastArrival + 4000000 ≤ s.now → ∃ t, exec (.receiveContextFree k) s = .next t ∧ t = { s with fab := { s.fab with recv := t.fab.recv } } ∧
        t.recvCtx k = none ∧ ∀ j, j ≠ k → t.recvCtx j = s.recvCtx j)) ∧
    (s.sendCtx k = none → exec (.sendContextFree k) s = .next s ∧ ∀ plane, exec (.planeExclusionExpire k plane) s = .next s) ∧
    (∀ x, s.sendCtx k = some x →
      let idle : Prop := x.out = [] ∧ x.waiting = [] ∧ x.idleSince + 100000 ≤ s.now
      (¬idle → exec (.sendContextFree k) s = .next s) ∧
      (idle → s.fab.blocked = [] → ∃ t, exec (.sendContextFree k) s = .next t ∧ t = { s with fab := { s.fab with send := t.fab.send } } ∧
        t.sendCtx k = none ∧ ∀ j, j ≠ k → t.sendCtx j = s.sendCtx j) ∧
      (idle → ∀ j opid p, s.fab.blocked = [(j, opid, p)] → j ≠ k → j < 2 ^ 19 → s.sendCtx j = none →
        ((tabDel s.fab.send k).filter (fun q => keyControl q.1 == keyControl j)).length < (if 2 ^ 18 ≤ j then 1024 else 16384) →
        ∃ t y, exec (.sendContextFree k) s = .next t ∧ t.sendCtx k = none ∧ t.fab.blocked = [] ∧ t.sendCtx j = some y ∧
          y.epoch = (s.fab.epoch + 1) % 65536 ∧ y.w = (s.fab.wInit : Rat)) ∧
      ∀ plane, ∃ t y, exec (.planeExclusionExpire k plane) s = .next t ∧ t = { s with fab := t.fab } ∧ t.sendCtx k = some y ∧
        y.excl = x.excl.filter (fun e => !decide (e.1 = plane ∧ e.2 ≤ s.now)))

namespace Sys2Proof.Claims

/-- A Huddle frame waits whose other copy has not acted (R559). -/
def FirstCopy (s : State) (lane : Fin 144) (p : Packet) (op seq : Nat) : Prop :=
  p.op = op ∧ Waits s lane p ∧ (p.copyKey, seq, 1 - p.copy) ∉ s.hud.seen

/-- A frame was taken and nothing else happened but what the fabric sends. -/
def Heard (s t : State) : Prop := t = { s with fab := t.fab, hud := { s.hud with seen := t.hud.seen } }

/-- With every control lane UP, a job-tree frame goes to a rank twice (R557, R559). -/
def SentToRank (s t : State) (rank op : Nat) (sys : Bool) (seq : Nat) (payload : List Byte) : Prop :=
  (∀ e, e < 16 → s.laneUp (128 + e) = true) → ∀ dev, s.job.ranks[rank]? = some dev →
    ∃ p : Packet, t.fab.tx = s.fab.tx ++
      [{ lane := 128 + seq % 16, cls := 2, dest := dev, vid := 0, pkt := p },
       { lane := 128 + (seq + 8) % 16, cls := 2, dest := dev, vid := 0, pkt := { p with flags := p.flags + 2 } }] ∧
      p.op = op ∧ p.flags = b2n sys ∧ p.src = s.me ∧ p.epoch = s.hud.treeEpoch ∧ p.job = s.job.tag ∧ p.payload = payload

/-- A program's operation completes in the slot that posted it (R567 to R569): the result and DONE, or ABORTED, and the arrival. -/
def SlotCompletes (s t : State) (k : Nat) (x : PostSlot) (b : OpBlock) : Prop :=
  (b.reserved = false → b.vals.length = x.count →
    (t.slotHp k).state = 2 ∧ ∀ v, v < x.count → tabGet 0 (t.slotHp k).vals v = b.vals.getD v 0) ∧
  (b.reserved = true → (t.slotHp k).state = 3 ∧ (t.slotHp k).mismatch = true ∧ (t.slotHp k).vals = x.vals) ∧
  Arrived s t x.cluster x.ev x.evEn ∧ (∀ c, c ≠ x.cluster → t.cl c = s.cl c) ∧ ∀ j, j ≠ k → t.slotHp j = s.slotHp j

end Sys2Proof.Claims

/-- R559, R562 to R565, R568, R569: a child's contribution counts once and is combined value by value; a node that holds all of them sends
H_UP, or forms the result at the root, and a completed operation is answered again; a result is passed on and completes the operation; an
H_UP without a result goes again after 20 µs. The second copy of a frame and frames of another tree have no effect. Beside the rules it
rests on the model's readings in notes/assumptions/ 14, 38. -/
def Obligations.HuddleContributionsCombineAndComplete : Prop :=
  (∀ a b : BitVec 64,
    hudOp 0 a.toNat b.toNat = (a + b).toNat ∧ hudOp 1 a.toNat b.toNat = max a.toNat b.toNat ∧ hudOp 2 a.toNat b.toNat = min a.toNat b.toNat ∧
    hudOp 3 a.toNat b.toNat = (a &&& b).toNat ∧ hudOp 4 a.toNat b.toNat = (a ||| b).toNat ∧
    hudOp 5 a.toNat b.toNat = (if a.slt b then b.toNat else a.toNat) ∧ hudOp 6 a.toNat b.toNat = (if a.slt b then a.toNat else b.toNat)) ∧
  ∀ (s : State) (lane : Fin 144) (p : Packet),
    let b := blockOf p.payload
    let kids := treeChildren s.job.ranks.length s.job.rank
    let named (o : HudOp) : Prop := o.sys = p.sys ∧ o.seq = b.seq
    let queued := s.hud.ops.find? (fun o => decide (o.sys = p.sys ∧ o.seq = b.seq))
    let others := s.hud.ops.filter (fun o => !(decide (o.sys = p.sys) && decide (o.seq = b.seq)))
    let result (t : State) (b : OpBlock) : Prop := b ∈ t.doneOps p.sys ∧ t.hud.ops = others
    (∀ i ∈ [(0x60, Instr.hUp lane p), (0x61, .hDown lane p)],
      (p.op ≠ i.1 ∨ ¬Waits s lane p → exec i.2 s = .next s) ∧
      (p.op = i.1 → Waits s lane p → (p.copyKey, b.seq, 1 - p.copy) ∈ s.hud.seen → ∃ t, exec i.2 s = .next t ∧ Heard s t ∧ t.fab.tx = s.fab.tx) ∧
      (FirstCopy s lane p i.1 b.seq → s.inTree p = false → ∃ t, exec i.2 s = .next t ∧ Heard s t ∧ t.fab.tx = s.fab.tx)) ∧
    (FirstCopy s lane p 0x60 b.seq → s.inTree p = true → ∀ c, s.rankOf p.src = some c → c ∈ kids →
      (∀ d, (s.doneOps p.sys).find? (fun d => decide (d.seq = b.seq)) = some d →
        ∃ t, exec (.hUp lane p) s = .next t ∧ Heard s t ∧ SentToRank s t c 0x61 p.sys b.seq d.bytes) ∧
      ((∀ d ∈ s.doneOps p.sys, d.seq ≠ b.seq) →
        (queued = none → ∃ t, exec (.hUp lane p) s = .next t ∧ t = { s with fab := t.fab, hud := { s.hud with seen := t.hud.seen, ops := t.hud.ops } } ∧
          t.hud.ops = s.hud.ops ++ [{ sys := p.sys, seq := b.seq, block := b, from_ := [c] }]) ∧
        (∀ o, queued = some o → (∀ x ∈ s.hud.ops, named x → x = o) →
          let combined := o.block.combine b
          (o.block.ops = b.ops → o.block.reserved = false → combined.parts = o.block.parts + b.parts ∧
            combined.vals.length = o.block.vals.length ∧
            ∀ v, v < o.block.vals.length → combined.vals.getD v 0 = hudOp (b.ops.getD v 0) (o.block.vals.getD v 0) (b.vals.getD v 0)) ∧
          (o.block.ops ≠ b.ops → o.block.ops ≠ [] ∨ b.ops ≠ [] → combined.reserved = true) ∧
          (c ∈ o.from_ → o.own = false ∨ o.upAt ≠ none → ∃ t, exec (.hUp lane p) s = .next t ∧ Heard s t) ∧
          (c ∉ o.from_ →
            let now (up : Option Nat) := s.hud.ops.map (fun x => if x.sys = p.sys ∧ x.seq = b.seq then
              { x with block := combined, from_ := c :: x.from_, upAt := up } else x)
            (o.own = false ∨ (∃ d ∈ kids, d ≠ c ∧ d ∉ o.from_) → ∃ t, exec (.hUp lane p) s = .next t ∧ t.hud.ops = now o.upAt ∧
              t = { s with fab := t.fab, hud := { s.hud with seen := t.hud.seen, ops := t.hud.ops } }) ∧
            (o.own = true → o.upAt = none → (∀ d ∈ kids, d = c ∨ d ∈ o.from_) → s.job.rank ≠ 0 →
              ∃ t, exec (.hUp lane p) s = .next t ∧ t.hud.ops = now (some s.now) ∧
                t = { s with fab := t.fab, hud := { s.hud with seen := t.hud.seen, ops := t.hud.ops } } ∧
                SentToRank s t (treeParent s.job.rank) 0x60 p.sys b.seq combined.bytes) ∧
            (o.own = true → o.upAt = none → (∀ d ∈ kids, d = c ∨ d ∈ o.from_) → s.job.rank = 0 → p.sys = false →
              ∃ t, exec (.hUp lane p) s = .next t ∧ result t { combined with effect := 0 } ∧ t.mem = s.mem ∧
                (combined.reserved = true → t.hud.mismatch = true ∧ (s.log.inSecond < 1000 → t.log.errSeq = s.log.errSeq + 1)) ∧
                ∀ k x, s.hud.slots.find? (fun q => decide (q.2.state = 1 ∧ q.2.seq = combined.seq)) = some (k, x) →
                  SlotCompletes s t k x combined))))) ∧
    (FirstCopy s lane p 0x61 b.seq → s.inTree p = true → s.job.rank ≠ 0 → s.rankOf p.src = some (treeParent s.job.rank) →
      p.sys = false → (∃ o ∈ s.hud.ops, named o ∧ o.own = true) →
      ∃ t, exec (.hDown lane p) s = .next t ∧ result t b ∧ t.mem = s.mem ∧
        (∀ c, kids = [c] → SentToRank s t c 0x61 p.sys b.seq b.bytes) ∧
        ∀ k x, s.hud.slots.find? (fun q => decide (q.2.state = 1 ∧ q.2.seq = b.seq)) = some (k, x) → SlotCompletes s t k x b) ∧
    (∀ sys (seq : BitVec 32),
      let waiting := s.hud.ops.find? (fun o => decide (o.sys = sys ∧ o.seq = seq.toNat))
      ((∀ o t, waiting = some o → o.upAt = some t → s.now < t + 20000) → exec (.hUpResend sys seq) s = .next s) ∧
      (∀ o t0, waiting = some o → o.upAt = some t0 → t0 + 20000 ≤ s.now → ∃ t, exec (.hUpResend sys seq) s = .next t ∧
        t = { s with fab := t.fab, hud := { s.hud with resends := satAdd 0xFFFF s.hud.resends 1, ops := t.hud.ops } } ∧
        t.hud.ops = s.hud.ops.map (fun x => if x.sys = sys ∧ x.seq = seq.toNat then { x with upAt := some s.now } else x) ∧
        SentToRank s t (treeParent s.job.rank) 0x60 sys seq.toNat o.block.bytes))

/-- R369, R373, R403 to R406, R432, R566 to R568, R570, R589: HP_CTL posts a slot under the next program SEQ, a POSTED one only sets
POST_BUSY; H_STOP is passed on once to every neighbour but the sender and makes failure handling due. The result of the verdict reduction
reaches every cluster by its counter and opens UPDATE, running it under NONE and CLAMP and leaving u and the watch under SKIP_STEP and
HALT, which halts the job; the step barrier's result commits and opens the next step with an arrival at e63 of every cluster. Beside the
rules it rests on the model's readings in notes/assumptions/ 14, 38, 39. -/
def Obligations.PostsStopsAndSystemResults : Prop :=
  ∀ (s : State),
    (∀ (c : BitVec 8) (slot : Fin 8) (v : BitVec 64),
      let x := s.slotHp slot.val
      let count := fld v.toNat 4 0
      let written : Prop := s.absent c.toNat = false ∧ (s.cl c.toNat).fenced = false ∧ s.job.ranks ≠ []
      (¬written → exec (.hpCtl c slot v) s = .next s) ∧
      (written → x.state = 1 → exec (.hpCtl c slot v) s = .next { s with hud := { s.hud with postBusy := true } }) ∧
      (written → x.state ≠ 1 → count ≤ 16 → fld v.toNat 13 8 ≠ 63 →
        let kids := treeChildren s.job.ranks.length s.job.rank
        (∀ o ∈ s.hud.ops, o.sys = false → o.seq ≠ s.hud.seqProg) → kids ≠ [] ∨ s.job.rank ≠ 0 →
        ∃ t o, exec (.hpCtl c slot v) s = .next t ∧
          t = { s with fab := t.fab, hud := { s.hud with seqProg := s.hud.seqProg + 1, slots := t.hud.slots, ops := t.hud.ops } } ∧
          t.slotHp slot.val = { x with state := 1, mismatch := false, seq := s.hud.seqProg, count := count, ev := fld v.toNat 13 8,
                                       evEn := bitN v.toNat 14, cluster := fld v.toNat 23 16 } ∧
          (∀ j, j ≠ slot.val → t.slotHp j = s.slotHp j) ∧ t.hud.ops = s.hud.ops ++ [o] ∧ o.sys = false ∧ o.seq = s.hud.seqProg ∧ o.own = true ∧
          o.block.parts = 1 ∧ o.block.vals = (List.range count).map (fun i => tabGet 0 x.vals i) ∧
          o.block.ops = (List.range count).map (fun i => fld x.ops (4 * i + 3) (4 * i)) ∧ o.upAt = (if kids = [] then some s.now else none))) ∧
    (∀ (lane : Fin 144) (p : Packet),
      (p.op ≠ 0x62 ∨ ¬Waits s lane p → exec (.hStop lane p) s = .next s) ∧
      (FirstCopy s lane p 0x62 0 → s.inTree p = false ∨ s.step.stopReceived = true ∨ s.jobRuns = false →
        ∃ t, exec (.hStop lane p) s = .next t ∧ Heard s t ∧ t.fab.tx = s.fab.tx) ∧
      (FirstCopy s lane p 0x62 0 → s.inTree p = true → s.step.stopReceived = false → s.jobRuns = true →
        ∃ t, exec (.hStop lane p) s = .next t ∧
          t = { s with fab := t.fab, hud := { s.hud with seen := t.hud.seen }, step := { s.step with stopReceived := true, failing := true } } ∧
          ((∀ e, e < 16 → s.laneUp (128 + e) = true) → ∀ r dev, r ∈ s.neighbours → s.rankOf p.src ≠ some r → s.job.ranks[r]? = some dev →
            ∃ f ∈ t.fab.tx, f.dest = dev ∧ f.pkt.op = 0x62 ∧ f.pkt.job = s.job.tag))) ∧
    (∀ (lane : Fin 144) (p : Packet),
      let b := blockOf p.payload
      FirstCopy s lane p 0x61 b.seq → s.inTree p = true → s.job.rank ≠ 0 → s.rankOf p.src = some (treeParent s.job.rank) → p.sys = true →
      (∃ o ∈ s.hud.ops, o.sys = true ∧ o.seq = b.seq ∧ o.own = true) → b.reserved = false →
      (s.hud.sysKinds.find? (fun q => decide (q.1 = b.seq)) = some (b.seq, .verdict) → s.step.phase = 5 →
        let v := b.vals.getD 0 0 % 4
        ∃ t, exec (.hDown lane p) s = .next t ∧ t.step.verdict = v ∧ t.step.verdictValid = true ∧ t.step.phase = 3 ∧ t.step.arrived = [] ∧
          t.step.number = s.step.number ∧ t.mem = s.mem ∧
          (v ≤ 1 → t.step.u = s.step.u + 1 ∧ t.step.updateBegun = true ∧ ∀ q ∈ s.watch, (q.1, q.2.settle) ∈ t.watch) ∧
          (2 ≤ v → t.step.u = s.step.u ∧ t.step.updateBegun = s.step.updateBegun ∧ t.watch = s.watch ∧ (t.gen ((s.step.u + 1) % 2)).state ≠ .pre) ∧
          (v ≠ 3 → t.job = s.job) ∧
          (v = 3 → t.job = { s.job with state := .halted } ∧ ∀ c ∈ s.present, (s.cl c).st = .running → (t.cl c).st = .halting) ∧
          (s.job.sched.verdictEn = true → v ≠ 3 → ∀ c ∈ s.present, (s.cl c).fenced = false →
            (t.cl c).ev s.job.sched.verdictEv = ((s.cl c).ev s.job.sched.verdictEv + 1) % 2 ^ 64)) ∧
      (∀ n, s.hud.sysKinds.find? (fun q => decide (q.1 = b.seq)) = some (b.seq, .stepBarrier) → s.step.opens = some n → s.step.endAfter = none →
        s.step.exportChange = none →
        ∃ t, exec (.hDown lane p) s = .next t ∧ t.step.number = n ∧ t.step.kind = s.kindOf n ∧ t.step.phase = (s.phasesOf (s.kindOf n)).headD 0 ∧
          t.step.arrived = [] ∧ t.step.verdict = 0 ∧ t.step.updateBegun = false ∧ t.step.expect = s.expectOf n ∧
          t.ss.committed = max s.ss.committed (b.vals.getD 0 0) ∧ t.mem = s.mem ∧
          (s.tick ≤ b.effect → (b.effect, .ceil (7 - b.vals.getD 1 7 % 8)) ∈ t.hud.changes) ∧
          (b.effect < s.tick → t.hud.syncLate = true) ∧
          ∀ c ∈ s.present, (s.cl c).fenced = false → (t.cl c).ev 63 = ((s.cl c).ev 63 + 1) % 2 ^ 64))

namespace Sys2Proof.Claims

/-- With every control lane UP, a frame of the tick tree goes twice to a device of the half (R557, R559). -/
def SentOnHalf (s t : State) (device first op addr : Nat) (payload : List Byte) : Prop :=
  (∀ e, e < 16 → s.laneUp (128 + e) = true) → ∃ p : Packet, t.fab.tx = s.fab.tx ++
    [{ lane := 128 + first % 16, cls := 2, dest := s.halfDev device, vid := 0, pkt := p },
     { lane := 128 + (first + 8) % 16, cls := 2, dest := s.halfDev device, vid := 0, pkt := { p with flags := p.flags + 2 } }] ∧
    p.op = op ∧ p.src = s.me ∧ p.job = 0 ∧ p.addr = addr ∧ p.payload = payload

/-- The state differs in the Huddle block, the tick service included, and in what the fabric sends. -/
def OnlyHuddle (s t : State) : Prop := t = { s with fab := t.fab, hud := t.hud }

end Sys2Proof.Claims

/-- R572, R574, R575, R577: a burst begins with T_SYNC to the parent; a parent answers with its times and its state; the child keeps the
exchange and at the eighth takes the offset of the shortest one, stepping once in ACQUIRING without a job and LOCKED after four offsets
within 10 ns; a silent parent means HOLDOVER and another parent, TICK_ROOT2, or its own acting as root. Beside the rules it rests on the
model's readings in notes/assumptions/ 50. -/
def Obligations.TheTickFollowsItsParent : Prop :=
  ∀ (s : State),
    let h := s.hud
    (h.tickState = .free ∨ h.isRoot = true ∨ s.now < h.burstAt + 1048576 → exec .tickSyncBurst s = .next s) ∧
    (h.tickState ≠ .free → h.isRoot = false → h.burstAt + 1048576 ≤ s.now → h.burst = [] → ∃ t, exec .tickSyncBurst s = .next t ∧
      t = { s with fab := t.fab, hud := { h with burstAt := s.now, burstLeft := 7 } } ∧
      SentOnHalf s t h.parent s.fab.device 0x64 0 (leBytes 8 s.tick)) ∧
    (∀ (lane : Fin 144) (p : Packet),
      let t1 := leAt p.payload 0 8
      (∀ i ∈ [(0x64, Instr.tSync lane p), (0x65, .tReply lane p)], p.op ≠ i.1 ∨ ¬Waits s lane p → exec i.2 s = .next s) ∧
      (FirstCopy s lane p 0x64 t1 → h.tickState = .free ∨ p.src / 2 ^ 17 ≠ s.fab.half →
        ∃ t, exec (.tSync lane p) s = .next t ∧ Heard s t ∧ t.fab.tx = s.fab.tx) ∧
      (FirstCopy s lane p 0x64 t1 → h.tickState ≠ .free → p.src / 2 ^ 17 = s.fab.half →
        ∃ t, exec (.tSync lane p) s = .next t ∧ Heard s t ∧ SentOnHalf s t (p.src % 2 ^ 17) s.fab.device 0x65 0
          (leBytes 8 t1 ++ leBytes 8 s.tick ++ leBytes 8 s.tick ++ leBytes 1 h.tickState.code ++ leBytes 7 0)) ∧
      (FirstCopy s lane p 0x65 t1 → h.tickState = .free ∨ h.isRoot = true ∨ p.src ≠ s.halfDev h.parent →
        ∃ t, exec (.tReply lane p) s = .next t ∧ Heard s t) ∧
      (FirstCopy s lane p 0x65 t1 → h.tickState ≠ .free → h.isRoot = false → p.src = s.halfDev h.parent → leAt p.payload 0x18 1 ≠ 3 →
        let all := h.burst ++ [(t1, leAt p.payload 8 8, leAt p.payload 0x10 8, s.tick)]
        (h.burst.length < 7 → ∃ t, exec (.tReply lane p) s = .next t ∧
          t = { s with fab := t.fab, hud := { h with seen := t.hud.seen, lastReply := s.now, burst := all } }) ∧
        (∀ x ∈ all, 7 ≤ h.burst.length →
          let trip (y : Nat × Nat × Nat × Nat) : Int := ((y.2.2.2 : Int) - (y.1 : Int)) - ((y.2.2.1 : Int) - (y.2.1 : Int))
          (∀ y ∈ all, y ≠ x → trip x < trip y) →
          let offset : Int := (((x.2.1 : Int) - (x.1 : Int)) - ((x.2.2.2 : Int) - (x.2.2.1 : Int))) / 2
          let jumps : Prop := h.tickState = .acquiring ∧ h.stepped = false ∧ s.jobRuns = false ∧ 0 < offset
          let good := if -10 ≤ offset ∧ offset ≤ 10 then h.goodBursts + 1 else 0
          ∃ t, exec (.tReply lane p) s = .next t ∧ t.hud.offset = offset ∧
            (jumps → t.tick = s.tick + offset.toNat ∧ t.hud.stepped = true) ∧ (¬jumps → t.tick = s.tick ∧ t.hud.stepped = h.stepped) ∧
            (good < 4 → OnlyHuddle s { t with tick := s.tick } ∧ t.hud.goodBursts = good ∧ t.hud.burst = [] ∧ t.hud.tickState = h.tickState) ∧
            (4 ≤ good → t.hud.tickState = .locked))) ∧
      (FirstCopy s lane p 0x65 t1 → h.tickState ≠ .free → h.isRoot = false → p.src = s.halfDev h.parent → leAt p.payload 0x18 1 = 3 →
        h.burst.length < 7 → ∃ t, exec (.tReply lane p) s = .next t ∧ t.hud.tickState = .holdover ∧ t.tick = s.tick ∧
          t.hud.lockLost = (h.lockLost || decide (h.tickState = .locked)))) ∧
    (h.tickState = .free ∨ h.isRoot = true ∨ s.now < h.lastReply + 8000000 → exec .tickParentSilent s = .next s) ∧
    (h.tickState ≠ .free → h.isRoot = false → h.lastReply + 8000000 ≤ s.now →
      let at0 := s.treeIndex h.parent
      let quiet (t : State) : Prop := t.tick = s.tick ∧ t.mem = s.mem ∧ t.clusters = s.clusters ∧
        (h.tickState ≠ .holdover → s.log.eventSeq < t.log.eventSeq ∧ t.hud.lockLost = (h.lockLost || decide (h.tickState = .locked)))
      (at0 ≠ 0 → ∃ t, exec .tickParentSilent s = .next t ∧ quiet t ∧ t.hud.tickState = .holdover ∧ t.hud.lastReply = s.now ∧
        t.hud.parent = s.treeDevice (if h.parent = s.treeUp then treeParent at0 else 0)) ∧
      (at0 = 0 → s.fab.device ≠ h.tickRoot2 → ∃ t, exec .tickParentSilent s = .next t ∧ quiet t ∧ t.hud.tickState = .holdover ∧
        t.hud.useRoot = h.tickRoot2 ∧ t.hud.isRoot = false ∧ t.hud.parent = t.treeUp) ∧
      (at0 = 0 → s.fab.device = h.tickRoot2 → ∃ t, exec .tickParentSilent s = .next t ∧ t.tick = s.tick ∧ t.hud.isRoot = true ∧
        t.hud.useRoot = h.tickRoot2))

/-- R49, R578 to R580, R656, R666: what falls due at a count takes effect there in the order of the requests, and nothing else does; an
effective step lowers the frequency and voltage of every domain that is ON at once and raises those whose voltage and synthesizer are
ready, the others being deferred. Beside the rules it rests on the model's readings in notes/assumptions/ 51. -/
def Obligations.ChangesTakeEffectAtSynchronisedCounts : Prop :=
  ∀ (s : State),
    let due (c : Nat × SyncChange) : Prop := c.1 ≤ s.tick
    let later := s.hud.changes.filter (fun c => decide (s.tick < c.1))
    (s.clocked = false → exec .syncCount s = .next s) ∧
    (s.clocked = true → s.opp.oneStep = false → (∀ e ∈ s.pwr.slots, e.2.nextFreq = none) →
      ((∀ c ∈ s.hud.changes, ¬due c) → exec .syncCount s = .next s) ∧
      (∀ p q, s.hud.changes.filter (fun c => decide (c.1 ≤ s.tick)) = [(p, .ceil q)] → 5 ≤ s.step.phase →
        exec .syncCount s = .next { s with hud := { s.hud with changes := later }, opp := { s.opp with ceil := q } }) ∧
      (∀ p q q', s.hud.changes.filter (fun c => decide (c.1 ≤ s.tick)) = [(p, .ceil q), (p, .ceil q')] → 5 ≤ s.step.phase →
        exec .syncCount s = .next { s with hud := { s.hud with changes := later }, opp := { s.opp with ceil := q' } }) ∧
      (∀ c p, s.hud.changes.filter (fun c => decide (c.1 ≤ s.tick)) = [(c, .effective p)] → (s.pwr.slots.map (·.1)).Nodup →
        ∃ t, exec .syncCount s = .next t ∧ t.opp.effective = p ∧ t.opp.requested = s.opp.requested ∧ t.hud.changes = later ∧
          t.clusters = s.clusters ∧ t.mem = s.mem ∧ t.step = s.step ∧
          ∀ k d, (k, d) ∈ s.pwr.slots → t.dom k =
            if d.mode ≠ .on then d
            else if d.freq ≤ p then { d with freq := p, nextFreq := none, volt := p, moving := d.moving || decide (d.volt ≠ p) }
            else if d.volt ≤ p ∧ d.moving = false ∧ d.synthAt + 700 ≤ s.now then { d with freq := p, nextFreq := none }
            else { d with nextFreq := some p }))

/-- R581 to R585, R677: a round begins with the grant of the round before and a demand of the distance to the target, capped by RAMP_MAX;
four rounds of demand without a grant fall back. A node asks for the sums of its subtree, the root mints SITE_RATE up to SITE_BURST; a
grant is taken up to the demand and handed on; one of a past round is void. Beside the rules it rests on the model's readings in
notes/assumptions/ 52. -/
def Obligations.RelayRoundsAskAndGrant : Prop :=
  ∀ (s : State),
    let h := s.hud
    let k := s.tick / 1048576
    (h.round = k → k ≠ 0 → exec .relayRoundStart s = .next s) ∧
    (h.round ≠ k ∨ k = 0 → ∃ t, exec .relayRoundStart s = .next t ∧ t = { s with fab := t.fab, hud := t.hud, opp := { s.opp with tgtW := t.opp.tgtW } } ∧
      (s.jobRuns = true → t.opp = s.opp) ∧
      (let r := t.hud
       let room := min (h.rampMax * 1048576 / 1000000000) (min (t.opp.tgtW - r.pceil) (t.pceilBound - r.pceil))
       r.round = k ∧ r.moveFrom = r.pceil ∧ r.moveUp = h.nextUp ∧ r.moveDown = h.nextDown ∧ r.nextUp = 0 ∧ r.nextDown = 0 ∧ r.gotGrant = false ∧
       r.childUp = [] ∧ r.childDown = [] ∧ r.levelDone = false ∧ (h.relayMode = false ∨ h.fallback = true → r.pceil = h.pceil) ∧
       (h.relayMode = true → h.fallback = false → r.pceil = s.pceilAt 1048576) ∧
       (h.relayMode = false → r.demandUp = 0 ∧ r.demandDown = 0 ∧ r.fallback = false) ∧
       (h.relayMode = true → r.demandUp = (if s.therm.holdUp then 0 else room) ∧
         r.demandDown = (if s.therm.holdDown then 0 else min (h.rampMax * 1048576 / 1000000000) (r.pceil - t.opp.tgtW)) ∧
         r.missed = (if h.gotGrant then 0 else if 0 < h.demandUp + h.demandDown then h.missed + 1 else 0) ∧
         r.fallback = (h.fallback || decide (4 ≤ r.missed))))) ∧
    (let i := s.treeIndex s.fab.device
     let deadline := if i = 0 then 60000 else if i % 4096 = 0 then 40000 else 20000
     let due : Prop := h.tickState ≠ .free ∧ i % 64 = 0 ∧ h.levelDone = false ∧ k = h.round ∧ deadline ≤ s.tick % 1048576
     let up := h.demandUp + (h.childUp.map (·.2)).sum
     let down := h.demandDown + (h.childDown.map (·.2)).sum
     (¬due → exec .relayLevelDeadline s = .next s) ∧
     (due → i ≠ 0 → ∃ t, exec .relayLevelDeadline s = .next t ∧ t = { s with fab := t.fab, hud := { h with levelDone := true } } ∧
       SentOnHalf s t s.treeUp h.round 0x68 h.round (leBytes 4 up ++ leBytes 4 down)) ∧
     (due → i = 0 → ∃ t, exec .relayLevelDeadline s = .next t ∧ OnlyHuddle s t ∧ t.hud.levelDone = true ∧
       (let minted := h.mintAcc + s.siteRateW * 1048576
        t.hud.mintAcc = minted % 1000000000 ∧
        t.hud.poolUp + min (min s.siteBurstW (h.poolUp + minted / 1000000000)) up = min s.siteBurstW (h.poolUp + minted / 1000000000) ∧
        t.hud.poolDown + min (min s.siteBurstW (h.poolDown + minted / 1000000000)) down = min s.siteBurstW (h.poolDown + minted / 1000000000)))) ∧
    (∀ (lane : Fin 144) (p : Packet),
      let dev := p.src % 2 ^ 17
      let a := leAt p.payload 0 4
      let b := leAt p.payload 4 4
      (∀ i ∈ [(0x68, Instr.rReq lane p), (0x69, .rGrant lane p)], p.op ≠ i.1 ∨ ¬Waits s lane p → exec i.2 s = .next s) ∧
      (FirstCopy s lane p 0x68 p.addr →
        let child : Prop := h.tickState ≠ .free ∧ h.levelDone = false ∧ p.addr = h.round ∧ p.src / 2 ^ 17 = s.fab.half ∧ dev ≠ s.fab.device ∧
          s.treeIndex dev ≠ 0 ∧ s.treeDevice (treeParent (s.treeIndex dev)) = s.fab.device
        (¬child → ∃ t, exec (.rReq lane p) s = .next t ∧ Heard s t) ∧
        (child → ∃ t, exec (.rReq lane p) s = .next t ∧
          t = { s with fab := t.fab, hud := { h with seen := t.hud.seen, childUp := t.hud.childUp, childDown := t.hud.childDown } } ∧
          tabFind t.hud.childUp dev = some a ∧ tabFind t.hud.childDown dev = some b ∧
          ∀ d, d ≠ dev → tabFind t.hud.childUp d = tabFind h.childUp d ∧ tabFind t.hud.childDown d = tabFind h.childDown d)) ∧
      (FirstCopy s lane p 0x69 p.addr →
        let parent : Prop := h.tickState ≠ .free ∧ p.src = s.halfDev s.treeUp ∧ s.treeIndex s.fab.device ≠ 0
        (¬parent → ∃ t, exec (.rGrant lane p) s = .next t ∧ Heard s t) ∧
        (parent → p.addr < h.round → ∃ t, exec (.rGrant lane p) s = .next t ∧
          t = { s with fab := t.fab, hud := { h with seen := t.hud.seen, grantMissed := true } }) ∧
        (parent → h.round ≤ p.addr → h.relayMode = true → h.childUp = [] → h.childDown = [] → ∃ t, exec (.rGrant lane p) s = .next t ∧
          OnlyHuddle s t ∧ t.hud.nextUp = min a h.demandUp ∧ t.hud.nextDown = min b h.demandDown ∧ t.hud.gotGrant = true ∧ t.hud.fallback = false ∧
          t.hud.pceil = h.pceil ∧ t.hud.grantMissed = h.grantMissed) ∧
        (∀ c u d, parent → h.round ≤ p.addr → h.childUp = [(c, u)] → h.childDown = [(c, d)] → c ≠ s.fab.device → h.demandUp + u ≤ a →
          h.demandDown + d ≤ b → ∃ t, exec (.rGrant lane p) s = .next t ∧ OnlyHuddle s t ∧
            SentOnHalf s t c h.round 0x69 h.round (leBytes 4 u ++ leBytes 4 d))))

/-- R583: a node that holds fewer tokens than its members ask for gives each floor(T × d / D) or one more, never more than was asked, and
all of its tokens; with enough tokens each gets its demand. Beside the rules it rests on the model's readings in notes/assumptions/ 52. -/
def Obligations.EveryTokenIsSplit : Prop :=
  ∀ (tokens : Nat) (demands : List (Nat × Nat)) (last : Option Nat), (demands.map (·.1)).Nodup →
    let total := (demands.map (·.2)).sum
    let given := (splitTokens tokens demands last).1
    (total ≤ tokens → given = demands) ∧
    (tokens < total →
      given.map (·.1) = demands.map (·.1) ∧ (given.map (·.2)).sum = tokens ∧
      ∀ d ∈ demands, ∃ g, (d.1, g) ∈ given ∧ g ≤ d.2 ∧ tokens * d.2 / total ≤ g ∧ g ≤ tokens * d.2 / total + 1)

namespace Sys2Proof.Claims

/-- A packet meets its queue pair: the lane is UP, the pair is bound to it and to the address, is ready, and the packet is not marked. -/
def MeetsQp (s : State) (p : RocePkt) (q : Qp) : Prop :=
  s.laneUp p.lane = true ∧ s.qp p.qpn = some q ∧ q.plane = p.lane ∧ q.localIp = p.dstIp ∧ q.state = .ready ∧ p.ce = false

/-- The packet is the next of its queue pair. -/
def NextOfQp (p : RocePkt) (q : Qp) : Prop := p.psn = q.rqPsn ∧ p.psn < 2 ^ 24

/-- A window is REQUESTED under a key, on a queue pair (R599, R602). -/
def KeyOf (s : State) (rkey qpn : Nat) : Prop :=
  keyWindow rkey < s.job.ingestCount ∧ s.winField (keyWindow rkey) 0x10 1 = 1 ∧ s.winField (keyWindow rkey) 0x14 4 = rkey ∧
    s.winField (keyWindow rkey) 0xC 2 = qpn

/-- A window's outcome (R603): STATUS, the arrival that its entry names, and nothing else of memory or of other clusters. -/
def WindowEnds (s t : State) (w status : Nat) : Prop :=
  let e := s.ingestEntry w
  let ev := s.winField w 0xF 1
  let c := s.winField w 0xE 1
  t.byte (e + 0x10) = BitVec.ofNat 8 status ∧ (∀ a, a ≠ e + 0x10 → t.byte a = s.byte a) ∧
  Arrived s t c (ev % 64) (decide (128 ≤ ev ∧ ev % 64 ≠ 63)) ∧ ∀ d, d ≠ c → t.cl d = s.cl d

/-- A queue pair is in error (R598): QP_ERROR, and its REQUESTED windows are FAILED. -/
def QpInError (s t : State) (n : Nat) : Prop :=
  (∃ q, t.qp n = some q ∧ q.state = .error ∧ q.out = []) ∧ t.ing.qpError = true ∧ s.log.eventSeq < t.log.eventSeq ∧
  ∀ w, w < s.job.ingestCount → s.winField w 0x10 1 = 1 → s.winField w 0xC 2 = n → t.winField w 0x10 1 = 3

end Sys2Proof.Claims

/-- R484, R599 to R603: a request advances GEN, writes RKEY and STATUS and sends WINDOW_REQ, or is refused; WRITEs under the live key land
in the window, a write with immediate completes it and WINDOW_FAIL fails it, each with its arrival; what names no live key is STRAY, and a
write that the key does not allow is a NAK Remote Access Error that ends the queue pair. Beside the rules it rests on the model's readings
in notes/assumptions/ 20, 72. -/
def Obligations.IngestWindowsAreRequestedFilledAndFailed : Prop :=
  ∀ (s : State),
    (∀ (c : BitVec 8) (v : BitVec 64),
      let w := fld v.toNat 9 0
      let e := s.ingestEntry w
      let a := s.winField w 0 8
      let n := s.winField w 8 4
      let qn := s.winField w 0xC 2
      let program : Prop := s.absent c.toNat = false ∧ (s.cl c.toNat).fenced = false ∧ s.job.state ≠ .none ∧ s.job.state ≠ .staging
      let valid : Prop := s.winField w 0x10 1 ≠ 1 ∧ fld (s.winField w 0xF 1) 6 6 = 0 ∧ s.winField w 0x11 3 = 0 ∧ s.winField w 0x18 8 = 0 ∧
        a % 32 = 0 ∧ n % 32 = 0 ∧ 32 ≤ n ∧ s.isStore a n = true ∧ ∃ q, s.qp qn = some q ∧ q.state = .ready
      let listed : Prop := s.job.ingest ≠ 0 ∧ w < s.job.ingestCount ∧ s.poisoned e 32 = false
      (¬program → exec (.ingestReq c v) s = .next s) ∧
      (program → s.job.ingest = 0 ∨ s.job.ingestCount ≤ w → ∃ t, exec (.ingestReq c v) s = .next t ∧
        t = { s with ing := { s.ing with refused := true }, log := t.log }) ∧
      (program → listed → valid →
        let gen := (tabGet 0 s.ing.gens w + 1) % 2 ^ 22
        let rkey := w * 2 ^ 22 + gen
        ∃ t q, exec (.ingestReq c v) s = .next t ∧ s.qp qn = some q ∧ tabGet 0 t.ing.gens w = gen ∧ t.clusters = s.clusters ∧
          t.byte (e + 0x10) = 1#8 ∧ t.bytes (e + 0x14) 4 = leBytes 4 rkey ∧
          (∀ b, b ≠ e + 0x10 → b < e + 0x14 ∨ e + 0x18 ≤ b → t.byte b = s.byte b) ∧
          (let message := leBytes 2 1 ++ leBytes 2 w ++ leBytes 4 rkey ++ leBytes 4 n ++ leBytes 4 (fld v.toNat 63 32)
           t.ing.out = s.ing.out ++ [.send qn q.sqPsn message] ∧
           ∃ q', t.qp qn = some q' ∧ q'.sqPsn = (q.sqPsn + 1) % 2 ^ 24 ∧ q'.out = q.out ++ [(q.sqPsn, message)])) ∧
      (program → listed → ¬valid → ∃ t, exec (.ingestReq c v) s = .next t ∧ WindowEnds s t w 4 ∧ t.ing = { s.ing with refused := true })) ∧
    (∀ (p : RocePkt) (q : Qp), MeetsQp s p q → NextOfQp p q →
      let w := keyWindow p.rkey
      let at0 := s.winField w 0 8 + p.va
      let n := p.payload.length
      let acked (t : State) (m : Nat) : Prop := (t.ing.out = s.ing.out ++ [.ack p.qpn p.psn 0x1F m]) ∧
        ∃ q', t.qp p.qpn = some q' ∧ q'.rqPsn = (q.rqPsn + 1) % 2 ^ 24 ∧ q'.msn = m ∧ q'.write = none ∧ q'.state = .ready
      let allowed : Prop := KeyOf s p.rkey p.qpn ∧ p.va + p.dmaLen ≤ s.winField w 8 4 ∧ s.refuses at0 n = none
      let written (t : State) : Prop := ∀ b, t.byte b = if at0 ≤ b ∧ b < at0 + n then p.payload.getD (b - at0) 0#8 else s.byte b
      (p.place = 3 → q.write = none → n = p.dmaLen → 0 < n → n ≤ 4096 →
        (allowed → ∃ t, exec (.rdmaWrite p) s = .next t ∧ written t ∧ acked t ((q.msn + 1) % 2 ^ 24) ∧ t.clusters = s.clusters) ∧
        (¬allowed → ∃ t, exec (.rdmaWrite p) s = .next t ∧ QpInError s t p.qpn ∧ (.ack p.qpn p.psn 0x62 q.msn) ∈ t.ing.out)) ∧
      (p.place = 0 → q.write = none → n = 4096 → n < p.dmaLen → allowed → ∃ t q', exec (.rdmaWrite p) s = .next t ∧ written t ∧
        t.ing.out = s.ing.out ∧ t.qp p.qpn = some q' ∧ q'.write = some (p.rkey, p.va + 4096, p.dmaLen - 4096)) ∧
      (p.place = 3 → q.write = none → p.dmaLen = 0 → p.payload = [] → q.recvUsed < 16 →
        (KeyOf s p.imm p.qpn → ∃ t, exec (.rdmaWriteWithImmediate p) s = .next t ∧ WindowEnds s t (keyWindow p.imm) 2 ∧
          acked t ((q.msn + 1) % 2 ^ 24)) ∧
        (¬KeyOf s p.imm p.qpn → ∃ t, exec (.rdmaWriteWithImmediate p) s = .next t ∧ t = { s with ing := t.ing } ∧
          t.ing.stray = satAdd 0xFFFF s.ing.stray 1 ∧ acked t ((q.msn + 1) % 2 ^ 24))) ∧
      (p.place < 2 → exec (.rdmaWriteWithImmediate p) s = .next s) ∧
      (q.write = none → n = 16 → q.recvUsed < 16 →
        let key := leAt p.payload 4 4
        let fails : Prop := leAt p.payload 0 2 = 2 ∧ leAt p.payload 2 2 = keyWindow key ∧ KeyOf s key p.qpn
        (fails → ∃ t, exec (.windowFail p) s = .next t ∧ WindowEnds s t (keyWindow key) 3 ∧ acked t ((q.msn + 1) % 2 ^ 24) ∧ t.log ≠ s.log) ∧
        (¬fails → ∃ t, exec (.windowFail p) s = .next t ∧ t = { s with ing := t.ing } ∧ t.ing.stray = satAdd 0xFFFF s.ing.stray 1 ∧
          acked t ((q.msn + 1) % 2 ^ 24))))

/-- R592, R594, R596 to R598: a packet that names no queue pair of its lane and address is STRAY and one in error is not answered; a
repeated request is acknowledged again, one ahead of its place is answered with a sequence NAK, one that is not supported with NAK Invalid
Request; an ACK ends the sends up to its PSN, a timeout repeats them while tries are left, and then the queue pair is in error. These
statements rest on log entry 20 where the rules leave the behaviour to the standard. Beside the rules it rests on the model's readings in
notes/assumptions/ 20. -/
def Obligations.QueuePairsAnswerRetryAndFail : Prop :=
  ∀ (s : State) (p : RocePkt),
    (∀ i ∈ [Instr.rdmaWrite p, .windowFail p, .invalidRequest p, .cnp p, .roceAck p],
      (s.laneUp p.lane = false → exec i s = .next s) ∧
      (s.laneUp p.lane = true → (∀ q, s.qp p.qpn = some q → q.plane ≠ p.lane ∨ q.localIp ≠ p.dstIp) →
        exec i s = .next { s with ing := { s.ing with stray := satAdd 0xFFFF s.ing.stray 1 } }) ∧
      (∀ q, s.laneUp p.lane = true → s.qp p.qpn = some q → q.plane = p.lane → q.localIp = p.dstIp → q.state = .error → exec i s = .next s)) ∧
    (∀ q, MeetsQp s p q →
      (∀ i ∈ [Instr.rdmaWrite p, .windowFail p, .invalidRequest p], p.psn < 2 ^ 24 → q.rqPsn < 2 ^ 24 →
        (psnDiff p.psn q.rqPsn < 0 → exec i s =
          .next { s with ing := { s.ing with out := s.ing.out ++ [.ack p.qpn ((q.rqPsn + 2 ^ 24 - 1) % 2 ^ 24) 0x1F q.msn] } }) ∧
        (0 < psnDiff p.psn q.rqPsn → exec i s = .next { s with ing := { s.ing with out := s.ing.out ++ [.ack p.qpn q.rqPsn 0x60 q.msn] } })) ∧
      (NextOfQp p q → ∃ t, exec (.invalidRequest p) s = .next t ∧ QpInError s t p.qpn ∧ t.ing.out = s.ing.out ++ [.ack p.qpn p.psn 0x61 q.msn]) ∧
      exec (.cnp p) s = .next { s with ing := { s.ing with cnpSeen := s.ing.cnpSeen + 1 } } ∧
      (let rest := q.out.filter (fun e => decide (0 < psnDiff e.1 p.psn))
       p.syndrome / 32 % 4 = 0 → ∃ t q', exec (.roceAck p) s = .next t ∧ t = { s with ing := { s.ing with qps := t.ing.qps } } ∧
         t.qp p.qpn = some q' ∧ q'.out = rest ∧ q'.sqPsn = q.sqPsn ∧ (rest.length < q.out.length → q'.tries = q.retry ∧ q'.sentAt = s.now)) ∧
      (p.syndrome / 32 % 4 = 3 → p.syndrome % 32 ≠ 0 → ∃ t, exec (.roceAck p) s = .next t ∧ QpInError s t p.qpn)) ∧
    (∀ q, s.laneUp p.lane = true → s.qp p.qpn = some q → q.plane = p.lane → q.localIp = p.dstIp → q.state = .ready → p.ce = true →
      let free : Prop := ∀ t0, q.cnpAt = some t0 → t0 + 50000 ≤ s.now
      (free → ∃ t, exec (.cnp p) s = .next t ∧ t = { s with ing := t.ing } ∧ t.ing.out = s.ing.out ++ [.cnp p.qpn] ∧
        t.ing.cnpSent = satAdd 0xFFFF s.ing.cnpSent 1 ∧ ∃ q', t.qp p.qpn = some q' ∧ q'.cnpAt = some s.now) ∧
      (¬free → exec (.cnp p) s = .next { s with ing := { s.ing with cnpSeen := s.ing.cnpSeen + 1 } })) ∧
    (∀ n, (s.qp n = none → exec (.roceAckTimeout n) s = .next s) ∧
      ∀ q, s.qp n = some q →
        (q.state = .error ∨ q.out = [] ∨ s.now < q.sentAt + 4096 * 2 ^ q.ackTimeout → exec (.roceAckTimeout n) s = .next s) ∧
        (q.state = .ready → q.out ≠ [] → q.sentAt + 4096 * 2 ^ q.ackTimeout ≤ s.now →
          (q.tries = 0 → ∃ t, exec (.roceAckTimeout n) s = .next t ∧ QpInError s t n) ∧
          (q.tries ≠ 0 → ∃ t, exec (.roceAckTimeout n) s = .next t ∧ t = { s with ing := t.ing } ∧
            t.qp n = some { q with tries := q.tries - 1, sentAt := s.now } ∧ t.ing.out = s.ing.out ++ q.out.map (fun e => .send n e.1 e.2))))

/-- R607 to R609, R621 to R623, R800, R804, R812 to R814: the management port answers ARP and echo requests (at most 100 in a second),
renews its lease at half its lifetime and forgets an ARP entry after 300 s; the console's commands act only in recovery wait; the TAP
selects an instruction only where it is available and otherwise BYPASS, and an unlock response uses up its challenge, a failed one for
good. Beside the rules it rests on the model's readings in notes/assumptions/ 20, 69. -/
def Obligations.ManagementPortConsoleAndTestAccess : Prop :=
  ∀ (s : State),
    let m := s.mgmt
    (∀ (f : MgmtFrame),
      let others := m.arp.filter (fun e => decide (e.1 ≠ f.srcIp))
      let entry := (f.srcIp, f.srcMac, s.now)
      let mine : Prop := m.ip ≠ 0 ∧ f.dstIp = m.ip
      (s.mgmtTakes f = true ↔ s.clocked = true ∧ (s.boot.nganor = true ∨ s.boot.stage = 6 ∨ s.boot.stage = 1 ∧ s.boot.source = 1) ∧
        f.size ≤ 1522 ∧ (f.vid = none ∨ f.vid = s.mgmtVid)) ∧
      (s.mgmtTakes f = false → exec (.arp f) s = .next s ∧ exec (.icmpEcho f) s = .next s) ∧
      (s.mgmtTakes f = true →
        (¬mine → (∀ e ∈ m.arp, e.1 ≠ f.srcIp) → exec (.arp f) s = .next s) ∧
        (mine → others.length < 64 → exec (.arp f) s = .next { s with mgmt := { m with
          arp := others ++ [entry], sent := if f.request then m.sent ++ [(1, f.srcIp, [])] else m.sent } }) ∧
        (mine → 64 ≤ others.length → ∃ t, exec (.arp f) s = .next t ∧ entry ∈ t.mgmt.arp ∧ t.mgmt.arp.length ≤ others.length + 1 ∧
          t = { s with mgmt := t.mgmt, freeCtr := t.freeCtr }) ∧
        (¬mine ∨ f.plainIp = false ∨ f.request = false → exec (.icmpEcho f) s = .next s) ∧
        (mine → f.plainIp = true → f.request = true →
          let fresh : Prop := m.echoes = 0 ∨ m.echoAt + 1000000000 ≤ s.now
          (fresh → exec (.icmpEcho f) s = .next { s with mgmt := { m with echoAt := s.now, echoes := 1, sent := m.sent ++ [(3, f.srcIp, f.payload)] } }) ∧
          (¬fresh → m.echoes < 100 → exec (.icmpEcho f) s =
            .next { s with mgmt := { m with echoes := m.echoes + 1, sent := m.sent ++ [(3, f.srcIp, f.payload)] } }) ∧
          (¬fresh → 100 ≤ m.echoes → exec (.icmpEcho f) s = .next s)))) ∧
    (∀ answer,
      let half : Prop := ∀ l, m.lease = some l → l.1 + l.2 * 500000000 ≤ s.now
      (¬half ∨ s.bcrOn 2 = true ∨ s.mgmtUp = false → exec (.dhcpRenew answer) s = .next s) ∧
      (half → s.bcrOn 2 = false → s.mgmtUp = true →
        (∀ ip life, answer = some (ip, life) → exec (.dhcpRenew answer) s =
          .next { s with mgmt := { m with ip := ip, lease := some (s.now, life) } }) ∧
        (answer = none → (∃ l, m.lease = some l ∧ l.1 + l.2 * 1000000000 ≤ s.now) → exec (.dhcpRenew answer) s =
          .next { s with mgmt := { m with ip := 0, lease := none } }) ∧
        (answer = none → (∀ l, m.lease = some l → s.now < l.1 + l.2 * 1000000000) → exec (.dhcpRenew answer) s = .next s))) ∧
    (∀ ip : BitVec 32, exec (.arpEntryAgeOut ip) s = .next { s with mgmt := { m with
      arp := m.arp.filter (fun e => !decide (e.1 = ip.toNat ∧ e.2.2 + 300000000000 ≤ s.now)) } }) ∧
    (let recovery : Prop := s.clocked = true ∧ s.boot.stage = 6
     (¬recovery → ∀ i ∈ [Instr.uartInfo, .uartBootQspi, .uartBootTftp, .uartReboot], exec i s = .next s) ∧
     (recovery → (∃ t, exec .uartInfo s = .next t ∧ t = { s with uart := t.uart, freeCtr := s.freeCtr + 1 } ∧
       (∃ line, line ∈ t.uart.lines ∨ s.uart.dropped < t.uart.dropped)) ∧
       (∃ t, exec .uartBootQspi s = .next t ∧ t = { s with boot := { s.boot with stage := 1, source := 0, tftp := [], stageAt := s.now } }) ∧
       (∃ t, exec .uartBootTftp s = .next t ∧ t.boot.stage = 1 ∧ t.boot.source = 1 ∧ t.boot.tftp = [] ∧ t.mem = s.mem) ∧
       (∃ t, exec .uartReboot s = .next t ∧ t.boot.cause = 2 ∧ t.boot.pinReset = true ∧ t.boot.stage = 0 ∧ t.boot.nganor = false ∧
         t.job.state = .none ∧ t.mem = [] ∧ t.flash = s.flash ∧ t.boot.rollback = s.boot.rollback ∧ t.therm.tripSeen = s.therm.tripSeen))) ∧
    (∀ cells,
      let sel (i : TapInstr) (out : List Byte) : DebugSt := { s.dbg with ir := i, shiftOut := out }
      let gated (i : TapInstr) := sel (if s.boot.pinReset then i else .bypass) []
      exec .idcode s = .next { s with dbg := sel .idcode [0xE3#8, 0x89#8, 0x76#8, 0x19#8] } ∧
      exec (.samplePreload cells) s = .next { s with dbg := { sel .samplePreload [] with cells := cells } } ∧
      exec (.extest cells) s = .next { s with dbg := { gated .extest with cells := if s.boot.pinReset then cells else s.dbg.cells } } ∧
      exec .clamp s = .next { s with dbg := gated .clamp } ∧ exec .highz s = .next { s with dbg := gated .highz } ∧
      exec .bypass s = .next { s with dbg := sel .bypass [] } ∧
      exec .debug s = .next { s with dbg := sel (if s.dbg.unlocked = true ∧ s.dbg.scope % 2 = 1 then .debug else .bypass) [] }) ∧
    (3 ≤ s.dbg.tries → exec .unlockChal s = .next { s with dbg := { s.dbg with ir := .unlockChal, shiftOut := List.replicate 64 0#8 } }) ∧
    (s.dbg.tries < 3 → ∃ t, exec .unlockChal s = .next t ∧ t = { s with freeCtr := t.freeCtr, dbg := t.dbg } ∧ t.dbg.ir = .unlockChal ∧
      t.dbg.challenge = some t.dbg.shiftOut ∧ t.dbg.tries = s.dbg.tries ∧ t.dbg.shiftOut.length = 64 ∧
      leAt t.dbg.shiftOut 0 8 = Config.deviceId.toNat ∧ leAt t.dbg.shiftOut 0x28 4 = s.boot.rollback % 2 ^ 32 ∧
      leAt t.dbg.shiftOut 0x2C 4 = 3 - s.dbg.tries) ∧
    (∀ response,
      let right : Prop := s.dbg.tries < 3 ∧ ∃ c, s.dbg.challenge = some c ∧ responseOk c response = true
      (right → exec (.unlockResp response) s = .next { s with dbg := { s.dbg with
        ir := .unlockResp, shiftOut := [], challenge := none, unlocked := true, scope := s.dbg.scope ||| leAt response 0 4 % 4 } }) ∧
      (¬right → exec (.unlockResp response) s = .next { s with dbg := { s.dbg with
        ir := .unlockResp, shiftOut := [], challenge := none, tries := min 3 (s.dbg.tries + 1) } }))

/-- R611, R612, R616, R617, R652, R664: an SMBus write with a bad PEC is discarded and counted; the request buffer is written where the
write fits, a read returns the response from the read offset on, 0x01 rings; the coolant record is latched as a whole, with or without
Nganor. A regulator alert is read, logged and cleared, a good poll ends PMBUS_LOST and the third failure in a row sets it. Beside the
rules it rests on the model's readings in notes/assumptions/ 56. -/
def Obligations.TrayAndRegulatorBuses : Prop :=
  ∀ (s : State),
    let answered (acked : Bool) (bytes : List Byte) := { s with smb := { s.smb with acked := acked, reply := bytes } }
    let x := s.box 0
    let served : Prop := s.serves 0 = true
    (∀ data,
      let off := leAt data 0 2
      let fits : Prop := 3 ≤ data.length ∧ data.length ≤ 255 ∧ off + data.length ≤ 4098
      (¬served → exec (.mbWrite true data) s = .next (answered false [])) ∧
      (served → ¬fits ∨ x.state = .busy → exec (.mbWrite true data) s = .next (answered true [])) ∧
      (served → fits → x.state ≠ .busy → ∃ t, exec (.mbWrite true data) s = .next t ∧
        t = { answered true [] with mb := { s.mb with boxes := t.mb.boxes } } ∧ (∀ k, k ≠ 0 → t.box k = s.box k) ∧
        t.box 0 = { x with req := (t.box 0).req } ∧
        ∀ i, tabFind (t.box 0).req i = if off ≤ i ∧ i < off + (data.length - 2) then data[2 + (i - off)]? else tabFind x.req i)) ∧
    (∀ data value (offset : BitVec 16),
      let discarded (t : State) : Prop := t = { answered true [] with smb := t.smb, totals := t.totals } ∧
        t.smb = { s.smb with acked := true, reply := [], pecErrors := s.smb.pecErrors + 1 }
      (served → ∀ i ∈ [Instr.mbWrite false data, .mbRdptr false offset, .mbDoorbell false value], ∃ t, exec i s = .next t ∧ discarded t) ∧
      (∃ t, exec (.coolant false data) s = .next t ∧ discarded t) ∧
      (¬served → ∀ i ∈ [Instr.mbWrite false data, .mbRdptr true offset, .mbDoorbell true value, .mbRead], exec i s = .next (answered false [])) ∧
      (served → exec (.mbRdptr true offset) s = .next { s with smb := { s.smb with rdptr := offset.toNat, acked := true, reply := [] } }) ∧
      (served → value ≠ 1#8 → exec (.mbDoorbell true value) s = .next (answered true [])) ∧
      (served → x.state = .idle → ∃ t, exec (.mbDoorbell true 1#8) s = .next t ∧ (t.box 0).seqLo = leAt (x.reqBytes 0 0 16) 0xA 2 % 256 ∧
        (t.box 0).state ≠ .idle ∧ t.smb.acked = true ∧ t.mem = s.mem)) ∧
    (served →
      let top := if x.state = .done then 16 + leAt (x.rspBytes 0 4 4) 0 4 else 4096
      let n := min 255 (top - s.smb.rdptr)
      exec .mbRead s = .next { s with smb := { s.smb with rdptr := s.smb.rdptr + n, acked := true, reply := x.rspBytes 0 s.smb.rdptr n } }) ∧
    exec .mbStatus s = .next (answered true (leBytes 2 (if s.serves 0 then s.regVal (.mbStatus 0) % 65536 else 0xFFFF))) ∧
    exec .ident s = .next (answered true (leBytes 8 Config.deviceId.toNat ++ [0xB0#8, 0#8, 0#8, 0#8] ++ leBytes 4 Config.partCode.toNat)) ∧
    (∀ data, data.length ≠ 12 → exec (.coolant true data) s = .next (answered true [])) ∧
    (∀ data, data.length = 12 → ∃ t, exec (.coolant true data) s = .next t ∧ t = { s with smb := t.smb, therm := t.therm, totals := t.totals } ∧
      t.smb.coolant = { inlet := (BitVec.ofNat 16 (leAt data 0 2)).toInt, outlet := (BitVec.ofNat 16 (leAt data 2 2)).toInt, flow := leAt data 4 2,
                        valid := leAt data 6 2 % 8, seq := leAt data 8 4, at_ := s.now, have_ := true } ∧
      t.smb.coolantOk = s.smb.coolantOk + 1 ∧ t.smb.acked = true ∧
      t.therm = { s.therm with seqs := (leAt data 8 4 :: s.therm.seqs).take 3 }) ∧
    (∀ words,
      (s.nganorUp = false → exec (.pmbAlert words) s = .next { s with pmb := { s.pmb with alert := true } }) ∧
      (s.nganorUp = true → ∃ t, exec (.pmbAlert words) s = .next t ∧ t = { s with pmb := t.pmb, log := t.log } ∧ t.log ≠ s.log ∧
        t.pmb.alert = false ∧ t.pmb.lost = false ∧ t.pmb.stale = false ∧ t.pmb.fails = 0 ∧ t.pmb.sent = s.pmb.sent ++ [(0x03, 0)]) ∧
      (∀ ok, s.nganorUp = false → exec (.pmbusPoll ok words) s = .next s) ∧
      (s.nganorUp = true → ∃ t, exec (.pmbusPoll true words) s = .next t ∧ t = { s with pmb := t.pmb } ∧ t.pmb.lost = false ∧ t.pmb.stale = false ∧
        t.pmb.fails = 0 ∧ (∀ code v, words = [(code, v)] → code ∈ pollCodes → tabGet 0 t.pmb.telemetry code = v % 65536)) ∧
      (s.nganorUp = true → s.pmb.fails < 2 ∨ s.pmb.lost = true → exec (.pmbusPoll false words) s =
        .next { s with pmb := { s.pmb with fails := s.pmb.fails + 1 } }) ∧
      (s.nganorUp = true → 2 ≤ s.pmb.fails → s.pmb.lost = false → ∃ t, exec (.pmbusPoll false words) s = .next t ∧
        t = { s with pmb := { s.pmb with fails := 0, lost := true, stale := true }, log := t.log } ∧
        s.log.eventSeq < t.log.eventSeq)) ∧
    (∀ w : BitVec 16, exec (.powerGainTrim w) s =
      .next (if s.nganorUp = true ∧ s.pmb.lost = false then { s with pwr := { s.pwr with pkgW := w.toNat } } else s))

/-- R640 to R649, R876: an alert takes every ON domain to P7 in hardware and is released after 100 µs; VIN_FAIL stops the clocks and
abandons what is not the state stream, the domains turn off, the flush sends the unacknowledged records in ascending SEQ within its limit,
and the last-gasp record is programmed into the erased region; a brownout, an overvoltage and a low VAUX cut it short. Beside the rules it
rests on the model's readings in notes/assumptions/ 61. -/
def Obligations.SupplyEventsDropAndSave : Prop :=
  ∀ (s : State),
    let off (t : State) : Prop := t.pwr.vinOff = true ∧ ∀ k, (t.dom k).mode = .off
    let kept (t : State) : Prop := t.mem = s.mem ∧ t.clusters = s.clusters ∧ t.job = s.job ∧ t.step = s.step
    let dead : Prop := s.boot.pinReset = true ∨ s.pwr.vinOff = true ∨ s.therm.tripped = true
    let counted : PwrSt := { s.pwr with alert := true, alertSeen := true, alertCount := satAdd 0xFFFF s.pwr.alertCount 1 }
    (s.boot.pinReset = true → exec .pwrAlertTaken s = .next s ∧ exec .vinFailGlitch s = .next s) ∧
    (s.boot.pinReset = false →
      (s.pwr.save ≠ .none → ∃ t, exec .pwrAlertTaken s = .next t ∧ t = { s with pwr := counted, totals := t.totals }) ∧
      (s.pwr.save = .none → s.pwr.alertHold = true → exec .pwrAlertTaken s = .next { s with pwr := { s.pwr with alert := true } }) ∧
      (s.pwr.save = .none → s.pwr.alertHold = false → ∃ t, exec .pwrAlertTaken s = .next t ∧ kept t ∧
        t.pwr = { counted with alertHold := true, slots := t.pwr.slots } ∧ t.opp.effective = 7 ∧ t.opp.alertDem = true ∧ t.opp.alertStep = 7 ∧
        s.log.eventSeq < t.log.eventSeq ∧
        ∀ k, (s.dom k).mode = .on → (t.dom k).mode = .on ∧ (t.dom k).freq = 7 ∧ (t.dom k).volt = 7 ∧ (t.dom k).nextFreq = none) ∧
      exec .vinFailGlitch s = .next { s with pwr := { s.pwr with failGlitch := satAdd 0xFFFF s.pwr.failGlitch 1 } }) ∧
    (s.pwr.alertHold = false → exec .pwrAlertRelease s = .next s) ∧
    (s.pwr.alertHold = true → ∃ t, exec .pwrAlertRelease s = .next t ∧ t = { s with
      pwr := { s.pwr with alert := false, alertHold := false }, opp := { s.opp with alertDem := false, hyst := true, hystAt := s.tick }, log := t.log } ∧
      t.log.eventSeq = s.log.eventSeq + 1) ∧
    (dead ∨ s.pwr.save ≠ .none → exec .vinFailTaken s = .next s) ∧
    (¬dead → s.pwr.save = .none → s.boot.nganor = true → ∃ t, exec .vinFailTaken s = .next t ∧ kept t ∧ t.pwr.save = .clocks ∧
      t.pwr.saveAt = s.now ∧ t.pwr.vinFail = true ∧ t.clocked = false ∧ t.fab.posts = [] ∧ t.fab.ops = [] ∧ t.fab.send = [] ∧ t.fab.tx = [] ∧
      t.ss.outstanding = s.ss.outstanding ∧ t.opp.effective = 7 ∧ t.pwr.gasp.cause = 1 ∧ t.pwr.gasp.tick = s.tick ∧
      t.pwr.gasp.step = s.step.number ∧ t.pwr.gasp.committed = s.ss.committed ∧ t.pwr.gasp.stepT0 = s.opp.effective ∧
      ∀ k, (s.dom k).mode = .on → (t.dom k).freq = 7 ∧ (t.dom k).volt = 7) ∧
    (¬dead → s.pwr.save = .none → s.boot.nganor = false → ∃ t, exec .vinFailTaken s = .next t ∧ kept t ∧ off t ∧ t.pwr.save = .saved ∧
      t.flash = s.flash) ∧
    (s.pwr.save ≠ .clocks → exec .saveDomainsOff s = .next s) ∧
    (s.pwr.save = .clocks → ∃ t, exec .saveDomainsOff s = .next t ∧ kept t ∧ t.pwr.save = .flush ∧ (∀ k, (t.dom k).mode = .off) ∧
      t.ss.formed = [] ∧ t.ss.sent = [] ∧ t.pwr.flush = t.ss.unsent.map (·.seq) ∧ t.pwr.gasp.sent = (t.ss.unsent.map (·.size)).sum ∧
      (t.ss.unsent.map (·.size)).sum ≤ 268435456 ∧ t.ss.unsent.Pairwise (fun a b => a.seq ≤ b.seq) ∧
      (∀ r ∈ t.ss.unsent, r ∈ s.ss.outstanding) ∧ (s.ss.twin ≠ 1 ∨ s.unsentBytes = 0 → t.ss.unsent = []) ∧
      (s.ss.twin = 1 → s.unsentBytes ≠ 0 → (s.ss.outstanding.map (·.size)).sum ≤ 268435456 → ∀ r ∈ s.ss.outstanding, r ∈ t.ss.unsent)) ∧
    (let late : Prop := s.pwr.saveAt + 3500000 ≤ s.now
     let empty : Prop := s.ss.unsent = [] ∧ s.ss.sent = []
     (s.pwr.save ≠ .flush ∨ ¬late ∧ ¬empty → exec .flushEnd s = .next s) ∧
     (s.pwr.save = .flush → late ∨ empty → ∃ t, exec .flushEnd s = .next t ∧ kept t ∧ off t ∧ t.pwr.save = .handover ∧
       t.pwr.gasp.acked = s.ss.acked ∧ t.pwr.gasp.cause = s.pwr.gasp.cause ∧ t.flash = s.flash ∧
       t.pwr.gasp.flags = s.pwr.gasp.flags + (if s.pwr.gasp.flags / 4 % 2 = 0 ∧ s.ss.unsent = [] ∧ s.ss.sent = [] then 1 else 0) +
         (if s.pwr.saveAt + 3500000 ≤ s.now ∧ ¬(s.ss.unsent = [] ∧ s.ss.sent = []) then 2 else 0))) ∧
    (s.pwr.save ≠ .handover → exec .lastGaspProgrammed s = .next s) ∧
    (s.pwr.save = .handover → ∃ t, exec .lastGaspProgrammed s = .next t ∧
      t = { s with flash := t.flash, pwr := { s.pwr with save := .saved, flashBusy := false } } ∧
      (s.flashBlank 0xC0000 65536 = false → t.flash = s.flash) ∧
      (s.flashBlank 0xC0000 65536 = true → s.pwr.gasp.errors.length ≤ 1016 → t.gaspValid 0xC0000 = true ∧
        t.flashBytes 0xC0000 65536 = s.pwr.gasp.bytes ∧ ∀ a, a < 0xC0000 ∨ 0xD0000 ≤ a → t.flashByte a = s.flashByte a)) ∧
    (∀ i ∈ [(2, Instr.brownout), (4, .overvolt)],
      let s0 := if i.1 = 4 then { s with pwr := { s.pwr with ovSeen := true } } else s
      (dead → exec i.2 s = .next s0) ∧
      (¬dead → s.pwr.save = .none → s.boot.nganor = true → ∃ t, exec i.2 s = .next t ∧ kept t ∧ off t ∧ t.pwr.save = .handover ∧
        t.pwr.gasp.cause = i.1 ∧ t.pwr.ovSeen = s0.pwr.ovSeen ∧ t.ss.unsent = [] ∧ t.ss.sent = []) ∧
      (¬dead → s.pwr.save = .none → s.boot.nganor = false → ∃ t, exec i.2 s = .next t ∧ kept t ∧ off t ∧ t.pwr.save = .saved) ∧
      (¬dead → s.pwr.save = .flush → ∃ t, exec i.2 s = .next t ∧ kept t ∧ off t ∧ t.pwr.save = .handover ∧ t.pwr.ovSeen = s0.pwr.ovSeen ∧
        t.pwr.gasp.cause = if i.1 = 2 then 3 else s.pwr.gasp.cause)) ∧
    (s.pwr.vinOff = true → exec .vauxLow s = .next s) ∧
    (s.pwr.vinOff = false → ∃ t, exec .vauxLow s = .next t ∧ kept t ∧ off t ∧ t.pwr.save = .none ∧ t.flash = s.flash ∧ t.fab.posts = [])

/-- R49, R629 to R638, R654: a domain reading, the least of its sensors', steers the output within setpoint + 60 mV and 750 mV, engages
boost below setpoint − 25 mV and releases it, and starts and ends stretching; more than 0.2% of stretched cycles activates the droop loop;
a FENCED slot at rest enters RETAIN with its scalar cache written back, and a slot wakes from RETAIN as it was and from OFF blank. Beside
the rules it rests on the model's readings in notes/assumptions/ 24. -/
def Obligations.SlotDomainsFollowTheirReadings : Prop :=
  ∀ (s : State) (k : Fin 288),
    let d := s.dom k.val
    let set := (Config.vf d.volt).toNat
    let only (t : State) : Prop := t = { s with pwr := { s.pwr with slots := t.pwr.slots } } ∧ ∀ j, j ≠ k.val → t.dom j = s.dom j
    (d.mode ≠ .on → ∀ mv, exec (.droopReading k mv) s = .next s) ∧
    (d.mode = .on → ∀ mv r, r ∈ mv → (∀ x ∈ mv, r ≤ x) → ∃ t, exec (.droopReading k mv) s = .next t ∧ only t ∧
      (t.dom k.val).reading = r ∧ (t.dom k.val).output = min (set + (d.output - r)) (min (set + 60) 750) ∧
      (t.dom k.val).mode = .on ∧ (t.dom k.val).freq = d.freq ∧ (t.dom k.val).volt = d.volt ∧
      (d.boosting = true → ((t.dom k.val).boosting = false ↔ set - 10 ≤ r ∨ d.boostAt + 100 ≤ s.now)) ∧
      (d.boosting = false → ((t.dom k.val).boosting = true ↔ r < set - 25 ∧ d.rearmAt ≤ s.now)) ∧
      (d.boosting = false → (t.dom k.val).boosting = true → (t.dom k.val).boosts = satAdd 0xFFFF d.boosts 1 ∧ (t.dom k.val).boostAt = s.now) ∧
      (d.boosting = true → (t.dom k.val).boosting = false → (t.dom k.val).rearmAt = s.now + 300) ∧
      (t.dom k.val).stretching = (if r < set - 40 then true else if set - 30 ≤ r then false else d.stretching)) ∧
    (d.boosting = false → exec (.boostRelease k) s = .next s) ∧
    (d.boosting = true → exec (.boostRelease k) s = .next (s.setDom k.val { d with boosting := false, rearmAt := s.now + 300 })) ∧
    (d.moving = false → exec (.voltageTransitionComplete k) s = .next s) ∧
    (d.moving = true → exec (.voltageTransitionComplete k) s = .next (s.setDom k.val { d with moving := false, output := set })) ∧
    (∀ cycles stretched,
      let total := satAdd 0xFFFFFFFF d.stretched stretched
      let now := { d with stretched := total, droopHigh := decide (cycles < 1000 * stretched) }
      (d.mode ≠ .on → exec (.droopHigh k cycles stretched) s = .next s) ∧
      (d.mode = .on → 1000 * stretched ≤ 2 * cycles → s.opp.droopDem = false → exec (.droopHigh k cycles stretched) s = .next (s.setDom k.val now)) ∧
      (d.mode = .on → 1000 * stretched ≤ cycles → s.opp.droopDem = true → (∀ e ∈ s.pwr.slots, e.1 ≠ k.val → e.2.droopHigh = false) →
        (s.pwr.slots.map (·.1)).Pairwise (· < ·) → ∃ t, exec (.droopHigh k cycles stretched) s = .next t ∧ t.dom k.val = now ∧
          t.opp = { s.opp with droopDem := false, hyst := true, hystAt := s.tick }) ∧
      (d.mode = .on → 2 * cycles < 1000 * stretched → s.ras.hist = [] → ∃ t, exec (.droopHigh k cycles stretched) s = .next t ∧
        t.pwr.droopHigh = true ∧ t.opp.droopDem = true ∧ (t.dom k.val).stretched = total ∧ t.mem = s.mem ∧ t.clusters = s.clusters ∧
        (s.opp.droopDem = false → t.opp.droopStep = min 7 (s.opp.effective + 1) ∧ t.opp.droopEvents = satAdd 0xFFFF s.opp.droopEvents 1))) ∧
    (∀ cal,
      let u := s.unit (unitId 1 k.val)
      (s.clocked = false → ∀ on, exec (.slotModeChange k on cal) s = .next s) ∧
      (s.clocked = true →
        (u.state = .spare ∨ u.state = .retired ∨ d.mode = .on → exec (.slotModeChange k true cal) s = .next s) ∧
        (u.state ≠ .spare → u.state ≠ .retired → d.mode = .retain → ∃ t, exec (.slotModeChange k true cal) s = .next t ∧ only t ∧
          (t.dom k.val).mode = .on ∧ (t.dom k.val).freq = s.opp.effective ∧ (t.dom k.val).volt = s.opp.effective) ∧
        (u.state ≠ .spare → u.state ≠ .retired → d.mode = .off → u.logical < 256 → ∃ t, exec (.slotModeChange k true cal) s = .next t ∧
          (t.dom k.val).mode = .on ∧ t.cl u.logical = { fenced := (s.cl u.logical).fenced } ∧ (∀ c, c ≠ u.logical → t.cl c = s.cl c) ∧
          ∀ a, t.byte a = if lsBase u.logical ≤ a ∧ a < lsBase u.logical + 0x200000 then 0#8 else s.byte a) ∧
        (d.mode = .on → u.state = .fenced → 256 ≤ u.logical → ∃ t, exec (.slotModeChange k false cal) s = .next t ∧ only t ∧
          (t.dom k.val).mode = .retain) ∧
        (d.mode = .on → u.state = .fenced → u.logical < 256 → (s.cl u.logical).atRest = true → ∃ t, exec (.slotModeChange k false cal) s = .next t ∧
          (t.dom k.val).mode = .retain ∧ t.cl u.logical = { s.cl u.logical with cache := [] } ∧ ∀ c, c ≠ u.logical → t.cl c = s.cl c) ∧
        (d.mode ≠ .on ∨ u.state ≠ .fenced ∨ (u.logical < 256 ∧ (s.cl u.logical).atRest = false) →
          exec (.slotModeChange k false cal) s = .next s)))

/-- R668 to R671, R677, R678, R681 to R685: a sample of package power enters the records and the band counts of a job's phases; the cap
loop acts on the mean of ten samples, demands one step lower each time, and is released 100 W lower; the demands of released loops end
after the hysteresis wait; keep-warm moves by at most 4 W, never past the band's lower edge and never beside a protection loop. Beside the
rules it rests on the model's readings in notes/assumptions/ 10, 37, 53, 58. -/
def Obligations.PackagePowerIsHeldInItsBand : Prop :=
  ∀ (s : State),
    let o := s.opp
    let kept (t : State) : Prop := t.mem = s.mem ∧ t.clusters = s.clusters ∧ t.job = s.job ∧ t.step = s.step ∧ t.fab = s.fab ∧ t.ss = s.ss ∧
      t.opp.effective = o.effective ∧ t.opp.requested = o.requested ∧ t.opp.table = o.table
    let phases : Prop := s.job.state = .running ∧ s.step.phase < 5
    let guarded : Prop := o.alertDem = true ∨ o.capDem = true ∨ o.droopDem = true ∨ o.thermDem = true ∨ o.coolDem = true
    (∀ w : W16,
      let n := w.toNat
      (s.pwr.vinOff = true → exec (.pkgWSample w) s = .next s) ∧
      (s.pwr.vinOff = false → ∃ t, exec (.pkgWSample w) s = .next t ∧ kept t ∧ t.pwr = { s.pwr with pkgW := n } ∧
        t = { s with pwr := t.pwr, opp := t.opp, therm := { s.therm with secSum := s.therm.secSum + n, secN := s.therm.secN + 1 } } ∧
        t.opp.samples = (n :: o.samples).take 1000 ∧ t.opp.peakNow = max o.peakNow n ∧
        (s.jobRuns = true → t.opp.stepPeak = max (max o.peakNow n) o.peakBefore) ∧
        (s.jobRuns = false → t.opp.stepPeak ∈ t.opp.samples ∧ ∀ x ∈ t.opp.samples, x ≤ t.opp.stepPeak) ∧
        (phases → t.opp.phaseSum = o.phaseSum + n ∧ t.opp.phaseN = o.phaseN + 1) ∧
        (¬phases ∨ guarded → t.opp.bandHigh = o.bandHigh ∧ t.opp.bandLow = o.bandLow) ∧
        (phases → ¬guarded →
          t.opp.bandHigh = (if s.hud.pceil + fld o.cfg 25 16 < n then satAdd 0xFFFF o.bandHigh 1 else o.bandHigh) ∧
          t.opp.bandLow = if n + fld o.cfg 35 26 < s.hud.pceil then satAdd 0xFFFF o.bandLow 1 else o.bandLow))) ∧
    (let ten := o.samples.take 10
     let prot := min 2000 (fld o.cfg 10 0 + 100)
     let ready : Prop := 10 ≤ o.samples.length ∧ s.clocked = true
     (¬ready → exec .capLoopCheck s = .next s) ∧
     (ready → 10 * prot < ten.sum → ∃ t, exec .capLoopCheck s = .next t ∧ kept t ∧ t.opp.capDem = true ∧ t.opp.phaseClean = false ∧
       t.opp.capStep = (if o.capDem then min 7 (o.capStep + 1) else min 7 (o.effective + 1)) ∧
       t.opp.capEvents = (if o.capDem then o.capEvents else satAdd 0xFFFF o.capEvents 1) ∧
       t.log.eventSeq = (if o.capDem then s.log.eventSeq else s.log.eventSeq + 1) ∧
       t.opp.thermStep = o.thermStep ∧ t.opp.droopStep = o.droopStep ∧ t.opp.alertStep = o.alertStep) ∧
     (ready → ten.sum ≤ 10 * prot → o.capDem = true → ten.sum + 1000 ≤ 10 * prot → ∃ t, exec .capLoopCheck s = .next t ∧
       t = { s with opp := { o with capDem := false, hyst := true, hystAt := s.tick }, log := t.log } ∧
       t.log.eventSeq = s.log.eventSeq + 1) ∧
     (ready → ten.sum ≤ 10 * prot → o.capDem = false ∨ 10 * prot < ten.sum + 1000 → exec .capLoopCheck s = .next s)) ∧
    (let lower : Prop := ∃ d ∈ [(o.alertDem, o.alertStep), (o.capDem, o.capStep), (o.droopDem, o.droopStep), (o.thermDem, o.thermStep),
       (o.coolDem, o.coolStep)], d.1 = true ∧ o.requested < d.2
     let ended : Prop := o.hyst = true ∧ s.clocked = true ∧ o.hystAt + fld o.cfg 47 40 * 1000000 ≤ s.tick ∧ ¬lower
     (¬ended → exec .hysteresisExpire s = .next s) ∧
     (ended → ∃ t, exec .hysteresisExpire s = .next t ∧ kept t ∧ t.opp.hyst = false ∧ t.log = s.log ∧
       (o.alertDem = false → t.opp.alertStep = 0) ∧ (o.capDem = false → t.opp.capStep = 0) ∧ (o.droopDem = false → t.opp.droopStep = 0) ∧
       (o.thermDem = false → t.opp.thermStep = 0) ∧ (o.coolDem = false → t.opp.coolStep = 0) ∧
       t.opp.capDem = o.capDem ∧ t.opp.thermDem = o.thermDem)) ∧
    (∀ w : W16,
      let low : Int := (s.hud.pceil : Int) - fld o.cfg 35 26
      let quiet : Prop := guarded ∨ s.pwr.vinFail = true ∨ s.therm.tripped = true ∨ s.pwr.vinOff = true ∨ bitN o.kwCfg 0 = false
      ∃ t, exec (.keepwarmAdjust w) s = .next t ∧ kept t ∧ t = { s with opp := t.opp, totals := t.totals } ∧
        t.opp.kwUj = o.kwUj + t.opp.kwPower ∧ (t.opp.kwActive = true ↔ 0 < t.opp.kwPower) ∧
        (quiet → t.opp.kwPower = 0) ∧ (phases → o.kwLimit = true → t.opp.kwPower = 0) ∧
        (¬phases → s.jobRuns = true ∨ o.kwEvent = false → t.opp.kwPower = 0) ∧
        (phases → ¬quiet → s.pwr.save = .none → o.kwLimit = false →
          t.opp.kwPower = ((o.kwPower : Int) + max (-4) (min 4 (low - w.toNat))).toNat) ∧
        (o.kwPower < t.opp.kwPower → t.opp.kwPower ≤ o.kwPower + 4 ∧ (w.toNat : Int) + (t.opp.kwPower - o.kwPower) ≤ low) ∧
        (phases → t.opp.kwStep = o.kwStep + t.opp.kwPower ∧
          (t.opp.kwLimit = true ↔ o.kwLimit = true ∨ bitN o.kwCfg 0 = true ∧ fld o.kwCfg 15 8 * o.stepEnergy ≤ 1000 * t.opp.kwStep)))

/-- R722 to R729, R732: a junction sample sets the throttle row at 90 °C, one step lower for each further 100 ms, and P7 at once at 100
°C; a trip turns every VIN domain off with no record of its own; coolant readings that are stale or withdrawn take the design defaults and
COOL_W bounds the estimate; the heat balance withdraws them after three bad windows or a sensor finding and restores them after three good
ones; a ramp of 16 °C in 10 s holds; the forecast has 60 values within CAP_W. Beside the rules it rests on the model's readings in
notes/assumptions/ 53, 54. -/
def Obligations.TemperatureAndCoolantGovern : Prop :=
  ∀ (s : State),
    let o := s.opp
    let h := s.therm
    let kept (t : State) : Prop := t.mem = s.mem ∧ t.clusters = s.clusters ∧ t.job = s.job ∧ t.step = s.step ∧ t.ss = s.ss ∧ t.flash = s.flash
    (∀ tj : BitVec 12,
      let n := tj.toNat
      let hot : Prop := 1000 ≤ n ∧ h.hot100 = false
      (s.clocked = false → exec (.tjSample tj) s = .next s) ∧
      (s.clocked = true → ∃ t, exec (.tjSample tj) s = .next t ∧ kept t ∧ t.fab = s.fab ∧ t.therm.tj = n ∧ t.therm.tjMax = max h.tjMax n ∧
        t.therm.tjOver = (h.tjOver || decide (950 < n)) ∧ t.therm.tripSeen = h.tripSeen ∧ t.therm.hb = h.hb ∧
        (950 < n → h.tj ≤ 950 → t.log ≠ s.log) ∧
        (hot → t.therm.hot100 = true ∧ t.opp.effective = 7 ∧ t.opp.thermDem = true ∧ t.opp.thermStep = 7 ∧
          ∀ k, (s.dom k).mode = .on → (t.dom k).mode = .on ∧ (t.dom k).freq = 7 ∧ (t.dom k).volt = 7) ∧
        (¬hot → t.opp.effective = o.effective ∧ (t.therm.hot100 = true ↔ h.hot100 = true ∧ 900 < n)) ∧
        (900 ≤ n → h.throttle = false → t.therm.throttle = true ∧ t.therm.overAt = s.now ∧ t.opp.thermDem = true ∧
          t.opp.thermBase = min 7 (t.opp.effective + 1) ∧ t.opp.thermBase ≤ t.opp.thermStep ∧ s.log.eventSeq < t.log.eventSeq ∧
          t.therm.throttles = if hot then satAdd 0xFFFF (satAdd 0xFFFF h.throttles 1) 1 else satAdd 0xFFFF h.throttles 1) ∧
        (900 ≤ n → h.throttle = true → t.therm.throttle = true ∧
          (h.overAt + 100000000 ≤ s.now → t.therm.overAt = s.now ∧ t.opp.thermBase = min 7 (o.thermBase + 1)) ∧
          (s.now < h.overAt + 100000000 → t.therm.overAt = h.overAt ∧ t.opp.thermBase = o.thermBase)) ∧
        (n < 900 → ¬(h.throttle = true ∧ n ≤ 870) → t.therm.throttle = h.throttle ∧ t.opp.thermDem = o.thermDem) ∧
        (n ≤ 870 → h.throttle = true → t.therm.throttle = false ∧ t.opp.thermDem = false ∧ t.opp.hyst = true ∧ t.opp.hystAt = s.tick ∧
          s.log.eventSeq < t.log.eventSeq))) ∧
    (let dead : Prop := h.tripped = true ∨ s.pwr.vinOff = true ∨ s.boot.pinReset = true
     (dead → exec .thermtrip s = .next s) ∧
     (¬dead → ∃ t, exec .thermtrip s = .next t ∧ kept t ∧ t.therm = { h with tripped := true, tripSeen := true } ∧ t.clocked = false ∧
       t.pwr.vinOff = true ∧ (∀ k, (t.dom k).mode = .off) ∧ t.opp.kwActive = false ∧ t.fab.posts = [] ∧ t.fab.ops = [] ∧ t.fab.tx = [] ∧
       t.fab.send = [] ∧ (s.pwr.save = .none → t.pwr.save = .none ∧ t.pwr.gasp = s.pwr.gasp) ∧
       (s.pwr.save = .clocks ∨ s.pwr.save = .flush ∨ s.pwr.save = .handover → t.pwr.save = .handover ∧ bitN t.pwr.gasp.flags 3 = true))) ∧
    (let c := s.smb.coolant
     let latest (old : Option (Int × Nat)) (bit : Nat) (v : Int) : Option (Int × Nat) :=
       if c.have_ = true ∧ bitN c.valid bit = true then some (v, c.at_) else old
     let old (f : Option (Int × Nat)) : Prop := ∀ x, f = some x → x.2 + 500000000 < s.now
     let withdrawn : Prop := h.hb = .coolantFault ∨ h.hb = .sensorFault
     let value (f : Option (Int × Nat)) (dflt v : Int) : Prop := (old f ∨ withdrawn → v = dflt) ∧ (¬old f → ¬withdrawn → f.map (·.1) = some v)
     (s.nganorUp = false → exec .coolantEval s = .next s) ∧
     (s.nganorUp = true → ∃ t inlet flow, exec .coolantEval s = .next t ∧ kept t ∧ t.fab = s.fab ∧
       t.therm.inlet = latest h.inlet 0 c.inlet ∧ t.therm.outlet = latest h.outlet 1 c.outlet ∧ t.therm.flow = latest h.flow 2 c.flow ∧
       (t.therm.stale = true ↔ old t.therm.inlet ∨ old t.therm.outlet ∨ old t.therm.flow) ∧
       (t.therm.usingDefaults = true ↔ t.therm.stale = true ∨ withdrawn) ∧
       t.therm.staleEvents = (if t.therm.stale = true ∧ h.stale = false then satAdd 0xFFFF h.staleEvents 1 else h.staleEvents) ∧
       (t.therm.stale = true → t.therm.heat = []) ∧ value t.therm.inlet 4000 inlet ∧ value t.therm.flow 1500 flow ∧
       t.therm.coolW = (if bitN h.cfg 32 then min 0xFFFF ((8800 - inlet) * 10000 / (if flow ≤ 1500 then 24000
         else if flow ≤ 2000 then 24000 - 8 * (flow - 1500) else if flow ≤ 3000 then 20000 - 3 * (flow - 2000) else 17000)).toNat else h.coolW) ∧
       (let est (p : Nat) : Nat := if s.job.state = .running ∧ s.step.phase < 5 then s.estimate (s.pwrEnt s.step.kind s.step.phase) p else 0
        let need : Prop := bitN h.cfg 32 = true ∧ t.therm.coolW < est o.requested
        (t.opp.coolDem = true ↔ need) ∧
        (need → t.opp.coolStep ≤ 7 ∧ (t.opp.coolStep < 7 → est t.opp.coolStep ≤ t.therm.coolW) ∧
          ∀ p < t.opp.coolStep, t.therm.coolW < est p) ∧
        (¬need → o.coolDem = true → t.opp.hyst = true ∧ t.opp.hystAt = s.tick) ∧
        (¬need → o.coolDem = false → t.opp = o)))) ∧
    (let watts := if h.secN = 0 then h.watts else (h.secSum * 1000 / h.secN :: h.watts).take 12
     let q : Int := h.heat.sum / 100
     let p : Int := ((watts.drop 2).take 10).sum
     let bad : Prop := (fld h.cfg 23 16 : Int) * p + fld h.cfg 31 24 * 10000000 < (q - p * 100).natAbs
     let short : Prop := h.stale = true ∨ h.heat.length < 100 ∨ watts.length < 12
     let v (f : Option (Int × Nat)) : Int := (f.map (·.1)).getD 0
     let finding : Prop := v h.outlet < v h.inlet - 50 ∨ v h.flow < 0 ∨ 10000 < v h.flow ∨ v h.inlet < 0 ∨ 8000 < v h.inlet ∨
       (∃ a r, h.seqs = a :: a :: a :: r) ∧ s.smb.coolant.valid ≠ 0
     (s.nganorUp = false → exec .heatBalanceCheck s = .next s) ∧
     (s.nganorUp = true → short → exec .heatBalanceCheck s = .next { s with therm := { h with watts := watts, secSum := 0, secN := 0 } }) ∧
     (s.nganorUp = true → ¬short → ∃ t, exec .heatBalanceCheck s = .next t ∧ t = { s with therm := t.therm, log := t.log } ∧
       t.therm.qCool = min 0xFFFF (q / 1000000).toNat ∧ t.therm.watts = watts ∧
       (finding → t.therm.hb = .sensorFault) ∧ (¬finding → bad → 2 ≤ h.hbBad → t.therm.hb = .coolantFault) ∧
       (¬finding → ¬bad → 2 ≤ h.hbGood → t.therm.hb = .ok) ∧
       (¬finding → (bad → h.hbBad < 2) → (¬bad → h.hbGood < 2) → t.therm.hb = h.hb ∧ t.log = s.log) ∧
       (t.therm.hb ≠ h.hb → t.therm.hb = .coolantFault ∨ t.therm.hb = .sensorFault → t.therm.hbSeen = true ∧
         t.therm.hbFaults = satAdd 0xFFFF h.hbFaults 1 ∧ t.therm.usingDefaults = true ∧ s.log.eventSeq < t.log.eventSeq))) ∧
    (let m := h.tjSum * 1000 / h.tjN
     let means := (m :: h.tjMeans).take 101
     let before := means.getLast?.getD m
     (s.clocked = false ∨ h.tjN = 0 → exec .rampHoldCheck s = .next s) ∧
     (s.clocked = true → h.tjN ≠ 0 → ∃ t, exec .rampHoldCheck s = .next t ∧ t = { s with therm := t.therm } ∧ t.therm.tjMeans = means ∧
       t.therm.tjSum = 0 ∧ t.therm.tjN = 0 ∧ (t.therm.holdUp = true ↔ before + 160000 ≤ m) ∧ (t.therm.holdDown = true ↔ m + 160000 ≤ before) ∧
       t.therm.rampHold = (t.therm.holdUp || t.therm.holdDown) ∧
       t.therm.rampHolds = if t.therm.rampHold = true ∧ h.rampHold = false then satAdd 0xFFFF h.rampHolds 1 else h.rampHolds)) ∧
    (s.nganorUp = false → exec .forecastForm s = .next s) ∧
    (s.nganorUp = true → ∃ t, exec .forecastForm s = .next t ∧ t = { s with therm := { h with flowHint := t.therm.flowHint, forecast := t.therm.forecast } } ∧
      t.therm.forecast.tick = s.tick ∧ t.therm.forecast.step = s.step.number ∧ t.therm.forecast.tj = h.tj ∧ t.therm.forecast.w.length = 60 ∧
      (∀ w ∈ t.therm.forecast.w, w ≤ fld o.cfg 10 0) ∧ t.therm.forecast.flow = t.therm.flowHint ∧ 1500 ≤ t.therm.flowHint ∧ t.therm.flowHint ≤ 3000 ∧
      (s.jobRuns = false → ∀ w ∈ t.therm.forecast.w, w = min (fld o.cfg 10 0) o.tgtW))

/-- R694 to R704, R710, R714: a lost selected source puts the PLL in HOLDOVER and a switch to the best source starts as soon as there is
one; a window of 1 ms moves each source on alone, ten good ones qualify it, and FAILED outlasts them; a better source asks for a switch at
a synchronised count; a test fails or passes each source that is not LOST. A generator's loss of lock gates and fences a slot, takes an
engine's lanes down, or is a device fault. Beside the rules it rests on the model's readings in notes/assumptions/ 19, 55. -/
def Obligations.TheReferenceFollowsItsSources : Prop :=
  ∀ (s : State),
    let k := s.clk
    let only (t : State) : Prop := t = { s with clk := t.clk, log := t.log, hud := { s.hud with changes := t.hud.changes } }
    let follows : Prop := k.pll = .locked ∨ k.pll = .switching
    let left (c : ClockSt) : Prop := (∀ i, c.best = some i → c.pll = .switching ∧ c.selected = i) ∧
      (c.best = none → c.pll = .holdover ∧ c.selected = k.selected)
    let lost (x : SrcSt) (st : SrcState) : SrcState := if x.state = .failed then .failed else st
    (¬follows → exec .refLoss s = .next s) ∧
    (follows → k.selected < 3 → ∃ t, exec .refLoss s = .next t ∧ only t ∧ left t.clk ∧ t.clk.holdoverSeen = true ∧ t.clk.holdAt = s.now ∧
      t.clk.losses = satAdd 0xFFFF k.losses 1 ∧ s.log.eventSeq < t.log.eventSeq ∧
      t.clk.src k.selected = { k.src k.selected with good := 0, state := lost (k.src k.selected) .lost } ∧
      ∀ i < 3, i ≠ k.selected → t.clk.src i = k.src i) ∧
    (∀ a b f : WindowResult,
      let r (i : Nat) : WindowResult := if i = 0 then a else if i = 1 then b else f
      let good (i : Nat) : Prop := (r i).ppb.natAbs ≤ (if k.pll = .free then 1000000 else 250000) ∧ (i = 2 → s.laneUp 128 = true)
      ∃ t, exec (.refMonitorWindow a b f) s = .next t ∧ only t ∧
        (∀ i < 3,
          let x := { k.src i with freq := max (-(2 ^ 31)) (min (2 ^ 31 - 1) (r i).ppb) }
          (good i → (r i).lost = false → t.clk.src i = { x with
            good := min 10 (x.good + 1), state := lost x (if 10 ≤ x.good + 1 then .qualified else .qualifying) }) ∧
          (¬good i ∨ (r i).lost = true → t.clk.src i = { x with
            good := 0, state := (t.clk.src i).state }) ∧
          (good i → (r i).lost = true → (r i).live = true → (t.clk.src i).state = lost x .qualifying) ∧
          (¬good i ∨ (r i).lost = true ∧ (r i).live = false → (t.clk.src i).state = lost x .lost) ∧
          (¬good i ∨ (r i).lost = true → follows → k.selected = i → t.clk.holdoverSeen = true ∧ s.log.eventSeq < t.log.eventSeq)) ∧
        ((∀ i < 3, good i ∧ (r i).lost = false) → t.log = s.log ∧ t.clk.losses = k.losses ∧
          (k.pll = .holdover → left t.clk) ∧ (k.pll ≠ .holdover → t.clk.pll = k.pll ∧ t.clk.selected = k.selected) ∧
          (k.pll = .locked → k.revertPending = false → bitN k.cfgUsed 8 = true → t.clk.better = true →
            t.clk.revertPending = true ∧ (nextSync s.tick, SyncChange.refSwitch) ∈ t.hud.changes))) ∧
    (k.pll ≠ .switching → exec .pllSwitchComplete s = .next s) ∧
    (k.pll = .switching → ∃ t, exec .pllSwitchComplete s = .next t ∧ only t ∧ t.log.eventSeq = s.log.eventSeq + 1 ∧
      t.clk = { k with pll := .locked, switches := satAdd 0xFFFF k.switches 1, revertPending := t.clk.revertPending } ∧
      (bitN k.cfgUsed 8 = true → k.better = true → t.clk.revertPending = true) ∧
      (bitN k.cfgUsed 8 = false ∨ k.better = false → t.clk.revertPending = k.revertPending)) ∧
    (∀ a b f : TestResult,
      let r (i : Nat) : TestResult := if i = 0 then a else if i = 1 then b else f
      let runs : Prop := k.pll = .free ∨ k.testing = true
      (¬runs → exec (.jitterTestComplete a b f) s = .next s) ∧
      (runs → ∃ t, exec (.jitterTestComplete a b f) s = .next t ∧ only t ∧ ∀ i < 3,
        let x := k.src i
        let absent : Prop := x.state = .lost ∨ x.state = .failed ∧ x.good = 0
        let ok : Prop := (r i).jitter.toNat ≤ 25 ∧ 450 ≤ (r i).duty.toNat ∧ (r i).duty.toNat ≤ 550
        (absent → t.clk.src i = x) ∧
        (¬absent → t.clk.src i = { x with
          jitter := (r i).jitter.toNat, duty := (r i).duty.toNat, tested := true, pass := decide ok
          state := if ok then (if x.good = 10 then .qualified else .qualifying) else .failed }) ∧
        (¬absent → ¬ok → k.selected = i → t.clk.testFail = true ∧ s.log.eventSeq < t.log.eventSeq ∧
          (k.pll ≠ .holdover → t.clk.recheck = true ∧ t.clk.selected = i)))) ∧
    (∀ g : Generator, ∃ t, exec (.genUnlock g) s = .next t ∧ t.clk.genUnlock = satAdd 0xFFFF k.genUnlock 1 ∧ t.job = s.job ∧
      s.log.eventSeq < t.log.eventSeq ∧
      (∀ n : Fin 288, g = .slot n → (t.dom n.val).gated = true ∧
        (let u := unitId 1 n.val
         let c := (s.unit u).logical
         ((s.unit u).state = .active → ((t.unit u).state = .fenced ∨ (t.unit u).state = .retired) ∧ (t.unit u).fence = true ∧
           (c < 256 → (t.cl c).fenced = true)) ∧
         (s.jobRuns = true → c < 256 → t.step.failing = true))) ∧
      (∀ n : Fin 16, g = .engine n → (∀ l, 8 * n.val ≤ l ∧ l < 8 * n.val + 8 ∨ l = 128 + n.val → (t.lane l).state ≠ .up) ∧
        (n = 0 → t.clk.f.state = .lost ∨ t.clk.f.state = .failed)) ∧
      ((∀ n, g ≠ .slot n) → (∀ n, g ≠ .engine n) → t = { s with clk := t.clk, log := t.log, step := t.step } ∧
        t.step = { s.step with faultPending := s.step.faultPending || s.jobRuns }))

/-- What a ring does (R741, R743, R749, R765): nothing while BUSY, unserved, or where the SEQUENCE is that of the response held; else
the command starts with the request as it stands, or completes at once with what its header, its right, its opcode or its body break. -/
def Sys2Proof.Claims.Rung (s t : State) (m : Nat) (ev : Option (Nat × Nat)) : Prop :=
  let x := s.box m
  let h := x.reqBytes m 0 16
  let seq := leAt h 0xA 2
  let op := leAt h 0 2
  let starts : Prop := x.state ≠ .busy ∧ ¬(x.state = .done ∧ seq = x.held) ∧ s.serves m = true
  let body := x.reqBytes m 16 (min 4080 (leAt h 4 4))
  let header : Prop := leAt h 8 2 = 0 ∧ leAt h 0xC 4 = 0 ∧ leAt h 4 4 ≤ 4080 ∧ 1 ≤ op / 256 ∧ op / 256 ≤ 9
  let recovery : Prop := s.boot.stage = 6 ∧ op ∉ ([0x0101, 0x0102, 0x0701, 0x0702, 0x0703, 0x0704] : List Nat)
  let ended (status : Nat) : Prop := (t.box m).state = .done ∧ (t.box m).lastStatus = status ∧ (t.box m).held = seq ∧ (t.box m).cmd = none
  (¬starts → t = s) ∧
  (starts → (t.box m).seqLo = seq % 256 ∧ (t.box m).abort = 0 ∧ (∀ k, k ≠ m → t.box k = s.box k) ∧ t.mem = s.mem ∧ t.job = s.job ∧
    (¬header → ended 1) ∧
    (header → recovery ∨ mbRight m (op / 256) = 0 → ended 4) ∧
    (header → ¬recovery → mbRight m (op / 256) ≠ 0 → (cmdSpec op = none → ended 2) ∧
      ∀ c, cmdSpec op = some c →
        (mbRight m (op / 256) = 1 → c.read = false → ended 4) ∧
        (¬(mbRight m (op / 256) = 1 ∧ c.read = false) →
          (bodyLenOk c body = false → ended 3) ∧
          (bodyLenOk c body = true → (∃ r ∈ c.res, ∃ i < r.2, body.getD (r.1 + i) 0#8 ≠ 0#8) → ended 3) ∧
          (bodyLenOk c body = true → (∀ r ∈ c.res, ∀ i < r.2, body.getD (r.1 + i) 0#8 = 0#8) →
            t = { s with freeCtr := s.freeCtr + 1, mb := t.mb } ∧ t.mb.sent = s.mb.sent ∧ t.mb.last = s.mb.last ∧
            t.box m = { x with state := .busy, abort := 0, seqLo := seq % 256, rsp := [], rspBase := (t.box m).rspBase, cmd := some {
              op := op, tag := leAt h 2 2, seq := seq, body := body, at_ := s.now, ev := ev } }))))

/-- What an abort does (R749). -/
def Sys2Proof.Claims.Aborted (s t : State) (m tag seq : Nat) : Prop :=
  let x := s.box m
  let only (r : Nat) : Prop := t.box m = { x with abort := r } ∧ t = { s with mb := { s.mb with boxes := t.mb.boxes } }
  (∀ k, k ≠ m → t.box k = s.box k) ∧
  (x.state = .idle → only 3) ∧
  (x.state = .done → only (if x.tag = tag ∧ x.held = seq then 2 else 3)) ∧
  (∀ c, x.state = .busy → x.cmd = some c →
    (c.tag ≠ tag ∨ c.seq ≠ seq → only 3) ∧ (c.tag = tag → c.seq = seq → c.decided = true → only 2) ∧
    (c.tag = tag → c.seq = seq → c.decided = false → (t.box m).abort = 1 ∧ (t.box m).state = .done ∧ (t.box m).lastStatus = 6 ∧
      (t.box m).held = seq ∧ (t.box m).cmd = none ∧ t.mem = s.mem ∧ t.job = s.job))

/-- R743, R746, R747, R749, R756: of a doorbell that sets one of RING, ABORT and RELEASE by the owner, each has its effect, and any other
write has none; a read of MB_CLAIM returns the owner as it stood and makes the reader the owner where there was none. Beside the rules it
rests on the model's readings in notes/assumptions/ 63, 64. -/
def Obligations.DoorbellsRingAbortAndRelease : Prop :=
  ∀ (s : State) (c : BitVec 8) (v : W64) (m : Fin 16),
    let n := m.val
    let x := s.box n
    let shut : Prop := s.absent c.toNat = true ∨ (s.cl c.toNat).fenced = true
    let mine : Prop := ¬shut ∧ 12 ≤ n ∧ s.serves n = true ∧ x.owner = some (.cluster c.toNat)
    let bits := v.toNat % 8
    (¬(mine ∧ bits = 1) → exec (.ring c v m) s = .next s) ∧
    (mine → bits = 1 → ∃ t, exec (.ring c v m) s = .next t ∧
      Rung s t n (if bitN v.toNat 14 then some (fld v.toNat 23 16, fld v.toNat 13 8) else none)) ∧
    (¬(mine ∧ bits = 2) → exec (.abort c v m) s = .next s) ∧
    (mine → bits = 2 → ∃ t, exec (.abort c v m) s = .next t ∧ Aborted s t n (fld v.toNat 47 32) (fld v.toNat 63 48)) ∧
    (¬(mine ∧ bits = 4) ∨ x.state = .busy → exec (.release c v m) s = .next s) ∧
    (mine → bits = 4 → x.state ≠ .busy → ∃ t, exec (.release c v m) s = .next t ∧
      t = { s with mb := { s.mb with boxes := t.mb.boxes } } ∧ t.box n = { x with state := .idle, owner := none, ending := false } ∧
      ∀ k, k ≠ n → t.box k = s.box k) ∧
    (shut ∨ n < 12 ∨ s.nganorUp = false → exec (.mbClaim c m) s = .next s) ∧
    (¬shut → 12 ≤ n → s.nganorUp = true →
      (∀ d, x.owner = some (.cluster d) → d < 256 → exec (.mbClaim c m) s = .next { s with readout := d }) ∧
      (x.owner = none → ∃ t, exec (.mbClaim c m) s = .next t ∧ t = { s with mb := { s.mb with boxes := t.mb.boxes }, readout := 0x100 } ∧
        t.box n = { x with owner := some (.cluster c.toNat) } ∧ ∀ k, k ≠ n → t.box k = s.box k))

/-- R743 to R746, R752, R755: a decided command's response is written and its completion delivered, a bound ends a command before its
serialisation point alone, an idle owner is unbound, and events past a cursor are pushed with those lost before them. Beside the rules it
rests on the model's readings in notes/assumptions/ 64, 65. -/
def Obligations.CompletionsBoundsAndEventsAreDelivered : Prop :=
  ∀ (s : State) (m : Fin 16),
    let n := m.val
    let x := s.box n
    let up : Prop := s.serves n = true
    let header (c : Cmd) (status detail : Nat) (more : Bool) (len : Nat) : List Byte :=
      leBytes 2 c.op ++ leBytes 2 c.tag ++ leBytes 4 len ++ leBytes 2 (b2n more) ++ leBytes 2 c.seq ++ leBytes 2 status ++ leBytes 2 detail
    let ended (t : State) (c : Cmd) (status : Nat) : Prop := (t.box n).state = .done ∧ (t.box n).held = c.seq ∧ (t.box n).tag = c.tag ∧
      (t.box n).lastStatus = status ∧ (t.box n).cmd = none ∧ (∀ k, k ≠ n → t.box k = s.box k) ∧ t.mem = s.mem ∧ t.job = s.job ∧ t.step = s.step
    let told (t : State) : Prop := 1 ≤ n → n < 12 → x.owner ≠ none →
      ∃ f, t.mb.sent = s.mb.sent ++ [f] ∧ f.kind = 0x82 ∧ f.mbox = n ∧ f.to_ = x.owner
    (x.cmd = none → exec (.commandComplete m) s = .next s ∧ exec (.commandBoundExpire m) s = .next s) ∧
    (∀ c, x.cmd = some c →
      (c.answer = none ∨ ¬up → exec (.commandComplete m) s = .next s) ∧
      (∀ a, c.answer = some a → up → c.op ∉ ([0x0303, 0x0503] : List Nat) → c.op ≠ 0x0704 ∨ a.1 ≠ 0 → ∃ t, exec (.commandComplete m) s = .next t ∧
        (let body := if a.1 = 0 then a.2.2.2 else []
         ended t c a.1 ∧ told t ∧ (t.box n).rspBytes n 0 (16 + body.length) = header c a.1 a.2.1 a.2.2.1 body.length ++ body) ∧
        (x.ending = true → (t.box n).owner = none) ∧ (x.ending = false → (t.box n).owner = x.owner) ∧
        (c.op ≠ 0x0702 → t.flash = s.flash) ∧
        (12 ≤ n → ∀ k e, c.ev = some (k, e) → e < 63 → s.absent k = false → (s.cl k).fenced = false →
          CounterWritten (s.cl k) (t.cl k) e ((s.cl k).ev e + 1)) ∧
        (n < 12 ∨ c.ev = none → t.clusters = s.clusters)) ∧
      (∀ a, c.answer = some a → up → c.op = 0x0704 → a.1 = 0 → ∃ t, exec (.commandComplete m) s = .next t ∧ t.boot.cause = 2 ∧
        t.boot.pinReset = true ∧ t.boot.nganor = false ∧ t.job.state = .none ∧ t.mem = [] ∧ t.flash = s.flash) ∧
      (∀ d, cmdSpec c.op = some d →
        let due : Prop := c.at_ + s.boundNs d ≤ s.now
        (¬due ∨ c.decided = true ∨ ¬up → exec (.commandBoundExpire m) s = .next s) ∧
        (due → c.decided = false → up → ∃ t, exec (.commandBoundExpire m) s = .next t ∧ ended t c 7 ∧ told t ∧ t.flash = s.flash))) ∧
    (let idle : Prop := up ∧ 1 ≤ n ∧ n ≤ 11 ∧ x.state ≠ .busy ∧ x.heard + 60000000000 ≤ s.now
     (¬idle ∨ x.owner = none → exec (.ownerIdleTimeout m) s = .next s) ∧
     (idle → x.owner ≠ none → ∃ t, exec (.ownerIdleTimeout m) s = .next t ∧
       t = { s with mb := { s.mb with boxes := t.mb.boxes }, log := t.log } ∧ t.box n = { x with owner := none, ending := false } ∧
       (∀ k, k ≠ n → t.box k = s.box k) ∧ t.log.eventSeq = s.log.eventSeq + 1)) ∧
    (let pushes : Prop := up ∧ 1 ≤ n ∧ n ≤ 11 ∧ x.owner ≠ none ∧ s.boot.stage ≠ 6
     let lost := s.log.eventSeq + 1 - s.log.events.length - (x.cursor + 1)
     let news := s.eventsPast n x.cursor
     let again := (s.eventsPast n x.acked).filter (fun e => decide (e.seq ≤ x.cursor))
     let due : Prop := news ≠ [] ∨ 0 < lost
     let repeated : Prop := ¬due ∧ again ≠ [] ∧ x.pushAt + 1000000000 ≤ s.now
     let sent (t : State) (es : List EventRec) : Prop := t = { s with mb := { s.mb with boxes := t.mb.boxes, sent := t.mb.sent } } ∧
       (∀ k, k ≠ n → t.box k = s.box k) ∧ ∃ fs, t.mb.sent = s.mb.sent ++ fs ∧ fs.flatMap (·.data) = es.flatMap EventRec.bytes ∧
         ∀ f ∈ fs, f.kind = 0x83 ∧ f.mbox = n ∧ f.to_ = x.owner ∧ f.data.length ≤ 1024
     (¬pushes ∨ ¬due ∧ ¬repeated → exec (.eventPush m) s = .next s) ∧
     (pushes → due → ∃ t l, exec (.eventPush m) s = .next t ∧ sent t (l ++ news) ∧
       t.box n = { x with cursor := s.log.eventSeq, pushAt := s.now } ∧ (lost = 0 → l = []) ∧
       (0 < lost → ∃ e, l = [e] ∧ e.cls = 8 ∧ e.code = 1 ∧ e.data = lost)) ∧
     (pushes → repeated → ∃ t, exec (.eventPush m) s = .next t ∧ sent t again ∧ t.box n = { x with pushAt := s.now }))

/-- R746, R751, R755: a frame that does not come by its mailbox's transport is discarded; one that breaks the table, comes from another
than the owner, or is a PUT to a BUSY mailbox is REFUSED; a PUT binds a mailbox without owner and writes its bytes; each other frame acts
and is answered. Beside the rules it rests on the model's readings in notes/assumptions/ 63, 64. -/
def Obligations.OwnersFramesAreAnswered : Prop :=
  ∀ (s : State) (f : MbIn),
    let m := f.mbox
    let x := s.box m
    let kinds : List (Nat × Instr) := [(1, .put f), (2, .ringFrame f), (3, .abortFrame f), (4, .get f), (5, .stat f), (6, .releaseFrame f), (7, .evack f)]
    let replied (u : State) (g : MbFrame) : State := { u with mb := { u.mb with sent := u.mb.sent ++ [g] } }
    let status (u : State) : State := replied u { mbox := m, kind := 0x82, to_ := some f.src, data := u.regBytes (.mbStatus m) }
    (∀ p ∈ kinds, s.takeFrame f p.1 = none → exec p.2 s = .next s) ∧
    (∀ p ∈ kinds, ∀ u, s.takeFrame f p.1 = some u →
      let refused (why : Nat) : State := replied u { mbox := m, kind := 0x84, arg := why, to_ := some f.src }
      (f.version = 1 ∧ s.serves m = true ∧ ((∃ ip q, f.src = .udp ip q) ∧ u = s ∧ 1 ≤ m ∧ m ≤ 3 ∧ f.port = some m ∨
        (∃ d, f.src = .station d ∧ (d, f.bytes p.1) ∈ s.fab.ctrl ∧ u = { s with fab := { s.fab with ctrl := s.fab.ctrl.erase (d, f.bytes p.1) } }) ∧
          4 ≤ m ∧ m ≤ 11)) ∧
      (f.malformed p.1 = true → exec p.2 s = .next (refused 3)) ∧
      (f.malformed p.1 = false → x.owner ≠ some f.src → p.1 ≠ 1 ∨ x.owner ≠ none → exec p.2 s = .next (refused 1)) ∧
      (f.malformed p.1 = false → x.owner = some f.src ∨ p.1 = 1 ∧ x.owner = none →
        let y : Mailbox := if x.owner = none then { x with owner := some f.src, cursor := s.log.eventSeq, acked := s.log.eventSeq, heard := s.now }
          else { x with heard := s.now }
        let b : State := { u with mb := { u.mb with boxes := tabSet u.mb.boxes m y } }
        (p.1 = 1 → x.state = .busy → exec p.2 s =
          .next (replied b { mbox := m, kind := 0x84, arg := 2, to_ := some f.src })) ∧
        (p.1 = 1 → x.state ≠ .busy → ∃ t w, exec p.2 s = .next t ∧ t = status w ∧ w = { b with mb := { b.mb with boxes := w.mb.boxes } } ∧
          (∀ k, k ≠ m → w.box k = s.box k) ∧ w.box m = { y with req := (w.box m).req } ∧
          ∀ o, (w.box m).reqByte m o = if f.offset ≤ o ∧ o < f.offset + f.len then f.data.getD (o - f.offset) 0#8 else x.reqByte m o) ∧
        (p.1 = 2 → ∃ t w, exec p.2 s = .next t ∧ t = status w ∧ Rung b w m none) ∧
        (p.1 = 3 → ∃ t w, exec p.2 s = .next t ∧ t = status w ∧ Aborted b w m f.tag f.seq) ∧
        (p.1 = 4 → ∃ t, exec p.2 s = .next t ∧
          t = replied b { mbox := m, kind := 0x81, offset := f.offset, to_ := some f.src, data := x.rspBytes m f.offset f.len }) ∧
        (p.1 = 5 → exec p.2 s = .next (status b)) ∧
        (p.1 = 6 → ∃ t w, exec p.2 s = .next t ∧ t = status w ∧ (x.state = .busy → w = b) ∧
          (x.state ≠ .busy → w.box m = { y with state := .idle, owner := none, ending := false } ∧ (∀ k, k ≠ m → w.box k = s.box k) ∧
            w.log.eventSeq = s.log.eventSeq + 1)) ∧
        (p.1 = 7 → ∃ t w, exec p.2 s = .next t ∧ t = status w ∧ w.box m = { y with acked := max x.acked (w.box m).acked } ∧
          (∀ k, k ≠ m → w.box k = s.box k) ∧ w.mem = s.mem ∧
          (f.arg < 2 ^ 32 → s.log.eventSeq < 2 ^ 32 → f.arg ≤ s.log.eventSeq → f.arg ≤ (w.box m).acked))))

/-- A command waits for its serialisation point with its request body (R748): undecided, its mailbox served, permitted at this stage of the
boot, and, of Change commands, its turn in the rotation. -/
def Sys2Proof.Claims.Asked (s : State) (m op : Nat) (b : List Byte) : Prop :=
  ∃ c d, (s.box m).cmd = some c ∧ c.op = op ∧ c.body = b ∧ c.decided = false ∧ s.serves m = true ∧ cmdSpec op = some d ∧ s.mayRun d = true ∧
    (d.read = true ∨ op ∈ slowOps ∨ s.nextToPass = some m)

/-- The command in a mailbox is decided with an answer (R748). -/
def Sys2Proof.Claims.Decided (s t : State) (m : Nat) (a : Answer) : Prop :=
  ∃ c d, (s.box m).cmd = some c ∧ (t.box m).cmd = some d ∧ d.decided = true ∧ d.answer = some a ∧ d.op = c.op ∧ d.tag = c.tag ∧
    d.seq = c.seq ∧ d.body = c.body

/-- A Read command: nothing changes but its own mailbox's record of it (R763). -/
def Sys2Proof.Claims.Sampled (s t : State) (m : Nat) (a : Answer) : Prop :=
  t = { s with mb := { s.mb with boxes := t.mb.boxes } } ∧ (∀ k, k ≠ m → t.box k = s.box k) ∧ Decided s t m a ∧
    t.box m = { s.box m with cmd := (t.box m).cmd }

/-- A refused Change command: decided, with nothing changed but the mailbox and the place in the rotation (R742, R748). -/
def Sys2Proof.Claims.Refused (s t : State) (m : Nat) (a : Answer) : Prop :=
  t = { s with mb := { s.mb with boxes := t.mb.boxes, last := m } } ∧ (∀ k, k ≠ m → t.box k = s.box k) ∧ Decided s t m a

/-- The answer is a page of a list (R764). -/
def Sys2Proof.Claims.Paged {α : Type} (a : Answer) (n start : Nat) (all : List α) (key : α → Nat) (lay : α → List Byte) : Prop :=
  ∃ next more, a = (0, 0, more, leBytes 8 next ++ leBytes 4 (min n all.length) ++ leBytes 4 0 ++ (all.take n).flatMap lay) ∧
    (more = true ↔ n < all.length) ∧ (all = [] → next = start) ∧ ∀ x, (all.take n).getLast? = some x → next = key x + 1

/-- R763, R764, R767 to R769, R777, R779, R782, R786, R789, R791, R793: each Read command, at its turn, changes nothing and answers with
the registers and records of its table, in order; before its turn it does nothing. Beside the rules it rests on the model's readings in
notes/assumptions/ 58, 75. -/
def Obligations.ReadCommandsSampleTheDevice : Prop :=
  ∀ (s : State) (m : Fin 16),
    let n := m.val
    let rows : List (Nat × Instr) := [(0x0101, .identify m), (0x0102, .deviceStatus m), (0x020A, .jobStatus m), (0x020B, .regulatorRead m),
      (0x0301, .stepRead m), (0x0302, .watchRead m), (0x0305, .clusterRead m), (0x0401, .powerRead m), (0x0402, .powerTable m),
      (0x0405, .slotRead m), (0x0406, .stackRead m), (0x0506, .streamRead m), (0x0601, .unitRead m), (0x0604, .errorRead m),
      (0x0605, .lastGaspRead m), (0x0701, .fwInfo m), (0x0801, .counters m), (0x0802, .forecast m), (0x0902, .fabricRead m), (0x0905, .qpRead m)]
    let has (body : List Byte) (fields : List (Nat × Nat × Nat)) : Prop := ∀ f ∈ fields, Sys2Proof.Machine.slice body f.1 f.2.1 = leBytes f.2.1 f.2.2
    let regs (body : List Byte) (off : Nat) (rs : List Reg) : Prop := ∀ i (r : Reg), rs[i]? = some r →
      Sys2Proof.Machine.slice body (off + 8 * i) 8 = leBytes 8 (s.regVal r)
    let answers (op : Nat) (i : Instr) (len : Nat) (p : List Byte → List Byte → Prop) : Prop := ∀ b, Asked s n op b →
      ∃ t body, exec i s = .next t ∧ Sampled s t n (0, 0, false, body) ∧ body.length = len ∧ p b body
    (∀ r ∈ rows, (¬∃ b, Asked s n r.1 b) → exec r.2 s = .next s) ∧
    answers 0x0101 (.identify m) 64 (fun _ d => has d [(0, 8, Config.deviceId.toNat), (0x10, 1, 0xB0),
      (0x11, 1, (s.present.filter (fun c => decide (c < 128))).length), (0x12, 1, (s.present.filter (fun c => decide (128 ≤ c))).length),
      (0x13, 1, b2n s.therm.tripSeen + 2 * b2n s.pwr.ovSeen + 4 * b2n s.boot.lastGasp + 8 * b2n s.dbg.unlocked),
      (0x14, 4, Config.partCode.toNat), (0x28, 8, s.memsys.hbmTop), (0x30, 2, s.memsys.channels.length), (0x32, 2, 0),
      (0x34, 4, s.boot.version), (0x38, 8, 0)] ∧ ∀ i < 8, has d [(0x18 + 2 * i, 2, (Config.vf i).toNat)]) ∧
    answers 0x0102 (.deviceStatus m) 48 (fun _ d => has d [(0, 1, s.boot.stage), (1, 1, s.job.state.code), (2, 1, s.opp.effective), (3, 1, s.ss.twin),
      (4, 2, s.therm.tj), (6, 2, s.pwr.pkgW), (32, 8, s.log.eventSeq), (40, 8, 0)] ∧ regs d 8 [.stepNumber, .committedStep, .tick]) ∧
    answers 0x020A (.jobStatus m) 32 (fun _ d => has d [(0, 1, s.job.state.code), (1, 1, s.step.verdict), (2, 2, s.job.tag), (4, 4, s.job.rank)] ∧
      regs d 8 [.stepNumber, .committedStep, .ackedStep]) ∧
    (∀ b, Asked s n 0x020B b → ∃ t a, exec (.regulatorRead m) s = .next t ∧ Sampled s t n a ∧
      (12 ≤ leAt b 0 1 → a = badField 0) ∧ (leAt b 0 1 < 12 → a.1 = 0 ∧ a.2.2.2.length = 264 ∧ regs a.2.2.2 0 [.classMap (leAt b 0 1)] ∧
        ∀ p < 16, regs a.2.2.2 (8 + 16 * p) [.partCfg (leAt b 0 1) p, .partStat (leAt b 0 1) p])) ∧
    answers 0x0301 (.stepRead m) 48 (fun _ d => regs d 0 [.stepStatus, .stepNumber, .committedStep, .ackedStep] ∧
      has d [(32, 8, s.step.expect), (40, 8, s.step.u)]) ∧
    answers 0x0302 (.watchRead m) 1024 (fun _ d => ∀ i < 64, regs d (16 * i) [.nwState i, .nwValue i]) ∧
    answers 0x0305 (.clusterRead m) 368 (fun b d => (let c := leAt b 0 1
      regs d 0 [.seqCtl c, .seqStatus c, .faultInfo c, .faultAddr c, .kprog c, .waitLimit c, .transBase c, .transCtl c, .arithFlags c,
        .podStatus c, .accState c, .pourState c, .rngCtl c, .tableCtl c] ∧
      ∀ i < 32, has d [(112 + 8 * i, 8, if (s.cl c).st = .halted then (s.cl c).sreg i else 0)])) ∧
    answers 0x0401 (.powerRead m) 144 (fun _ d => regs d 0 [.pwrStatus, .pwrCounts, .oppStatus, .oppCfg, .kwCfg, .oppLevels, .oppCounts, .kwEnergy,
      .relayCfg, .relaySite, .relayStatus, .thermStatus, .thermCfg, .coolStatus, .thermCounts, .refStatus, .refCfg, .clkCounts]) ∧
    answers 0x0402 (.powerTable m) 160 (fun _ d => ∀ i < 20, regs d (8 * i) [.pwrTable i]) ∧
    answers 0x0405 (.slotRead m) 2304 (fun _ d => ∀ i < 288, regs d (8 * i) [.slotPwr i]) ∧
    answers 0x0406 (.stackRead m) 200 (fun _ d => (∀ k < 12, regs d (16 * k) [.stackStatus k, .stackErrors k]) ∧ regs d 192 [.hbmInfo]) ∧
    answers 0x0506 (.streamRead m) 56 (fun _ d => regs d 0 [.ssStatus, .committedStep, .ackedStep, .unsentBytes, .ssCounts] ∧
      has d [(40, 4, s.ss.twinDev), (44, 4, 0), (48, 8, s.ownedBytes)]) ∧
    answers 0x0701 (.fwInfo m) 24 (fun _ d => has d [(0, 4, s.boot.version), (4, 1, s.boot.slot), (5, 1, s.bootSlot), (6, 2, 0),
      (16, 4, s.boot.rollback), (20, 4, 0)] ∧ Sys2Proof.Machine.slice d 8 4 = s.flashBytes (fwSlot 0 + 8) 4 ∧
      Sys2Proof.Machine.slice d 12 4 = s.flashBytes (fwSlot 1 + 8) 4) ∧
    answers 0x0801 (.counters m) 112 (fun _ d => ∀ i < 14, i ≠ 10 → i ≠ 11 → has d [(8 * i, 8, tabGet 0 s.totals (i + 1))]) ∧
    answers 0x0802 (.forecast m) 160 (fun _ d => has d [(0, 8, s.therm.forecast.tick), (8, 8, s.therm.forecast.step),
      (0x10, 1, s.therm.forecast.flags), (0x12, 2, s.therm.forecast.flow), (0x14, 2, s.therm.forecast.tj), (0x98, 8, 0)] ∧
      ∀ k < 60, has d [(0x20 + 2 * k, 2, s.therm.forecast.w.getD k 0)]) ∧
    answers 0x0902 (.fabricRead m) 1216 (fun _ d => regs d 0 [.fabCfg, .fabTune, .xeStatus, .ilCounts, .ilDiscards, .huddleStatus, .tickStatus, .tick] ∧
      ∀ l < 144, regs d (64 + 8 * l) [.laneStatus l]) ∧
    (∀ b, Asked s n 0x0601 b → ∃ t a, exec (.unitRead m) s = .next t ∧ Sampled s t n a ∧
      Paged a 254 (leAt b 0 8) (allUnits.filter (fun u => decide (leAt b 0 8 ≤ u))) id s.unitBytes) ∧
    (∀ b, Asked s n 0x0604 b → ∃ t a, exec (.errorRead m) s = .next t ∧ Sampled s t n a ∧
      Paged a 63 (leAt b 0 8) (s.log.errs.filter (fun r => decide (leAt b 0 8 ≤ r.seq))).reverse (·.seq) ErrRec.bytes) ∧
    (∀ b, Asked s n 0x0905 b → ∃ t a, exec (.qpRead m) s = .next t ∧ Sampled s t n a ∧
      Paged a 254 (leAt b 0 8) (s.ing.qps.filter (fun q => decide (leAt b 0 8 ≤ q.1))) (·.1) (fun q => qpEntry q.1 q.2)) ∧
    (∀ b, Asked s n 0x0605 b → ∃ t, exec (.lastGaspRead m) s = .next t ∧
      (let start := leAt b 0 8
       let k := min 4064 (65536 - start)
       Sampled s t n (0, 0, decide (start + k < 65536), leBytes 8 (start + k) ++ leBytes 4 k ++ leBytes 4 0 ++ s.flashBytes (gaspArchive + start) k)))

/-- R22, R701, R748, R753, R755, R777 to R781, R785, R791, R793, R794: each of these Change commands, at its turn, is refused with the
code and the detail of the first thing at fault and changes nothing, or takes effect whole: partition and class map on every stack, the
masked register, the regulator's voltage, HALT_REQ or RESUME of each named cluster, the mailbox's mask and cursor, the fabric and its tick
tree, a lane, a queue pair. Where EVENT_FETCH leaves the cursor is the model's choice, as is which fault of several is named first. Beside
the rules it rests on the model's readings in notes/assumptions/ 65, 67, 70, 75, 80. -/
def Obligations.ConfigurationCommandsCheckAndApply : Prop :=
  ∀ (s : State) (m : Fin 16),
    let n := m.val
    let rows (r : Option W16) : List (Nat × Instr) := [(0x0209, .regulatorSet m), (0x0303, .clusterHalt m), (0x0304, .clusterResume m),
      (0x0403, .powerConfig m), (0x0404, .vinSet m r), (0x0504, .exportSet m), (0x0803, .eventMask m), (0x0804, .eventFetch m),
      (0x0901, .fabricConfig m), (0x0903, .laneSetOut m), (0x0903, .laneSetIn m), (0x0904, .qpCreate m), (0x0904, .qpModify m),
      (0x0904, .qpDestroy m), (0x0904, .qpReset m)]
    let quiet (t : State) : Prop := t.mem = s.mem ∧ t.job = s.job ∧ t.flash = s.flash
    let code := if s.job.state = .none ∨ s.job.state = .staging then 1 else 3
    let refuses (i : Instr) (a : Answer) : Prop := ∃ t, exec i s = .next t ∧ Refused s t n a
    let served (i : Instr) (a : Answer) (p : State → Prop) : Prop := ∃ t, exec i s = .next t ∧ Decided s t n a ∧ quiet t ∧ p t
    (∀ r, ∀ p ∈ rows r, (¬∃ b, Asked s n p.1 b) → exec p.2 s = .next s) ∧
    (∀ b, Asked s n 0x0209 b →
      let p := leAt b 0 1
      let cfg := leAt b 8 8
      let map := leAt b 0x10 8
      let cfgOk : Prop := fld cfg 8 0 ≤ 256 ∧ 1 ≤ fld cfg 24 16 ∧ fld cfg 24 16 ≤ 256 ∧ 32 ≤ fld cfg 47 32 ∧
        fld cfg 15 9 = 0 ∧ fld cfg 31 25 = 0 ∧ fld cfg 63 48 = 0
      (16 ≤ p → refuses (.regulatorSet m) (badField 0)) ∧
      (p < 16 → ¬cfgOk → refuses (.regulatorSet m) (badField 8)) ∧
      (p < 16 → cfgOk → 2 ^ 20 ≤ map → refuses (.regulatorSet m) (badField 0x10)) ∧
      (p < 16 → cfgOk → map < 2 ^ 20 → served (.regulatorSet m) (ansOk []) (fun t => ∀ k < 12,
        t.regVal (.partCfg k p) = cfg ∧ t.regVal (.classMap k) = map ∧ ∀ q, q ≠ p → (t.stack k).part q = (s.stack k).part q))) ∧
    (∀ b, Asked s n 0x0303 b →
      (s.jobRuns = false → refuses (.clusterHalt m) (badState code)) ∧
      (s.jobRuns = true → served (.clusterHalt m) (ansOk (leBytes 32 0)) (fun t => ∀ c : BitVec 8, ∀ u, exec (.haltReq c) s = .next u →
        t.cl c.toNat = if s.absent c.toNat = false ∧ bitN (leAt b 0 32) c.toNat = true then u.cl c.toNat else s.cl c.toNat))) ∧
    (∀ b, Asked s n 0x0304 b →
      (s.jobRuns = false → refuses (.clusterResume m) (badState code)) ∧
      (s.jobRuns = true → ∃ l : List Nat, served (.clusterResume m) (ansOk (leBytes 32 (clusterMask (fun c => decide (c ∈ l))))) (fun t =>
        (∀ c < 256, c ∈ l ↔ (s.cl c).st = .halted ∧ (t.cl c).st ≠ .halted) ∧ ∀ c : BitVec 8, ∀ u, exec (.resume c) s = .next u →
          t.cl c.toNat = if s.absent c.toNat = false ∧ bitN (leAt b 0 32) c.toNat = true then u.cl c.toNat else s.cl c.toNat))) ∧
    (∀ b, Asked s n 0x0403 b →
      (6 ≤ leAt b 0 1 → refuses (.powerConfig m) (badField 0)) ∧
      (∀ r, [Reg.oppCfg, .kwCfg, .relayCfg, .relaySite, .thermCfg, .refCfg][leAt b 0 1]? = some r →
        let old := s.regVal r
        let w := (old &&& (leAt b 8 8 ^^^ (2 ^ 64 - 1))) ||| (leAt b 0x10 8 &&& leAt b 8 8)
        (∀ d, faultBit (regFields r w) w = some d → refuses (.powerConfig m) (badField d)) ∧
        (faultBit (regFields r w) w = none → served (.powerConfig m) (ansOk (leBytes 8 old ++ leBytes 8 w)) (fun t => t.regVal r = w ∧
          (r = .refCfg → (nextSync s.tick, SyncChange.refCfg w) ∈ t.hud.changes) ∧ t.opp.effective = s.opp.effective ∧ t.hud.pceil = s.hud.pceil)))) ∧
    (∀ b, Asked s n 0x0404 b → ∀ r : Option W16,
      let mv := leAt b 0 2
      let i := Instr.vinSet m r
      (mv < 1750 ∨ 1850 < mv → refuses i (badField 0)) ∧
      (1750 ≤ mv → mv ≤ 1850 →
        (s.pwr.save ≠ .none ∨ s.pwr.alert = true → refuses i (badState 4)) ∧
        (s.pwr.save = .none → s.pwr.alert = false →
          (s.pmb.lost = true → refuses i (ansFailed 1)) ∧
          (s.pmb.lost = false → r = none → served i (ansFailed 2) (fun t => t.pmb.lost = true)) ∧
          (s.pmb.lost = false → ∀ v, r = some v → served i (ansOk (leBytes 2 v.toNat ++ leBytes 6 0)) (fun t =>
            t.pmb.setpoint = mv ∧ ∃ w, t.pmb.sent = s.pmb.sent ++ [(0x21, w)]))))) ∧
    (∀ b, Asked s n 0x0504 b →
      (1 < leAt b 0 1 → refuses (.exportSet m) (badField 0)) ∧
      (leAt b 0 1 ≤ 1 → s.ss.exportEn = false → refuses (.exportSet m) (badState 11)) ∧
      (leAt b 0 1 ≤ 1 → s.ss.exportEn = true → served (.exportSet m) (ansOk []) (fun t =>
        t.step.exportChange = some (leAt b 0 1 == 1) ∧ t.ss = s.ss))) ∧
    (∀ b, Asked s n 0x0803 b →
      (12 ≤ n → refuses (.eventMask m) (badState 9)) ∧
      (n < 12 → served (.eventMask m) (ansOk (leBytes 2 (s.box n).mask ++ leBytes 6 0)) (fun t => (t.box n).mask = leAt b 0 2 ∧
        (t.box n).cursor = (s.box n).cursor ∧ ∀ k, k ≠ n → t.box k = s.box k))) ∧
    (∀ b, Asked s n 0x0804 b →
      let x := s.box n
      let start := leAt b 0 8
      let lost := if start = 0 then s.log.eventSeq + 1 - s.log.events.length - (x.cursor + 1) else 0
      let past := if start = 0 then x.cursor + lost else min (start - 1) s.log.eventSeq
      let all := s.eventsPast n past
      let page := all.take 126
      (12 ≤ n → refuses (.eventFetch m) (badState 9)) ∧
      (n < 12 → ∃ last, (page = [] → last = past) ∧ (∀ e, page.getLast? = some e → last = e.seq) ∧
        served (.eventFetch m) (0, 0, decide (126 < all.length), leBytes 8 (last + 1) ++ leBytes 4 page.length ++ leBytes 4 lost ++
          page.flatMap EventRec.bytes) (fun t => (t.box n).cursor = (if start ≠ 0 ∧ page = [] then x.cursor else last) ∧
            (t.box n).acked = (if n = 0 ∨ page = [] then x.acked else max x.acked last) ∧ t.log = s.log ∧ ∀ k, k ≠ n → t.box k = s.box k))) ∧
    (∀ b, Asked s n 0x0901 b →
      let i := Instr.fabricConfig m
      let cfg := leAt b 0 8
      let tune := leAt b 8 8
      let root := leAt b 0x10 4
      let cfgOk : Prop := 1 ≤ fld cfg 43 32 ∧ fld cfg 43 32 ≤ 3839 ∧ fld cfg 31 26 = 0 ∧ fld cfg 47 44 = 0
      let tuneOk : Prop := 1 ≤ fld tune 31 16 ∧ fld tune 31 16 ≤ fld tune 47 32 ∧ 1 ≤ fld tune 47 32 ∧ fld tune 47 32 ≤ 4096 ∧ fld tune 63 48 = 0
      (¬cfgOk → refuses i (badField 0)) ∧ (cfgOk → ¬tuneOk → refuses i (badField 8)) ∧
      (cfgOk → tuneOk → 2 ^ 17 ≤ root → refuses i (badField 0x10)) ∧
      (cfgOk → tuneOk → root < 2 ^ 17 → 2 ^ 17 ≤ leAt b 0x14 4 → refuses i (badField 0x14)) ∧
      (cfgOk → tuneOk → root < 2 ^ 17 → leAt b 0x14 4 < 2 ^ 17 →
        (s.job.state ≠ .none → refuses i (badState 2)) ∧
        (s.job.state = .none → served i (ansOk []) (fun t => t.regVal .fabCfg = cfg ∧ t.regVal .fabTune = tune ∧ t.hud.tickRoot = root ∧
          t.hud.tickRoot2 = leAt b 0x14 4 ∧ t.hud.tickState = if fld cfg 25 9 = root then .locked else .acquiring)))) ∧
    (∀ b, Asked s n 0x0903 b →
      let l := leAt b 0 1
      let act := leAt b 1 1
      let x := s.lane l
      let i := if act = 1 then Instr.laneSetIn m else .laneSetOut m
      exec (if act = 1 then .laneSetOut m else .laneSetIn m) s = .next s ∧
      (144 ≤ l → refuses i (badField 0)) ∧ (l < 144 → 1 < act → refuses i (badField 1)) ∧
      (l < 144 → act ≤ 1 → x.state = .retired → refuses i (badState 5)) ∧
      (l < 144 → act ≤ 1 → x.state ≠ .retired → ∃ st : LaneState, served i (ansOk (leBytes 1 st.code ++ leBytes 7 0)) (fun t => (t.lane l).state = st ∧
        (∀ j, j ≠ l → t.lane j = s.lane j) ∧ (act = 0 → st = .out) ∧
        (act = 1 → st = if x.state = .out ∧ x.fenced = false then .down else x.state)))) ∧
    (∀ b, Asked s n 0x0904 b →
      let act := leAt b 0 1
      let q := leAt b 4 4
      let i := if act = 1 then Instr.qpModify m else if act = 2 then .qpDestroy m else if act = 3 then .qpReset m else .qpCreate m
      let fault := s.qpFault b (decide (act ≠ 2 ∧ act ≠ 3)) (decide (act ≠ 2))
      let suits : Prop := if act = 0 then tabFind s.ing.qps q = none else if act = 3 then ∃ x, tabFind s.ing.qps q = some x ∧ x.state = .error
        else ∃ x, tabFind s.ing.qps q = some x
      let given : Prop := (s.lane (leAt b 2 1)).state = .up ∨ (s.lane (leAt b 2 1)).state = .down
      (fault = none → 0x100 ≤ q ∧ q ≤ 0x1FF ∧ act ≤ 3 ∧
        (act ≤ 1 → leAt b 2 1 < 128 ∧ given ∧ leAt b 3 1 < 64 ∧ leAt b 24 4 < 2 ^ 24 ∧ 8 ≤ leAt b 36 1 ∧ leAt b 36 1 ≤ 18 ∧ leAt b 37 1 ≤ 7 ∧
          leAt b 38 1 ≤ 7) ∧ (act ≠ 2 → leAt b 28 4 < 2 ^ 24 ∧ leAt b 32 4 < 2 ^ 24)) ∧
      (∀ j ∈ [Instr.qpCreate m, .qpModify m, .qpDestroy m, .qpReset m], j ≠ i → exec j s = .next s) ∧
      (∀ d, fault = some d → refuses i (badField d)) ∧
      (fault = none → s.jobRuns = true → refuses i (badState 3)) ∧
      (fault = none → s.jobRuns = false → ¬suits → refuses i (badField 4)) ∧
      (fault = none → s.jobRuns = false → suits → served i (ansOk []) (fun t =>
        t = { s with mb := t.mb, ing := { s.ing with qps := t.ing.qps } } ∧ (∀ k, k ≠ q → tabFind t.ing.qps k = tabFind s.ing.qps k) ∧
        (act ≤ 1 → tabFind t.ing.qps q = some (qpOf b)) ∧ (act = 2 → tabFind t.ing.qps q = none) ∧
        (act = 3 → ∃ x y, tabFind s.ing.qps q = some x ∧ tabFind t.ing.qps q = some y ∧ y.state = .ready ∧ y.sqPsn = leAt b 28 4 ∧
          y.rqPsn = leAt b 32 4 ∧ y.plane = x.plane ∧ y.remoteQpn = x.remoteQpn))))

/-- R401, R412, R438, R441, R444, R769 to R776, R783 to R785: a job command that the job state or a field forbids is refused and changes
nothing; stages open and close; a load records the job, puts every cluster at its image's entry and both COMMITTED_STEP and ACKED_STEP at
FIRST_STEP - 1; a start enters the barrier; END, ABORT, pause, resume and unload move the job state; a binding is recorded and removed, a
restore takes what SOURCE streams where its digests agree, and a rank's new device is recorded. Beside the rules it rests on the model's
readings in notes/assumptions/ 70, 71, 72, 73, 76. -/
def Obligations.JobCommandsMoveTheJobState : Prop :=
  ∀ (s : State) (m : Fin 16),
    let n := m.val
    let rows (p : W16) (r : Option Nat) (l : List Record) : List (Nat × Instr) := [(0x0201, .jobStage m), (0x0202, .jobUnstage m),
      (0x0203, .jobLoad m p), (0x0204, .jobStart m), (0x0205, .jobStopEnd m), (0x0205, .jobStopAbort m), (0x0206, .jobPause m),
      (0x0207, .jobResume m), (0x0208, .jobUnload m), (0x0501, .twinBind m), (0x0502, .twinUnbind m), (0x0503, .restore m r l), (0x0505, .rankUpdate m)]
    let st := s.job.state
    let code := if st = .none ∨ st = .staging then 1 else 3
    let refuses (i : Instr) (a : Answer) : Prop := ∃ t, exec i s = .next t ∧ Refused s t n a
    let served (i : Instr) (a : Answer) (p : State → Prop) : Prop := ∃ t, exec i s = .next t ∧ Decided s t n a ∧ p t
    (∀ p r l, ∀ q ∈ rows p r l, (¬∃ b, Asked s n q.1 b) → exec q.2 s = .next s) ∧
    (∀ b, Asked s n 0x0201 b →
      let i := Instr.jobStage m
      let base := leAt b 8 8
      let len := leAt b 0x10 8
      let baseOk : Prop := base % 32 = 0 ∧ base < s.memsys.hbmTop ∧ ∀ x ∈ s.job.stages, base + len ≤ x.base ∨ x.base + x.length ≤ base
      let lenOk : Prop := 0 < len ∧ len % 32 = 0 ∧ base + len ≤ s.memsys.hbmTop
      let ok : Prop := leAt b 0 2 ≠ 0 ∧ leAt b 4 4 < 2 ^ 18 ∧ baseOk ∧ lenOk
      (leAt b 0 2 = 0 → refuses i (badField 0)) ∧ (leAt b 0 2 ≠ 0 → 2 ^ 18 ≤ leAt b 4 4 → refuses i (badField 4)) ∧
      (leAt b 0 2 ≠ 0 → leAt b 4 4 < 2 ^ 18 → ¬baseOk → refuses i (badField 8)) ∧
      (leAt b 0 2 ≠ 0 → leAt b 4 4 < 2 ^ 18 → baseOk → ¬lenOk → refuses i (badField 0x10)) ∧
      (ok → ¬(st = .none ∨ st = .staging ∧ s.job.tag = leAt b 0 2) → refuses i (badState 3)) ∧
      (ok → st = .none ∨ st = .staging ∧ s.job.tag = leAt b 0 2 → ∀ k < 8, (∀ x ∈ s.job.stages, x.num ≠ k) →
        (∀ j < k, ∃ x ∈ s.job.stages, x.num = j) → served i (ansOk (leBytes 1 k ++ leBytes 7 0)) (fun t =>
          t = { s with mb := t.mb, job := { s.job with state := .staging, tag := leAt b 0 2, stages := s.job.stages ++
            [{ num := k, job := leAt b 0 2, station := leAt b 4 4, base := base, length := len }] } })) ∧
      (ok → st = .none ∨ st = .staging ∧ s.job.tag = leAt b 0 2 → (∀ k < 8, ∃ x ∈ s.job.stages, x.num = k) → refuses i (badState 3))) ∧
    (∀ b, Asked s n 0x0202 b →
      (st ≠ .staging → refuses (.jobUnstage m) (badState 3)) ∧
      (st = .staging → (∀ x ∈ s.job.stages, x.num ≠ leAt b 0 1) → refuses (.jobUnstage m) (badField 0)) ∧
      (st = .staging → (∃ x ∈ s.job.stages, x.num = leAt b 0 1) → served (.jobUnstage m) (ansOk []) (fun t =>
        t = { s with mb := t.mb, job := { s.job with stages := s.job.stages.filter (fun x => x.num != leAt b 0 1) } }))) ∧
    (∀ (p : W16) b, Asked s n 0x0203 b →
      let i := Instr.jobLoad m p
      let fits : Prop := st = .none ∨ st = .staging
      let whole : Prop := ∀ c < 256, s.absent c = false
      (¬fits → refuses i (badState 2)) ∧ (fits → ¬whole → refuses i (badState 8)) ∧
      (fits → whole → ∀ c, (s.loadChecks b).find? (fun c => !c.2) = some c → refuses i (badField c.1)) ∧
      (fits → whole → (∀ c ∈ s.loadChecks b, c.2 = true) → s.jobPoison b = true → served i (ansFailed 1) (fun t => t.job.state = .none)) ∧
      (fits → whole → (∀ c ∈ s.loadChecks b, c.2 = true) → s.jobPoison b = false → served i (ansOk []) (fun t =>
        let first := leAt (s.bytes (leAt b 0x10 8 + 8) 8) 0 8
        t.job.state = .loaded ∧ t.job.tag = leAt b 0 2 ∧ t.job.rank = leAt b 4 4 ∧ t.job.seed = leAt b 8 8 ∧ t.job.stages = [] ∧
        t.job.sched.firstStep = first ∧ t.ss.committed = first - 1 ∧ t.ss.acked = first - 1 ∧ t.step.expect = first - 1 ∧
        t.opp.pIdle = p.toNat ∧ t.opp.table = [] ∧ t.hud.treeEpoch = (s.hud.treeEpoch + 1) % 65536 ∧ t.hud.ops = [] ∧ t.flash = s.flash ∧
        ∀ c < 256, (t.cl c).st = .idle ∧ (t.cl c).fault = false ∧ (t.cl c).pc = leAt (s.bytes (leAt b 0x68 8 + 16 * c + 0xC) 4) 0 4 ∧
          (t.cl c).waitLimit = leAt b 0x78 4 ∧ (t.cl c).transBase = leAt b 0x48 8 ∧ (t.cl c).sreg 1 = c ∧ (t.cl c).sreg 2 = leAt b 4 4 ∧
          (t.cl c).sreg 3 = first ∧ (t.cl c).ev 63 = 0 ∧ (t.cl c).tiles = [] ∧ (t.cl c).slots = []))) ∧
    (∀ b, Asked s n 0x0204 b →
      let i := Instr.jobStart m
      let step := leAt b 0 8
      let fresh : Prop := step = 0 ∧ st = .loaded
      let again : Prop := st = .stopped ∧ step = s.ss.committed + 1
      (¬fresh → ¬again → refuses i (badState 3)) ∧
      (fresh ∨ again → s.hud.tickState ≠ .locked → served i (ansOk []) (fun t =>
        let first := if fresh then s.job.sched.firstStep else step
        t.job.state = .running ∧ t.step.phase = 6 ∧ t.step.opens = some first ∧ t.step.starting = true ∧ t.step.posted = false ∧
        t.step.failing = false ∧ (again → t.step.number = step - 1 ∧ t.ss.stopped = false ∧ t.hud.treeEpoch = (s.hud.treeEpoch + 1) % 65536) ∧
        ∀ c ∈ s.present, (s.cl c).st = .idle → (s.cl c).fault = false → (s.cl c).fenced = false → (t.cl c).st = .running)) ∧
      (fresh ∨ again → s.hud.tickState = .locked → s.job.rank ≠ 0 → served i (ansOk []) (fun t =>
        t.job.state = .running ∧ t.step.phase = 6 ∧ t.step.posted = true))) ∧
    (∀ b, Asked s n 0x0205 b →
      let mode := leAt b 0 1
      let last := leAt b 8 8
      (mode = 1 → exec (.jobStopEnd m) s = .next s) ∧ (mode ≠ 1 → exec (.jobStopAbort m) s = .next s) ∧
      (1 < mode → refuses (.jobStopEnd m) (badField 0)) ∧
      (mode = 0 → s.jobRuns = false → refuses (.jobStopEnd m) (badState code)) ∧
      (mode = 0 → s.jobRuns = true → last < s.step.number → refuses (.jobStopEnd m) (badState 3)) ∧
      (mode = 0 → s.jobRuns = true → s.step.number ≤ last → served (.jobStopEnd m) (ansOk (leBytes 8 s.ss.committed)) (fun t =>
        t = { s with mb := t.mb, step := t.step } ∧ t.step = { s.step with endAfter := some last, opens := t.step.opens } ∧
        (s.step.phase ≠ 6 ∨ s.step.posted = true ∨ last ≠ s.step.number → t.step.opens = s.step.opens) ∧
        (s.step.phase = 6 → s.step.posted = false → last = s.step.number → t.step.opens = none))) ∧
      (mode = 1 → s.jobRuns = false → refuses (.jobStopAbort m) (badState code)) ∧
      (mode = 1 → s.jobRuns = true → served (.jobStopAbort m) (ansOk (leBytes 8 s.ss.committed)) (fun t =>
        t.job.state = .stopped ∧ t.step.phase = 7 ∧ t.ss.stopped = true ∧ t.ss.committed = s.ss.committed ∧ t.ss.sent = [] ∧
        ∀ c ∈ s.present, (s.cl c).st = .running → (t.cl c).st = .halting))) ∧
    (∀ b, Asked s n 0x0206 b →
      (st ≠ .running → refuses (.jobPause m) (badState code)) ∧
      (st = .running → served (.jobPause m) (ansOk []) (fun t =>
        t = { s with mb := t.mb, log := t.log, job := { s.job with state := .paused }, step := { s.step with pausedAt := s.now } }))) ∧
    (∀ b, Asked s n 0x0207 b →
      (st ≠ .paused → st ≠ .halted → refuses (.jobResume m) (badState code)) ∧
      (st = .paused ∨ st = .halted → s.step.phase < 5 → (∃ d ∈ s.present, d ∉ s.step.arrived) → served (.jobResume m) (ansOk []) (fun t =>
        t.job = { s.job with state := .running } ∧ t.step.phaseSince = s.step.phaseSince + (s.now - s.step.pausedAt) ∧ t.mem = s.mem ∧
        (st = .paused → t.clusters = s.clusters) ∧
        (st = .halted → ∀ c ∈ s.present, (s.cl c).st = .halted → (s.cl c).fault = false → (s.cl c).fenced = false → (t.cl c).st = .running)))) ∧
    (∀ b, Asked s n 0x0208 b →
      let fits : Prop := st = .staging ∨ st = .loaded ∨ st = .stopped ∨ st = .ended
      (¬fits → refuses (.jobUnload m) (badState 3)) ∧
      (fits → served (.jobUnload m) (ansOk []) (fun t => t.job = {} ∧ t.ss.binding = s.ss.binding ∧ t.ss.twin = s.ss.twin ∧
        t.step.phase = 7 ∧ t.ss.formed = [] ∧ t.ss.regions = [] ∧ ∀ c ∈ s.present, (t.cl c).st = .idle ∧ (t.cl c).fault = false))) ∧
    (∀ b, Asked s n 0x0501 b →
      let i := Instr.twinBind m
      let g := leAt b
      let recs := (g 0x10 8 + 1048575) / 1048576 + g 4 4
      let need := 2 * g 0x10 8 + (g 0x10 8 + 127) / 128 + 192 * recs
      let ok : Prop := g 0 4 < 2 ^ 18 ∧ g 8 8 < s.memsys.hbmTop ∧ g 8 8 + g 0x10 8 ≤ s.memsys.hbmTop ∧ g 0x18 8 < s.memsys.hbmTop ∧
        g 0x18 8 + g 0x20 8 ≤ s.memsys.hbmTop
      (2 ^ 18 ≤ g 0 4 → refuses i (badField 0)) ∧ (ok → g 0x20 8 < need → refuses i (badField 0x20)) ∧
      (¬ok → ∃ d ∈ [0, 8, 0x10, 0x18, 0x20], refuses i (badField d)) ∧
      (ok → need ≤ g 0x20 8 → s.ss.binding ≠ none → refuses i (badState 6)) ∧
      (ok → need ≤ g 0x20 8 → s.ss.binding = none → served i (ansOk (leBytes 8 recs ++ leBytes 8 need)) (fun t =>
        t = { s with mb := t.mb, ss := t.ss } ∧ t.ss.binding = some {
          base := g 8 8, bytes := g 0x10 8, tlogBase := g 0x18 8, tlogBytes := g 0x20 8, source := g 0 4, tag := g 0x28 2 } ∧ t.ss.twinDev = g 0 4 ∧ (t.ss.twin = 1 ∨ t.ss.twin = 2) ∧
        (s.ss.regions = [] → t.ss.twin = 1) ∧ ∃ l, t.ss.unsent = l ++ s.ss.unsent ∧ t.ss.seq = s.ss.seq + l.length ∧
          ∀ r ∈ l, r.type = 2 ∧ r.step = s.ss.ended))) ∧
    (∀ b, Asked s n 0x0502 b →
      let i := Instr.twinUnbind m
      let busy : Prop := s.ss.restoring = true ∨ s.ss.twin = 2
      (busy → refuses i (badState 10)) ∧ (¬busy → s.ss.binding = none → refuses i (badState 7)) ∧
      (¬busy → s.ss.binding ≠ none → s.ss.twinless = 0 ∨ s.jobRuns = false → served i (ansOk []) (fun t =>
        t = { s with mb := t.mb, log := t.log, ss := { s.ss with binding := none, twin := 0 } } ∧ t.log.eventSeq = s.log.eventSeq + 1))) ∧
    (∀ (reply : Option Nat) (l : List Record) b, Asked s n 0x0503 b →
      let i := Instr.restore m reply l
      let ok : Prop := leAt b 0 4 < 2 ^ 18 ∧ leAt b 4 4 < 2 ^ 18
      let ready : Prop := st = .loaded ∧ s.ss.binding ≠ none
      let target := leAt b 8 8
      let right (r : Record) : Prop := rangeDigest r.shard r.region r.offset (decodeSectors r.length r.payload) = r.newDig
      let covered : Prop := s.ownedBytes ≤ reach (l.map (fun r => (r.boff, r.length)))
      (2 ^ 18 ≤ leAt b 0 4 → refuses i (badField 0)) ∧ (leAt b 0 4 < 2 ^ 18 → 2 ^ 18 ≤ leAt b 4 4 → refuses i (badField 4)) ∧
      (ok → st ≠ .loaded → refuses i (badState 3)) ∧ (ok → st = .loaded → s.ss.binding = none → refuses i (badState 7)) ∧
      (ok → ready → reply = none → refuses i (ansFailed 3)) ∧
      (ok → ready → (∃ v, reply = some v ∧ v ≠ 0) → refuses i (ansFailed 1)) ∧
      (ok → ready → reply = some 0 → (∀ r ∈ l, right r) → ¬covered → served i (ansFailed 3) (fun t => t.job = s.job)) ∧
      (ok → ready → reply = some 0 → (∀ r ∈ l, right r) → covered → served i (ansOk (leBytes 8 s.ownedBytes ++ leBytes 8 0)) (fun t =>
        t.job = { s.job with state := .stopped } ∧ t.ss.committed = target ∧ t.ss.acked = target ∧ t.ss.ended = target ∧ t.step.number = target ∧
        t.step.u = leAt b 0x10 8 ∧ (t.ss.twin = 1 ∨ t.ss.twin = 2) ∧ s.log.eventSeq < t.log.eventSeq))) ∧
    (∀ b, Asked s n 0x0505 b →
      let i := Instr.rankUpdate m
      let rank := leAt b 0 4
      let dev := leAt b 4 4
      (2 ^ 18 ≤ dev → refuses i (badField 4)) ∧ (dev < 2 ^ 18 → st ≠ .stopped → refuses i (badState code)) ∧
      (dev < 2 ^ 18 → st = .stopped → s.job.ranks.length ≤ rank → refuses i (badField 0)) ∧
      (dev < 2 ^ 18 → st = .stopped → rank < s.job.ranks.length → ∃ hits ≤ 63, served i (ansOk (leBytes 4 hits ++ leBytes 4 0)) (fun t =>
        t.job = { s.job with ranks := s.job.ranks.set rank dev } ∧ (∀ c ∈ s.present, t.cl c = { s.cl c with transInv := true }) ∧
        (s.job.rankAddr + 4 * rank + 4 ≤ s.job.transBase ∨ s.job.transBase + 1024 ≤ s.job.rankAddr + 4 * rank →
          leAt (t.bytes (s.job.rankAddr + 4 * rank) 4) 0 4 = dev))))

/-- R758, R786 to R790, R806, R812, R813, R830, R841 to R843: a unit changes where its class and its state allow it, a pseudo-channel only
becomes PENDING; a test needs its unit in TEST and compares signatures, twice at most, and a second failure retires the unit; FW_WRITE
takes the next bytes of an image for the slot that does not run, FW_ACTIVATE makes a verified image the one that boots next; a debug
response uses up its challenge. Beside the rules it rests on the model's readings in notes/assumptions/ 61, 69, 77, 78, 80. -/
def Obligations.ServiceCommandsTestAndUpdate : Prop :=
  ∀ (s : State) (m : Fin 16),
    let n := m.val
    let rows (up : Bool) (m1 m2 : W64) (row : W16) (a : TestResult) : List (Nat × Instr) := [(0x0602, .unitSet m up), (0x0603, .bistLogic m m1 m2),
      (0x0603, .bistMemorySlot m m1 m2), (0x0603, .bistMemoryWay m m1 m2 row), (0x0603, .bistReferenceTest m a a a), (0x0702, .fwWrite m),
      (0x0703, .fwActivate m), (0x0704, .reboot m), (0x0705, .debugChallenge m), (0x0706, .debugResponse m)]
    let refuses (i : Instr) (a : Answer) : Prop := ∃ t, exec i s = .next t ∧ Refused s t n a
    let served (i : Instr) (a : Answer) (p : State → Prop) : Prop := ∃ t, exec i s = .next t ∧ Decided s t n a ∧ t.job = s.job ∧ p t
    (∀ up m1 m2 row a, ∀ q ∈ rows up m1 m2 row a, (¬∃ b, Asked s n q.1 b) → exec q.2 s = .next s) ∧
    (∀ (up : Bool) b, Asked s n 0x0602 b →
      let i := Instr.unitSet m up
      let u := leAt b 0 4
      let cls := u / 2 ^ 28
      let real : Prop := u % 2 ^ 28 < [0, 288, 768, 384, 128, 16].getD cls 0
      let e := s.unit u
      let fixed : Prop := (cls = 1 ∨ cls = 3) ∧ (s.jobRuns = true ∨ s.job.state = .loaded)
      let becomes (g : UnitEnt → Prop) : Prop := ∃ bytes, served i (ansOk bytes) (fun t => bytes = t.unitBytes u ∧ bytes.length = 16 ∧ g (t.unit u))
      (¬real → refuses i (badField 0)) ∧
      (real → ∀ st : UnitState, (leAt b 4 1, st) ∈ [(0, UnitState.active), (2, .retired), (3, .spare), (4, .test)] →
        (fixed → refuses i (badState 3)) ∧
        (¬fixed → e.state = .retired → refuses i (badState 5)) ∧
        (¬fixed → e.state ≠ .retired → cls = 2 → becomes (fun f => f.state = e.state ∧ f.logical = e.logical ∧
          (st ≠ .active ∨ e.state ≠ .active → f.pending = true) ∧ (st = .active → e.state = .active → f = e))) ∧
        (¬fixed → e.state ≠ .retired → cls ≠ 2 →
          (st = .active → e.state = .active → becomes (fun f => f = e)) ∧
          (st = .active → e.state ≠ .active → up = true → becomes (fun f => f.state = .active ∧ f.fence = false)) ∧
          (st = .active → e.state ≠ .active → up = false → served i (ansFailed 2) (fun t => (t.unit u).state = .fenced)) ∧
          (st = .retired ∨ st = .spare ∨ st = .test → e.state ≠ st → becomes (fun f => f.state = st ∧ f.fence = true)))) ∧
      (real → leAt b 4 1 = 1 ∨ 4 < leAt b 4 1 → refuses i (badField 4))) ∧
    (∀ b, Asked s n 0x0603 b → ∀ (m1 m2 : W64) (row : W16),
      let u := leAt b 4 4
      let kind := leAt b 0 1
      let want := (Config.signature kind).toNat
      let cls := if kind = 3 then 3 else 1
      let real : Prop := u / 2 ^ 28 = cls ∧ u % 2 ^ 28 < if cls = 1 then 288 else 384
      let i := if kind = 1 then Instr.bistLogic m m1 m2 else if kind = 2 then .bistMemorySlot m m1 m2 else .bistMemoryWay m m1 m2 row
      let result (x r : Nat) : Answer := ansOk (leBytes 8 x ++ leBytes 8 want ++ leBytes 1 r ++ leBytes 7 0)
      (∀ j ∈ [Instr.bistLogic m m1 m2, .bistMemorySlot m m1 m2, .bistMemoryWay m m1 m2 row], j ≠ i ∨ kind = 0 ∨ 3 < kind → exec j s = .next s) ∧
      (1 ≤ kind → kind ≤ 3 →
        (¬real → refuses i (badField 4)) ∧ (real → (s.unit u).state ≠ .test → refuses i (badState 5)) ∧
        (real → (s.unit u).state = .test →
          (m1.toNat = want → served i (result m1.toNat 0) (fun t => t.units = s.units ∧ t.log = s.log ∧ t.ras = s.ras)) ∧
          (m1.toNat ≠ want → m2.toNat = want → served i (result m2.toNat 0) (fun t => t.log ≠ s.log)) ∧
          (m1.toNat ≠ want → m2.toNat ≠ want → served i (result m2.toNat 1) (fun t => (t.unit u).state = .retired ∧ t.ras.dirty = true))))) ∧
    (∀ b, Asked s n 0x0603 b → ∀ x y z : TestResult,
      let kind := leAt b 0 1
      let i := Instr.bistReferenceTest m x y z
      (1 ≤ kind → kind ≤ 3 → exec i s = .next s) ∧ (kind = 0 ∨ 4 < kind → refuses i (badField 0)) ∧
      (kind = 4 → leAt b 4 4 ≠ 0 → refuses i (badField 4)) ∧ (kind = 4 → leAt b 4 4 = 0 → s.jobRuns = true → refuses i (badState 3)) ∧
      (kind = 4 → leAt b 4 4 = 0 → s.jobRuns = false → ∃ r, served i (ansOk (leBytes 16 0 ++ leBytes 1 r ++ leBytes 7 0)) (fun t =>
        r < 8 ∧ ∀ k < 3, (bitN r k = true ↔ (t.clk.src k).state = .failed) ∧
          ((s.clk.src k).state ≠ .lost → (s.clk.src k).state ≠ .failed → (t.clk.src k).tested = true)))) ∧
    (∀ b, Asked s n 0x0702 b →
      let i := Instr.fwWrite m
      let off := leAt b 0 4
      let len := leAt b 4 4
      let base := fwSlot s.freeSlot
      let begun (x : Nat) : Prop := ∃ k < 64, off ≤ 65536 * k ∧ 65536 * k < off + len ∧ base + 65536 * k ≤ x ∧ x < base + 65536 * (k + 1)
      (off ≠ 0 → s.boot.fwNext ≠ some off → refuses i (badField 0)) ∧
      (off = 0 ∨ s.boot.fwNext = some off → 2 ^ 22 < off + len → refuses i (badField 4)) ∧
      (off = 0 ∨ s.boot.fwNext = some off → off + len ≤ 2 ^ 22 → served i (ansOk []) (fun t => t.boot.fwNext = some (off + len) ∧
        t.boot.writing = s.boot.writing ++ [(base + off, (b.drop 8).take len)] ∧ t.pwr.flashBusy = true ∧ t.mem = s.mem ∧
        ∀ x, (begun x → t.flashByte x = 0xFF#8) ∧ (¬begun x → x < 0x30000 ∨ 0x40000 ≤ x → t.flashByte x = s.flashByte x)))) ∧
    (∀ b, Asked s n 0x0703 b →
      let i := Instr.fwActivate m
      let image := s.flashBytes (fwSlot s.freeSlot) (leAt b 0 4)
      (2 ^ 22 < leAt b 0 4 → refuses i (badField 0)) ∧
      (leAt b 0 4 ≤ 2 ^ 22 → imageOk s.boot.rollback image = false → refuses i ansDenied) ∧
      (leAt b 0 4 ≤ 2 ^ 22 → imageOk s.boot.rollback image = true → served i (ansOk []) (fun t => t.bootSlot = s.freeSlot ∧
        t.boot = s.boot ∧ ∀ x, 0x40000 ≤ x → t.flashByte x = s.flashByte x))) ∧
    (∀ b, Asked s n 0x0704 b →
      let fits : Prop := s.job.state = .none ∨ s.job.state = .stopped ∨ s.job.state = .ended
      (¬fits → refuses (.reboot m) (badState 3)) ∧ (fits → refuses (.reboot m) (ansOk []))) ∧
    (∀ b, Asked s n 0x0705 b →
      (3 ≤ s.dbg.tries → refuses (.debugChallenge m) ansDenied) ∧
      (s.dbg.tries < 3 → ∃ c, served (.debugChallenge m) (ansOk c) (fun t => t.dbg = { s.dbg with challenge := some c } ∧
        c.length = 64 ∧ leAt c 0 8 = Config.deviceId.toNat ∧ leAt c 0x28 4 = s.boot.rollback % 2 ^ 32 ∧ leAt c 0x2C 4 = 3 - s.dbg.tries))) ∧
    (∀ b, Asked s n 0x0706 b →
      let response := (b.drop 8).take (leAt b 0 4)
      let right : Prop := s.dbg.tries < 3 ∧ ∃ c, s.dbg.challenge = some c ∧ responseOk c response = true
      (right → served (.debugResponse m) (ansOk []) (fun t =>
        t.dbg = { s.dbg with challenge := none, unlocked := true, scope := s.dbg.scope ||| leAt response 0 4 % 4 })) ∧
      (¬right → served (.debugResponse m) ansDenied (fun t => t.dbg = { s.dbg with challenge := none, tries := min 3 (s.dbg.tries + 1) })))

/-- What a reset with a cause leaves (R799, R801): fuses, sticky bits, the flash and the coolant record stay; clusters have no clock; the unit
table, the rings, the tick, twin bindings, the job and the mailboxes start again. -/
def Sys2Proof.Claims.Restarted (cause : Nat) (s t : State) : Prop :=
  t.flash = s.flash ∧ t.boot.rollback = s.boot.rollback ∧ t.smb.coolant = s.smb.coolant ∧ t.therm.tripSeen = s.therm.tripSeen ∧
  t.therm.tjMax = s.therm.tjMax ∧ t.pwr.ovSeen = s.pwr.ovSeen ∧ (∀ k, (t.stack k).tempMax = (s.stack k).tempMax) ∧
  t.boot.cause = cause ∧ t.boot.pinReset = true ∧ t.clocked = false ∧ t.boot.nganor = false ∧ t.boot.stage = 0 ∧
  t.units = [] ∧ t.log = {} ∧ t.tick = 0 ∧ t.hud = {} ∧ t.ss = {} ∧ t.job = {} ∧ t.step = {} ∧ t.mb = {} ∧ t.clusters = [] ∧ t.fab.tx = [] ∧
  t.fab.ops = [] ∧ t.ing = {} ∧ t.clk = {} ∧ t.opp = {} ∧ t.pending = s.pending

/-- R798 to R804, R809 to R811, R817 to R819, R822, R843: a reset keeps what R801 lists and starts the rest again; its end samples
BOOT_SEL, draws the EPOCH counter and starts the ROM; the first lock, the firmware's verification, the training of the memory, the optical
stage, the self-test and the announcement follow in this order, each once its condition holds, and a boot without an image waits in
recovery. Which conditions a stage waits for is in part the model's reading. Beside the rules it rests on the model's readings in
notes/assumptions/ 22, 26, 60, 68. -/
def Obligations.ResetAndBringUpFollowTheirStages : Prop :=
  ∀ s : State,
    let gives (i : Instr) (p : State → Prop) : Prop := ∃ t, exec i s = .next t ∧ p t
    let b := s.boot
    let oneLine (t : State) : Prop := t.uart.lines.length + t.uart.dropped = s.uart.lines.length + s.uart.dropped + 1
    (b.pinReset = true → exec .sysResetAssert s = .next s) ∧
    (b.pinReset = false → gives .sysResetAssert (fun t => Restarted 1 s t ∧ t.boot.wdog = b.wdog)) ∧
    (b.pinReset = false → b.nganor = true → gives .watchdogExpire (fun t => Restarted 3 s t ∧ t.boot.wdog = s.now :: b.wdog)) ∧
    (b.pinReset = true ∨ b.nganor = false → exec .watchdogExpire s = .next s) ∧
    gives .vauxRemoved (fun t => t = { State.reset with
      pending := s.pending, now := s.now, freeCtr := s.freeCtr, flash := s.flash, boot := { State.reset.boot with rollback := b.rollback } }) ∧
    (∀ sel, b.pinReset = false → exec (.sysResetDeassert sel) s = .next s) ∧
    (∀ sel : BitVec 2, b.pinReset = true → gives (.sysResetDeassert sel) (fun t =>
      let dogs := (b.wdog.filter (fun x => decide (s.now < x + 600000000000))).length
      let source := if 3 ≤ dogs ∨ 2 ≤ sel.toNat then 2 else sel.toNat
      t.boot = { b with pinReset := false, bootSel := sel.toNat, source := source, stage := 0, resetAt := s.now, stageAt := s.now,
                        wdog := if 3 ≤ dogs then [] else b.wdog } ∧
      t.fab = { s.fab with epoch := (Config.entropy (s.freeCtr + 32768)).toNat % 65536 } ∧ t.genBase = s.freeCtr ∧
      s.freeCtr + 32768 < t.freeCtr ∧ t.flash = s.flash ∧ t.units = s.units ∧ t.log = s.log ∧
      (s.bcrRead = none → t.clk = s.clk) ∧
      ∀ r, s.bcrRead = some r → t.clk = if bcrFlag (bcrUsed r) 4 then
        { s.clk with cfg := leAt (bcrUsed r) 0x90 8, cfgUsed := leAt (bcrUsed r) 0x90 8 } else s.clk)) ∧
    (let waits : Prop := s.clocked = true ∧ b.stage = 0 ∧ s.clk.pll = .free ∧ b.resetAt + 1000000000 ≤ s.now ∧ s.clk.best = none
     (waits → gives .refWaitRetry (fun t => oneLine t ∧ t = { s with uart := t.uart, freeCtr := t.freeCtr })) ∧
     (¬waits → exec .refWaitRetry s = .next s)) ∧
    (∀ i, s.clk.best = some i → i < 2 → s.clocked = true → s.clk.pll = .free → b.stage = 0 → gives .pllFirstLock (fun t =>
      t.clk = { s.clk with pll := .locked, selected := i } ∧ t.boot.stage = (if b.source = 2 then 6 else 1) ∧ t.boot.source = b.source ∧
      t.boot.nganor = b.nganor ∧ t.flash = s.flash ∧ t.units = s.units)) ∧
    (s.clk.best = none ∨ s.clocked = false ∨ s.clk.pll ≠ .free ∨ b.stage ≠ 0 → exec .pllFirstLock s = .next s) ∧
    (∀ image, let fetches : Prop := s.clocked = true ∧ b.nganor = false ∧ b.stage = 1 ∧ b.source = 1 ∧ b.tftp = []
      (¬fetches → exec (.tftpBoot image) s = .next s) ∧
      (∀ d, fetches → image = some d → imageOk b.rollback d = true → exec (.tftpBoot image) s = .next { s with boot := { b with tftp := d } }) ∧
      (fetches → (∀ d, image = some d → imageOk b.rollback d = false) → gives (.tftpBoot image) (fun t =>
        t.boot.stage = 6 ∧ t.boot.source = 2 ∧ t.boot.nganor = false ∧ t.flash = s.flash))) ∧
    (∀ cal,
      let verifies : Prop := s.clocked = true ∧ b.nganor = false ∧ b.stage = 1
      let started (d : List Byte) (slot : Nat) (other : Bool) (t : State) : Prop :=
        t.boot.nganor = true ∧ t.boot.stage = 2 ∧ t.boot.version = leAt d 8 4 ∧ t.boot.secVersion = leAt d 0xC 4 ∧ t.boot.slot = slot ∧
        t.boot.fallback = other ∧ t.boot.rollback = b.rollback ∧ t.pmb.setpoint = 1800 ∧ t.pmb.sent = s.pmb.sent ++ [(0x01, 0x80), (0x21, 0x1CCD)] ∧
        ∀ m, m < 16 → (t.box m).state = .idle ∧ (t.box m).owner = none ∧ (t.box m).mask = if m = 0 then 0x26 else if m < 4 then 0xFF else if m < 12 then 0xD1 else 0
      let own := s.bootSlot
      (¬verifies → exec (.firmwareVerify cal) s = .next s) ∧
      (verifies → b.source = 0 → imageOk b.rollback (s.slotImage own) = true → gives (.firmwareVerify cal) (started (s.slotImage own) own false)) ∧
      (verifies → b.source = 0 → imageOk b.rollback (s.slotImage own) = false → imageOk b.rollback (s.slotImage (1 - own)) = true →
        gives (.firmwareVerify cal) (started (s.slotImage (1 - own)) (1 - own) true)) ∧
      (verifies → b.source = 0 → imageOk b.rollback (s.slotImage own) = false → imageOk b.rollback (s.slotImage (1 - own)) = false →
        gives (.firmwareVerify cal) (fun t => t.boot.stage = 6 ∧ t.boot.nganor = false ∧ t.flash = s.flash ∧ t.units = s.units)) ∧
      (verifies → b.source ≠ 0 → b.tftp ≠ [] → gives (.firmwareVerify cal) (started b.tftp 0 false)) ∧
      (verifies → b.source ≠ 0 → b.tftp = [] → exec (.firmwareVerify cal) s = .next s)) ∧
    (∀ failed,
      let trains : Prop := s.nganorUp = true ∧ b.stage = 2
      let pc (k : Nat) := unitId 2 k
      (¬trains → exec (.hbmTrainingComplete failed) s = .next s) ∧
      (trains → gives (.hbmTrainingComplete failed) (fun t =>
        t.boot = { b with stage := 3, stageAt := s.now } ∧ t.memsys.hbmTop = t.memsys.channels.length * 1073740032 ∧ t.memsys.scrub = 0 ∧
        (∀ k, k < 768 → (k ∈ t.memsys.channels ↔ (t.unit (pc k)).state = .active)) ∧
        (∀ k, k < 768 → k ∉ failed → ∀ e, tabFind s.units (pc k) = some e → e.state = .fenced → (t.unit (pc k)).state = .active) ∧
        (∀ k, k ∈ failed → k < 768 → (t.unit (pc k)).state = (s.unit (pc k)).state) ∧
        (∀ l, l < 144 → (t.lane l).state = .retired ∨ (t.lane l).state = .down) ∧ t.mem = s.mem))) ∧
    (let ends : Prop := s.nganorUp = true ∧ b.stage = 3 ∧ b.ready = false ∧ ((∀ l, l < 144 → (s.lane l).state ≠ .down) ∨ b.stageAt + 5000000000 ≤ s.now)
     (¬ends → exec .opticalStageEnd s = .next s) ∧
     (ends → gives .opticalStageEnd (fun t =>
        t.boot = { b with stage := if s.bcrOn 5 then 4 else 3, ready := !s.bcrOn 5, stageAt := s.now } ∧
        (s.bcrOn 3 = false ∨ s.hud.tickState ≠ .free → t = { s with boot := t.boot }) ∧
        (s.bcrOn 3 = true → s.hud.tickState = .free →
          let d := leAt b.bcr 0x78 8
          t.fab.fabricId = fld d 7 0 ∧ t.fab.half = fld d 8 8 ∧ t.fab.device = fld d 25 9 ∧ t.hud.tickRoot = leAt b.bcr 0x88 4 ∧
          t.hud.tickState = if fld d 25 9 = leAt b.bcr 0x88 4 then .locked else .acquiring)))) ∧
    (∀ failed,
      let ends : Prop := s.nganorUp = true ∧ b.stage = 4 ∧ b.ready = false
      (¬ends → exec (.bistStageComplete failed) s = .next s) ∧
      (ends → gives (.bistStageComplete failed) (fun t => t.boot = { b with bistRan := true, ready := true } ∧
        ∀ u sig, (u, sig) ∈ failed → u / 2 ^ 28 = 1 ∨ u / 2 ^ 28 = 3 → (s.unit u).state = .active → (t.unit u).state = .retired))) ∧
    (let ends : Prop := s.nganorUp = true ∧ b.ready = true ∧ (b.stage = 3 ∨ b.stage = 4)
     (¬ends → exec .announce s = .next s) ∧
     (ends → gives .announce (fun t =>
        t.boot = { b with stage := 5, announceMs := (s.now - b.resetAt) / 1000000, rollback := max b.rollback b.secVersion } ∧ oneLine t ∧
        t.mgmt = (if s.mgmt.ip = 0 then s.mgmt else { s.mgmt with sent := s.mgmt.sent ++ [(2, s.mgmt.ip, [])] }) ∧
        (∀ w, s.opp.samples.take 100 = w → w ≠ [] → t.hud.pceil = w.sum / w.length) ∧ t.job = s.job ∧ t.units = s.units ∧ t.opp = s.opp)))

/-- R486, R759, R830, R832, R834, R839, R840, R846: a logic check fences its slot, logs, and is event 2 of the fault history: a second one
within 720 minutes, or a test that fails, retires the slot; a first one under RERUN whose slot passes returns the slot, and any other
stops a running job. A fence bit that hardware set makes the entry FENCED; a bit found clear is set again. The repair record is written to
the copy that does not govern, under the next generation. A second that dropped records closes with their number. That a failed test
counts as a second event, and what a fenced slot of a job does, are the model's reading. Beside the rules it rests on the model's readings
in notes/assumptions/ 78, 79. -/
def Obligations.ChecksFencesAndRecords : Prop :=
  ∀ (s : State),
    (∀ (c : BitVec 8) check bist k,
      let u := unitId 1 k
      let x := Instr.logicCheck c check bist
      let runs : Prop := s.clocked = true ∧ s.boot.nganor = true ∧ (s.cl c.toNat).fenced = false
      (s.slotOf c.toNat = none → exec x s = .next s) ∧ (¬runs → exec x s = .next s) ∧
      (s.slotOf c.toNat = some k → (s.unit u).state = .active → (s.unit u).logical = c.toNat → k < 288 → runs →
        let fresh : Prop := ∀ h ∈ s.ras.hist, h.unit = u → h.event ≠ 2
        let again : Prop := ∃ h, s.ras.hist.find? (fun h => decide (h.unit = u ∧ h.event = 2)) = some h ∧ 1 ≤ h.count ∧
          s.ras.serviceMin < h.first + 720
        let becomes (st : UnitState) (fails : Bool) : Prop := ∃ t, exec x s = .next t ∧ (t.unit u).state = st ∧
          ((t.unit u).fence = true ↔ st ≠ .active) ∧ ((t.cl c.toNat).fenced = true ↔ st ≠ .active) ∧ t.log ≠ s.log ∧ t.mem = s.mem ∧
          t.step = { s.step with faultPending := s.step.faultPending || s.jobRuns, failing := s.step.failing || fails }
        (again → becomes .retired s.jobRuns) ∧
        (fresh → s.jobRuns = true → s.job.sched.policy = 1 → bist = true → becomes .active false) ∧
        (fresh → s.ras.hist.length < 4096 → s.jobRuns = true → s.job.sched.policy = 1 → bist = false → becomes .retired true) ∧
        (fresh → s.jobRuns = true → s.job.sched.policy ≠ 1 → becomes .fenced true) ∧
        (fresh → s.jobRuns = false → becomes .fenced false))) ∧
    (∀ (unit : W32) (set : Bool),
      let u := unit.toNat
      let e := s.unit u
      let cls := u / 2 ^ 28
      let real : Prop := u % 2 ^ 28 < [0, 288, 768, 384, 128, 16].getD cls 0
      let x := Instr.hardwareFence unit set
      (s.nganorUp = false ∨ ¬real ∨ (set = true ↔ e.state ≠ .active) → exec x s = .next s) ∧
      (s.nganorUp = true → real → set = true → e.state = .active → ∃ t, exec x s = .next t ∧ t.log ≠ s.log ∧ t.mem = s.mem ∧
        (cls = 2 → t.unit u = { e with pending := true } ∧ t.step = s.step) ∧
        (cls ≠ 2 → (t.unit u).state = .fenced ∧ (t.unit u).fence = true ∧ (t.unit u).logical = e.logical) ∧
        (cls = 1 → e.logical < 256 → s.jobRuns = true → t.step.failing = true)) ∧
      (s.nganorUp = true → real → set = false → e.state ≠ .active → ∃ t, exec x s = .next t ∧ t.log ≠ s.log ∧ t.unit u = { e with fence := true })) ∧
    (∀ ok,
      let r := s.ras
      let due : Prop := r.dirty = true ∨ r.writtenAt + 60 ≤ r.serviceMin
      let copy := if r.fresh = true ∧ r.gen = 0 then 0 else 1 - r.copy
      let base := if copy = 0 then 0x40000 else 0x80000
      (s.nganorUp = false ∨ ¬due → exec (.repairRecordWrite ok) s = .next s) ∧
      (s.nganorUp = true → due → ∃ t, exec (.repairRecordWrite ok) s = .next t ∧ t.units = s.units ∧ t.mem = s.mem ∧
        (∀ x, (x < 0x30000 ∨ 0x40000 ≤ x) → (x < base ∨ base + 0x40000 ≤ x) → (r.bytes (r.gen + 1)).length ≤ 0x40000 → t.flashByte x = s.flashByte x) ∧
        (ok = true → t.ras = { r with gen := (r.gen + 1) % 2 ^ 32, copy := copy, dirty := false, writtenAt := r.serviceMin } ∧
          t.log = s.log ∧ t.flashBytes base (r.bytes (r.gen + 1)).length = r.bytes (r.gen + 1)) ∧
        (ok = false → t.ras = { r with writeFail := true, dirty := false, writtenAt := r.serviceMin } ∧ t.log ≠ s.log))) ∧
    (s.log.droppedNow = 0 → exec .errorRateWindow s = .next s) ∧
    (s.log.droppedNow ≠ 0 → ∃ t e, exec .errorRateWindow s = .next t ∧ t = { s with log := t.log } ∧ t.log.inSecond = 1 ∧ t.log.droppedNow = 0 ∧
      t.log.errs = (e :: s.log.errs).take 8192 ∧ e.source = 0x0B ∧ e.code = 8 ∧ e.info0 = s.log.droppedNow ∧ e.seq = s.log.errSeq + 1 ∧
      t.log.errSeq = s.log.errSeq + 1 ∧ t.log.dropped = s.log.dropped)

/-- R16, R21, R22, R306, R880 and the access rules of each block: a read returns the register's word, and the fields of type RC are then 0
where the reader is Nganor, for whom every block clears, or a program in a block where a program's read clears; other bits stay. A write
of an aligned 1, 2, 4 or 8 bytes by Nganor clears the W1C bits that it names in those bytes and no other bit; a configuration register
takes each field, but a field with a reserved encoding keeps its value, which is logged, and Res reads as 0. A program's write adds to a
counter through EV_ADD or replaces an event counter, and a register that programs do not write ignores it. Beside the rules it rests on
the model's readings in notes/assumptions/ 29, 67, 81. -/
def Obligations.RegisterAccessesFollowTheFieldTypes : Prop :=
  ∀ (s : State) (who : Option (BitVec 8)) (addr : BitVec 48),
    let a := addr.toNat
    let p := s.place a
    let may : Prop := (who = none → s.nganorUp = true) ∧ ∀ c, who = some c → s.clocked = true ∧ s.open_ c.toNat = true ∧
      ∀ d off, p = .csr d off → s.open_ d = true
    let rc : Reg → List (Nat × Nat) := fun
      | .podStatus _ => [(16, 16)] | .stackErrors _ => [(0, 32), (32, 16)] | .sliceStatus _ => [(16, 16), (32, 16)]
      | .laneStatus _ => [(16, 16), (32, 16), (48, 16)] | .ilCounts => [(0, 32), (32, 16), (48, 16)]
      | .ilDiscards => [(0, 16), (16, 16), (32, 16), (48, 16)] | .ingestStatus => [(16, 16), (32, 16)] | .huddleStatus => [(32, 16)]
      | .stepCounts => [(0, 16), (16, 16), (32, 16)] | .ssCounts => [(0, 16), (16, 16), (32, 16), (48, 16)]
      | .pwrCounts => [(0, 16), (16, 16), (32, 16)] | .slotPwr _ => [(16, 16), (32, 32)] | .oppCounts => [(0, 16), (16, 16), (32, 16), (48, 16)]
      | .clkCounts => [(0, 16), (16, 16), (32, 16), (48, 16)] | .thermCounts => [(0, 16), (16, 16), (32, 16), (48, 16)]
      | .rasCounts => [(32, 16)] | _ => []
    let byProgram : Reg → Bool := fun
      | .podStatus _ | .stackErrors _ | .sliceStatus _ | .huddleStatus | .stepCounts | .ssCounts => true
      | _ => false
    let w1c : Reg → List Nat := fun
      | .arithFlags _ => [0, 1, 2, 3, 4] | .podStatus _ => [0, 1, 2, 3, 4, 5] | .accState _ => [18] | .pourState _ => [24] | .stackStatus _ => [11]
      | .laneStatus _ => [4] | .xeStatus => [0, 1, 2, 3, 4] | .ingestStatus => [0, 1] | .huddleStatus => [18, 19, 20] | .tickStatus => [3]
      | .relayStatus => [33] | .stepStatus => [23, 24] | .nwState _ => [9, 10] | .ssStatus => [10] | .pwrStatus => [17, 20] | .oppStatus => [20]
      | .refStatus => [11, 12] | .thermStatus => [14] | .coolStatus => [19] | .rasStatus => [45] | _ => []
    let bits (t : State) (r : Reg) (cleared : Nat → Prop) : Prop :=
      ∀ b, b < 64 → (bitN (t.regVal r) b = true ↔ bitN (s.regVal r) b = true ∧ ¬cleared b)
    (¬may ∨ p.reg = none → exec (.rcRead who addr) s = .next s) ∧
    (may → ∀ r, p.reg = some r → who = none ∨ (∀ m, r ≠ .mbClaim m) → ∃ t, exec (.rcRead who addr) s = .next t ∧ t.readout = s.regVal r ∧
      t.mem = s.mem ∧ t.job = s.job ∧ t.units = s.units ∧
      (who ≠ none ∧ byProgram r = false ∨ rc r = [] → t = { s with readout := t.readout }) ∧
      (who = none ∨ byProgram r = true → rc r ≠ [] → bits t r (fun b => ∃ f ∈ rc r, f.1 ≤ b ∧ b < f.1 + f.2))) ∧
    (∀ (size : Nat) (v : W64),
      let x := Instr.registerWrite who addr size v
      let whole : Prop := (size = 1 ∨ size = 2 ∨ size = 4 ∨ size = 8) ∧ a % size = 0
      let placed := v.toNat % 2 ^ (8 * size) * 2 ^ (8 * (a % 8))
      (¬may ∨ ¬whole ∨ p.reg = none → exec x s = .next s) ∧
      (may → whole → ∀ r, p.reg = some r →
        (who = none → w1c r ≠ [] → ∃ t, exec x s = .next t ∧ t.mem = s.mem ∧ t.job = s.job ∧
          bits t r (fun b => b ∈ w1c r ∧ bitN placed b = true)) ∧
        (who = none → size = 8 → regFields r v.toNat ≠ [] → r ≠ .refCfg → (r = .fabCfg ∨ r = .fabTune → s.jobRuns = false) →
          ∃ t, exec x s = .next t ∧ t.mem = s.mem ∧ t.job = s.job ∧
            (t.log ≠ s.log ↔ ∃ f ∈ regFields r v.toNat, f.res = false ∧ f.ok (f.get v.toNat) = false) ∧
            ∀ f ∈ regFields r v.toNat, f.get (t.regVal r) =
              if f.res = true then 0 else if f.ok (f.get v.toNat) = true then f.get v.toNat else f.get (s.regVal r)) ∧
        (∀ c d k, who = some c → r = .evAdd d k → d < 256 → k < 63 → ∃ t, exec x s = .next t ∧ OnlyCluster d s t ∧
          t.cl d = { s.cl d with e := (t.cl d).e } ∧ CounterWritten (s.cl d) (t.cl d) k ((s.cl d).ev k + placed)) ∧
        (∀ c d k, who = some c → r = .eReg d k → d < 256 → k < 63 → size = 8 → ∃ t, exec x s = .next t ∧ OnlyCluster d s t ∧
          t.cl d = { s.cl d with e := (t.cl d).e } ∧ CounterWritten (s.cl d) (t.cl d) k v.toNat) ∧
        (who ≠ none → r ∈ [Reg.hbmInfo, .tick, .stepStatus, .stepNumber, .committedStep, .pwrStatus, .oppCfg, .relayCfg, .refCfg, .fabCfg,
          .thermCfg, .bootStatus, .rasStatus] → exec x s = .next s)))

/-- A step takes the command at the front of the queue and runs it on the state with the rest of the queue; on an empty queue a nanosecond
passes. Beside the rules it rests on the model's readings in notes/assumptions/ 1, 22. -/
def Obligations.AStepRunsTheFrontCommand : Prop :=
  ∀ (s : State),
    (∀ c rest, s.pending = c :: rest → step s = exec c { s with pending := rest }) ∧
    (s.pending = [] → ∃ t, step s = .next t ∧ t.now = s.now + 1 ∧ t.pending = [] ∧ t.mem = s.mem ∧ (s.clocked = false → t = { s with now := s.now + 1 }) ∧
      (s.clocked = true → s.hud.slew = 0 → t.tick = s.tick + 1))

/-- R16, R257, R309, R377, R588, R590, R654, R688, R716, R735 to R737, R756, R797, R801, R816, R824: the machine right after power-up:
SYS_RESET_N is asserted, no clock runs, nothing is queued, memory lists nothing, no job is loaded, and the registers read as their tables
say. Beside the rules it rests on the model's readings in notes/assumptions/ 24, 25, 26. -/
def Obligations.ResetLeavesTheTablesValues : Prop :=
  let s := State.reset
  s.pending = [] ∧ s.mem = [] ∧ s.memOk = true ∧ s.boot.pinReset = true ∧ s.clocked = false ∧ s.nganorUp = false ∧ s.job.state = .none ∧
  s.tick = 0 ∧ s.units = [] ∧ s.log.eventSeq = 0 ∧
  (∀ q ∈ [(Reg.oppCfg, 0x5A000A0320C807D0), (.kwCfg, 0x1400), (.relayCfg, 0x7D0004C0000), (.relaySite, 0), (.thermCfg, 0x1050F02B5),
      (.coolStatus, 0x05DC07D000120000), (.thermStatus, 0), (.fabTune, 0x100000401770), (.tickStatus, 0), (.huddleStatus, 0), (.relayStatus, 0),
      (.bootStatus, 0), (.ssStatus, 0), (.tick, 0), (.stepNumber, 0), (.committedStep, 0), (.ackedStep, 0), (.ilCounts, 0), (.ilDiscards, 0)],
    s.regVal q.1 = q.2) ∧
  (∀ c, c < 256 → (s.cl c).st = .idle ∧ s.regVal (.seqStatus c) = 0x1000 ∧ s.regVal (.faultInfo c) = 0 ∧ s.regVal (.waitLimit c) = 0 ∧
    (∀ r, (s.cl c).sreg r = 0) ∧ ∀ e, (s.cl c).ev e = 0) ∧
  (∀ k p, k < 12 → p < 16 → s.regVal (.partCfg k p) = 0x40001000000) ∧ (∀ k, k < 24 → s.regVal (.sliceStatus k) = 0xFFFF) ∧
  (∀ m, 12 ≤ m → m < 16 → s.regVal (.mbClaim m) = 0x100)

/-- Every command of the table has a meaning on every state: exec answers a next state, and the queue is as it was. Beside the rules it
rests on the model's readings in notes/assumptions/ 22. -/
def Obligations.EveryCommandCompletesAndLeavesTheQueue : Prop :=
  ∀ (c : Instr) (s : State), ∃ t, exec c s = .next t ∧ t.pending = s.pending

/-- What every step keeps, from any state: the queue loses its front command and nothing else; canonical memory stays canonical; and the
sticky bits TRIP_SEEN and OV_SEEN, once set, stay set but for the removal of VAUX (R17). Beside the rules it rests on the model's readings
in notes/assumptions/ 1, 26. -/
def Obligations.EveryStepKeepsMemoryCanonicalAndStickyBits : Prop :=
  ∀ (s t : State), step s = .next t →
    t.pending = s.pending.tail ∧
    (s.memOk = true → t.memOk = true) ∧
    (s.pending.head? ≠ some .vauxRemoved →
      (s.therm.tripSeen = true → t.therm.tripSeen = true) ∧ (s.pwr.ovSeen = true → t.pwr.ovSeen = true)) ∧
    (s.pending.head? = some .vauxRemoved → t.therm.tripSeen = false ∧ t.pwr.ovSeen = false ∧ t.mem = [] ∧ t.flash = s.flash)
end

