-- ==== Sys2Proof/Laws/Keeps.lean ====
section
/-!
SUPPORT. The relation Keeps: how a record, a choice, a match and a fold keep, and the canonical form of sparse tables.
-/
namespace Sys2Proof.Machine

/-! ### The relation -/

/-- The outcome of a command keeps. -/
structure KeepsRes (s : State) (r : Res) : Prop where
  imp : ∀ t, r = .next t → Keeps s t

/-- A next state. -/
theorem keepsRes_next {s0 t : State} (h : Keeps s0 t) : KeepsRes s0 (.next t) :=
  ⟨fun u e => by injection e with e; exact e ▸ h⟩

/-- A choice of outcomes. -/
theorem keepsRes_ite {s0 : State} {a b : Res} {p : Prop} [Decidable p] (h : p → KeepsRes s0 a) (g : ¬p → KeepsRes s0 b) :
    KeepsRes s0 (if p then a else b) := by
  split <;> simp_all

/-- A state keeps itself. -/
theorem Keeps.refl (s : State) : Keeps s s := ⟨rfl, id, id, id⟩

/-- Keeps composes. -/
theorem Keeps.trans {a b c : State} (h : Keeps a b) (g : Keeps b c) : Keeps a c :=
  ⟨g.1.trans h.1, fun m => g.2.1 (h.2.1 m), fun m => g.2.2.1 (h.2.2.1 m), fun m => g.2.2.2 (h.2.2.2 m)⟩

/-- A state written out field by field. -/
theorem keeps_mk (s0 : State) (a1 a2 a3 a4 a5 a6 a7 a8 a9 a10 a11 a12 a13 a14 a15 a16 a17 a18 a19 a20 a21 a22 a23 a24 a25 a26 a27 a28 a29 a30
    a31 a32 a33 a34) :
    Keeps s0 (State.mk a1 a2 a3 a4 a5 a6 a7 a8 a9 a10 a11 a12 a13 a14 a15 a16 a17 a18 a19 a20 a21 a22 a23 a24 a25 a26 a27 a28 a29 a30 a31 a32
      a33 a34) = KeepsCore s0 a1 a7 a8 a28.tripSeen a25.ovSeen := rfl

/-- The parts that Keeps looks at, of one state. -/
theorem keeps_core (s0 t : State) : KeepsCore s0 t.pending t.mem t.poison t.therm.tripSeen t.pwr.ovSeen = Keeps s0 t := rfl

/-- A state written out field by field, as a step of a proof. -/
theorem keeps_of_mk {s0 : State} {a1 a2 a3 a4 a5 a6 a7 a8 a9 a10 a11 a12 a13 a14 a15 a16 a17 a18 a19 a20 a21 a22 a23 a24 a25 a26 a27 a28 a29 a30
    a31 a32 a33 a34} (h : KeepsCore s0 a1 a7 a8 a28.tripSeen a25.ovSeen) :
    Keeps s0 (State.mk a1 a2 a3 a4 a5 a6 a7 a8 a9 a10 a11 a12 a13 a14 a15 a16 a17 a18 a19 a20 a21 a22 a23 a24 a25 a26 a27 a28 a29 a30 a31 a32
      a33 a34) := h

/-- The same, as a step of a proof. -/
theorem keeps_of {s0 t : State} (h : Keeps s0 t) : KeepsCore s0 t.pending t.mem t.poison t.therm.tripSeen t.pwr.ovSeen := h

/-- A choice keeps when both sides do. -/
theorem keeps_ite {s0 a b : State} {p : Prop} [Decidable p] :
    Keeps s0 (if p then a else b) = ((p → Keeps s0 a) ∧ (¬p → Keeps s0 b)) := by
  by_cases h : p <;> simp [h]

/-- A choice between pairs. -/
theorem fst_ite {α β : Type} {a b : α × β} {p : Prop} [Decidable p] : (if p then a else b).1 = if p then a.1 else b.1 := by
  by_cases h : p <;> simp [h]

/-- A fold keeps when every round does. -/
theorem keeps_foldl {α : Type} {s0 : State} {f : State → α → State} (hf : ∀ s a, Keeps s0 s → Keeps s0 (f s a)) (l : List α) {s : State}
    (h : Keeps s0 s) : Keeps s0 (l.foldl f s) := by
  induction l generalizing s with
  | nil => exact h
  | cons a t ih => exact ih (hf s a h)

/-- The same for a fold that carries more than the state. -/
theorem keeps_foldl_fst {α β : Type} {s0 : State} {f : State × β → α → State × β} (hf : ∀ p a, Keeps s0 p.1 → Keeps s0 (f p a).1) (l : List α)
    {p : State × β} (h : Keeps s0 p.1) : Keeps s0 (l.foldl f p).1 := by
  induction l generalizing p with
  | nil => exact h
  | cons a t ih => exact ih (hf p a h)

/-- The keeping of a value that is named first. -/
theorem keeps_cut {s0 t : State} {q : Prop} (h : Keeps s0 t) (g : Keeps s0 t → q) : q := g h

/-- The state of a pair that is taken apart. -/
theorem of_fst_eq {α : Type} {s0 t : State} {x : α} {p : State × α} (e : p = (t, x)) (h : Keeps s0 p.1) : Keeps s0 t := by
  subst e; exact h

/-- A choice on an optional value. -/
theorem keeps_elim {α : Type} {s0 d : State} {f : α → State} (o : Option α) (h : Keeps s0 d) (g : ∀ a, Keeps s0 (f a)) :
    Keeps s0 (o.elim d f) := by
  cases o <;> simp [h, g]

/-- An optional state keeps where there is one. -/
structure KeepsOpt (s : State) (o : Option State) : Prop where
  imp : ∀ t, o = some t → Keeps s t

/-- The same for an optional pair. -/
structure KeepsOptP {α : Type} (s : State) (o : Option (State × α)) : Prop where
  imp : ∀ t x, o = some (t, x) → Keeps s t

/-- A state that is there. -/
theorem keepsOpt_some {s0 t : State} (h : Keeps s0 t) : KeepsOpt s0 (some t) := ⟨fun u e => by injection e with e; exact e ▸ h⟩

/-- A state that is not there. -/
theorem keepsOpt_none (s0 : State) : KeepsOpt s0 none := ⟨fun _ e => nomatch e⟩

/-- A pair that is there. -/
theorem keepsOptP_some {α : Type} {s0 t : State} {x : α} (h : Keeps s0 t) : KeepsOptP s0 (some (t, x)) :=
  ⟨fun u y e => by injection e with e; injection e with e; exact e ▸ h⟩

/-- A pair that is not there. -/
theorem keepsOptP_none {α : Type} (s0 : State) : KeepsOptP (α := α) s0 none := ⟨fun _ _ e => nomatch e⟩

/-- The state that an optional one holds. -/
theorem of_some_eq {s0 t : State} {o : Option State} (e : o = some t) (h : KeepsOpt s0 o) : Keeps s0 t := h.imp t e

/-- The state that an optional pair holds. -/
theorem of_some_pair {α : Type} {s0 t : State} {x : α} {o : Option (State × α)} (e : o = some (t, x)) (h : KeepsOptP s0 o) : Keeps s0 t :=
  h.imp t x e

/-- New memory and poison, each canonical where the old one was. -/
theorem keeps_mem {s0 t : State} {m : List Host.Cell} {p : Tab Bool} (h : Keeps s0 t) (hm : Memory.wf t.mem = true → Memory.wf m = true)
    (hp : tabWf false t.poison = true → tabWf false p = true) : KeepsCore s0 t.pending m p t.therm.tripSeen t.pwr.ovSeen := by
  refine ⟨h.1, fun w => ?_, h.2.2.1, h.2.2.2⟩
  have := h.2.1 w
  rw [Bool.and_eq_true] at this ⊢
  exact ⟨hm this.1, hp this.2⟩

/-- An optional pair made from another optional value. -/
theorem keepsOptP_map {α β : Type} {s0 : State} {f : β → State × α} (o : Option β) (h : ∀ b, Keeps s0 (f b).1) :
    KeepsOptP s0 (o.map f) := by
  cases o with
  | none => exact keepsOptP_none _
  | some b => exact ⟨fun t x e => by injection e with e; have g := h b; rw [e] at g; exact g⟩

/-- The state of an outcome that is a state or a number. -/
structure KeepsSum {α : Type} (s : State) (r : State ⊕ α) : Prop where
  imp : ∀ t, r = .inl t → Keeps s t

/-- A state. -/
theorem keepsSum_inl {α : Type} {s0 t : State} (h : Keeps s0 t) : KeepsSum (α := α) s0 (.inl t) :=
  ⟨fun u e => by injection e with e; exact e ▸ h⟩

/-- A number. -/
theorem keepsSum_inr {α : Type} (s0 : State) (a : α) : KeepsSum s0 (.inr a) := ⟨fun _ e => nomatch e⟩

/-- The state that an outcome holds. -/
theorem of_inl_eq {α : Type} {s0 t : State} {o : State ⊕ α} (e : o = .inl t) (h : KeepsSum s0 o) : Keeps s0 t := h.imp t e

/-- A fold of such outcomes. -/
theorem keepsSum_foldl {α β : Type} {s0 : State} {f : State ⊕ α → β → State ⊕ α} (hf : ∀ r a, KeepsSum s0 r → KeepsSum s0 (f r a)) (l : List β)
    {r : State ⊕ α} (h : KeepsSum s0 r) : KeepsSum s0 (l.foldl f r) := by
  induction l generalizing r with
  | nil => exact h
  | cons a t ih => exact ih (hf r a h)

/-- The same for an outcome that is a state with a value, or a number. -/
structure KeepsSumP {α β : Type} (s : State) (r : State × β ⊕ α) : Prop where
  imp : ∀ t x, r = .inl (t, x) → Keeps s t

/-- A state with a value. -/
theorem keepsSumP_inl {α β : Type} {s0 t : State} {x : β} (h : Keeps s0 t) : KeepsSumP (α := α) s0 (.inl (t, x)) :=
  ⟨fun u y e => by injection e with e; injection e with e; exact e ▸ h⟩

/-- A number. -/
theorem keepsSumP_inr {α β : Type} (s0 : State) (a : α) : KeepsSumP (β := β) s0 (.inr a) := ⟨fun _ _ e => nomatch e⟩

/-- The state that such an outcome holds. -/
theorem of_inl_pair {α β : Type} {s0 t : State} {x : β} {o : State × β ⊕ α} (e : o = .inl (t, x)) (h : KeepsSumP s0 o) : Keeps s0 t :=
  h.imp t x e

end Sys2Proof.Machine
end

