-- ==== Sys2Proof/Laws/Table.lean ====
section
/-!
SUPPORT. Sparse tables: their canonical form, and what a read gives after a write. Memory and the table of poison are such tables.
-/
namespace Sys2Proof.Machine

/-- The canonical form, in the words of the library. -/
theorem tabWf_iff {α : Type} [DecidableEq α] (d : α) (t : Tab α) :
    tabWf d t = true ↔ t.Pairwise (fun a b => a.1 < b.1) ∧ ∀ e ∈ t, e.2 ≠ d := by
  induction t with
  | nil => simp [tabWf]
  | cons e t ih =>
    cases t with
    | nil => simp [tabWf]
    | cons f t =>
      simp only [tabWf, Bool.and_eq_true, decide_eq_true_eq, ih, List.pairwise_cons, List.mem_cons, forall_eq_or_imp]
      constructor
      · rintro ⟨⟨h1, h2⟩, ⟨h3, h4⟩, h5, h6⟩
        exact ⟨⟨⟨h2, fun x hx => Nat.lt_trans h2 (h3 x hx)⟩, h3, h4⟩, h1, h5, h6⟩
      · rintro ⟨⟨⟨h2, -⟩, h3, h4⟩, h1, h5, h6⟩
        exact ⟨⟨h1, h2⟩, ⟨h3, h4⟩, h5, h6⟩

/-- What a table with one key written lists. -/
theorem mem_tabSet {α : Type} {t : Tab α} {k : Nat} {v : α} {e : Nat × α} (h : e ∈ tabSet t k v) : e = (k, v) ∨ e ∈ t := by
  induction t with
  | nil => simpa [tabSet] using h
  | cons f t ih =>
    simp only [tabSet] at h
    split at h
    · rcases List.mem_cons.1 h with h | h
      · exact .inl h
      · exact .inr (List.mem_cons_of_mem _ h)
    · split at h
      · rcases List.mem_cons.1 h with h | h
        · exact .inl h
        · exact .inr h
      · rcases List.mem_cons.1 h with h | h
        · exact .inr (h ▸ List.mem_cons_self)
        · exact (ih h).imp id (List.mem_cons_of_mem _)

/-- What a table with one key removed lists. -/
theorem mem_tabDel {α : Type} {t : Tab α} {k : Nat} {e : Nat × α} (h : e ∈ tabDel t k) : e ∈ t := by
  induction t with
  | nil => simp [tabDel] at h
  | cons f t ih =>
    simp only [tabDel] at h
    split at h
    · exact List.mem_cons_of_mem _ (ih h)
    · rcases List.mem_cons.1 h with h | h
      · exact h ▸ List.mem_cons_self
      · exact List.mem_cons_of_mem _ (ih h)

/-- A write of a value other than the default keeps the form. -/
theorem tabSet_wf {α : Type} [DecidableEq α] {d : α} {t : Tab α} {k : Nat} {v : α} (h : tabWf d t = true) (hv : v ≠ d) :
    tabWf d (tabSet t k v) = true := by
  rw [tabWf_iff] at h ⊢
  refine ⟨?_, fun e he => (mem_tabSet he).elim (fun x => x ▸ hv) (h.2 e)⟩
  have hp := h.1
  clear h
  induction t with
  | nil => simp [tabSet]
  | cons f t ih =>
    have h1 := List.pairwise_cons.1 hp
    simp only [tabSet]
    split
    · next e => exact List.pairwise_cons.2 ⟨fun x hx => e ▸ h1.1 x hx, h1.2⟩
    · split
      · next hlt =>
        refine List.pairwise_cons.2 ⟨fun x hx => ?_, hp⟩
        rcases List.mem_cons.1 hx with hx | hx
        · exact hx ▸ hlt
        · exact Nat.lt_trans hlt (h1.1 x hx)
      · next hne hlt =>
        refine List.pairwise_cons.2 ⟨fun x hx => ?_, ih h1.2⟩
        rcases mem_tabSet hx with hx | hx
        · subst hx; simp only; omega
        · exact h1.1 x hx

/-- A removal keeps the form. -/
theorem tabDel_wf {α : Type} [DecidableEq α] {d : α} {t : Tab α} {k : Nat} (h : tabWf d t = true) : tabWf d (tabDel t k) = true := by
  rw [tabWf_iff] at h ⊢
  refine ⟨?_, fun e he => h.2 e (mem_tabDel he)⟩
  have hp := h.1
  clear h
  induction t with
  | nil => simp [tabDel]
  | cons f t ih =>
    have h1 := List.pairwise_cons.1 hp
    simp only [tabDel]
    split
    · exact ih h1.2
    · exact List.pairwise_cons.2 ⟨fun x hx => h1.1 x (mem_tabDel hx), ih h1.2⟩

/-- A canonical write keeps the form. -/
theorem tabPut_wf {α : Type} [DecidableEq α] {d : α} {t : Tab α} {k : Nat} {v : α} (h : tabWf d t = true) :
    tabWf d (tabPut d t k v) = true := by
  unfold tabPut
  split
  · exact tabDel_wf h
  · next hv => exact tabSet_wf h hv

/-- Leaving entries out keeps the form. -/
theorem tabFilter_wf {α : Type} [DecidableEq α] {d : α} {t : Tab α} {p : Nat × α → Bool} (h : tabWf d t = true) :
    tabWf d (t.filter p) = true := by
  rw [tabWf_iff] at h ⊢
  exact ⟨h.1.filter p, fun e he => h.2 e (List.mem_filter.1 he).1⟩

/-- A byte written keeps the form of memory. -/
theorem putByte_wf {m : List Host.Cell} {a : Nat} {b : Byte} (h : Memory.wf m = true) : Memory.wf (putByte m a b) = true := tabPut_wf h

/-- Bytes written keep the form of memory. -/
theorem putBytes_wf {m : List Host.Cell} {a : Nat} {bs : List Byte} (h : Memory.wf m = true) : Memory.wf (putBytes m a bs) = true := by
  induction bs generalizing m a with
  | nil => exact h
  | cons b t ih => exact ih (putByte_wf h)

/-- A store keeps the form of the table of poison. -/
theorem putPoison_wf {t : Tab Bool} {a n : Nat} {p : Bool} (h : tabWf false t = true) : tabWf false (putPoison t a n p) = true := by
  unfold putPoison
  generalize unitsOf a n = l
  induction l generalizing t with
  | nil => exact h
  | cons b l ih =>
    refine ih ?_
    dsimp only
    split
    · exact tabPut_wf h
    · split
      · exact tabPut_wf h
      · exact h

/-- A read after a write. -/
theorem tabGet_tabSet {α : Type} (d : α) (t : Tab α) (k j : Nat) (v : α) : tabGet d (tabSet t k v) j = if k = j then v else tabGet d t j := by
  induction t with
  | nil => simp [tabSet, tabGet]
  | cons f t ih =>
    simp only [tabSet]
    split
    · next h => subst h; simp only [tabGet]; split <;> rfl
    · split
      · simp [tabGet]
      · next h _ =>
        simp only [tabGet, ih]
        split
        · next e => subst e; simp [Ne.symm h]
        · rfl

/-- A read after a removal. -/
theorem tabGet_tabDel {α : Type} (d : α) (t : Tab α) (k j : Nat) : tabGet d (tabDel t k) j = if k = j then d else tabGet d t j := by
  induction t with
  | nil => simp [tabDel, tabGet]
  | cons f t ih =>
    simp only [tabDel]
    split
    · next e =>
      subst e
      simp only [tabGet, ih]
      split <;> rfl
    · next h =>
      simp only [tabGet, ih]
      split
      · next e => subst e; rw [if_neg (Ne.symm h)]
      · rfl

/-- A read after a canonical write. -/
theorem tabGet_tabPut {α : Type} [DecidableEq α] (d : α) (t : Tab α) (k j : Nat) (v : α) :
    tabGet d (tabPut d t k v) j = if k = j then v else tabGet d t j := by
  unfold tabPut
  split
  · next e => rw [tabGet_tabDel, e]
  · exact tabGet_tabSet d t k j v

/-- A byte read after one byte was written (R451). -/
theorem getByte_putByte (m : List Host.Cell) (a b : Nat) (v : Byte) :
    tabGet 0#8 (putByte m a v) b = if a = b then v else tabGet 0#8 m b := tabGet_tabPut 0#8 m a b v

/-- A byte outside the bytes written reads as before. -/
theorem getByte_putBytes_other {m : List Host.Cell} {a b : Nat} {bs : List Byte} (hb : b < a ∨ a + bs.length ≤ b) :
    tabGet 0#8 (putBytes m a bs) b = tabGet 0#8 m b := by
  induction bs generalizing m a with
  | nil => rfl
  | cons x t ih =>
    simp only [List.length_cons] at hb
    simp only [putBytes]
    rw [ih (by omega), getByte_putByte, if_neg (by omega)]

/-- A byte among the bytes written. -/
theorem getByte_putBytes_at {m : List Host.Cell} {a i : Nat} {bs : List Byte} (hi : i < bs.length) :
    tabGet 0#8 (putBytes m a bs) (a + i) = bs[i] := by
  induction bs generalizing m a i with
  | nil => simp at hi
  | cons x t ih =>
    simp only [putBytes]
    cases i with
    | zero => rw [getByte_putBytes_other (.inl (by omega)), getByte_putByte, if_pos (by omega)]; rfl
    | succ i =>
      have := ih (m := putByte m a x) (a := a + 1) (i := i) (by simpa using hi)
      rw [show a + (i + 1) = a + 1 + i from by omega]
      simpa using this

end Sys2Proof.Machine
end

