-- ==== Sys2Proof/Laws/KeepsCluster.lean ====
section
/-!
SUPPORT. The cluster: shared operations, sequencer, streams, array, units: each operation keeps (Keeps of Sys2Proof/Safety.lean).
-/
namespace Sys2Proof.Machine

set_option Elab.async false
set_option linter.tactic.unusedName false

/-- `State.setCl` keeps. -/
theorem State.setCl_keeps {s0 : State} (s : State) (c : Nat) (k : Cluster) (h : Keeps s0 s) : Keeps s0 (State.setCl s c k) := by
  unfold State.setCl
  repeat' ((with_reducible refine keeps_of_mk ?_); (with_reducible refine keeps_of ?_); with_reducible assumption)

/-- `State.modCl` keeps. -/
theorem State.modCl_keeps {s0 : State} (s : State) (c : Nat) (f : Cluster → Cluster) (h : Keeps s0 s) : Keeps s0 (State.modCl s c f) := by
  unfold State.modCl
  repeat' first
    | with_reducible assumption
    | with_reducible apply State.setCl_keeps

/-- `State.setUnit` keeps. -/
theorem State.setUnit_keeps {s0 : State} (s : State) (u : Nat) (e : UnitEnt) (h : Keeps s0 s) : Keeps s0 (State.setUnit s u e) := by
  unfold State.setUnit
  repeat' ((with_reducible refine keeps_of_mk ?_); (with_reducible refine keeps_of ?_); with_reducible assumption)

/-- `State.event` keeps. -/
theorem State.event_keeps {s0 : State} (s : State) (cls : Nat) (code : Nat) (unit : Nat) (data : Nat) (h : Keeps s0 s) : Keeps s0 (State.event s cls code unit data) := by
  unfold State.event
  repeat' first
    | extract_lets +onlyGivenNames t
    | ((with_reducible refine keeps_of_mk ?_); (with_reducible refine keeps_of ?_); with_reducible assumption)

/-- `State.err` keeps. -/
theorem State.err_keeps {s0 : State} (s : State) (source : Nat) (code : Nat) (e : ErrInfo) (h : Keeps s0 s) : Keeps s0 (State.err s source code e) := by
  unfold State.err
  repeat' first
    | with_reducible apply State.event_keeps
    | extract_lets +onlyGivenNames t
    | ((with_reducible refine keeps_of_mk ?_); (with_reducible refine keeps_of ?_); with_reducible assumption)
    | split

/-- `State.errReserved` keeps. -/
theorem State.errReserved_keeps {s0 : State} (s : State) (addr : Nat) (v : Nat) (h : Keeps s0 s) : Keeps s0 (State.errReserved s addr v) := by
  unfold State.errReserved
  repeat' first
    | with_reducible assumption
    | with_reducible apply State.err_keeps

/-- `State.total` keeps. -/
theorem State.total_keeps {s0 : State} (s : State) (k : Nat) (n : Nat) (h : Keeps s0 s) : Keeps s0 (State.total s k n) := by
  unfold State.total
  repeat' ((with_reducible refine keeps_of_mk ?_); (with_reducible refine keeps_of ?_); with_reducible assumption)

/-- `State.setSlice` keeps. -/
theorem State.setSlice_keeps {s0 : State} (s : State) (k : Nat) (x : Slice) (h : Keeps s0 s) : Keeps s0 (State.setSlice s k x) := by
  unfold State.setSlice
  repeat' first
    | extract_lets +onlyGivenNames t
    | ((with_reducible refine keeps_of_mk ?_); (with_reducible refine keeps_of ?_); with_reducible assumption)

/-- `State.setStack` keeps. -/
theorem State.setStack_keeps {s0 : State} (s : State) (k : Nat) (x : Stack) (h : Keeps s0 s) : Keeps s0 (State.setStack s k x) := by
  unfold State.setStack
  repeat' first
    | extract_lets +onlyGivenNames t
    | ((with_reducible refine keeps_of_mk ?_); (with_reducible refine keeps_of ?_); with_reducible assumption)

/-- `State.charge` keeps. -/
theorem State.charge_keeps {s0 : State} (s : State) (a : Nat) (n : Nat) (cls : Nat) (h : Keeps s0 s) : Keeps s0 (State.charge s a n cls) := by
  unfold State.charge
  repeat' first
    | with_reducible assumption
    | with_reducible apply State.setStack_keeps

/-- `State.touchSector` keeps. -/
theorem State.touchSector_keeps {s0 : State} (s : State) (a : Nat) (write : Bool) (cls : Nat) (h : Keeps s0 s) : Keeps s0 (State.touchSector s a write cls) := by
  unfold State.touchSector
  repeat' first
    | with_reducible assumption
    | with_reducible apply State.setSlice_keeps

/-- `State.touch` keeps. -/
theorem State.touch_keeps {s0 : State} (s : State) (a : Nat) (n : Nat) (write : Bool) (cls : Nat) (h : Keeps s0 s) : Keeps s0 (State.touch s a n write cls) := by
  unfold State.touch
  repeat' first
    | intro _
    | with_reducible assumption
    | with_reducible apply State.touchSector_keeps
    | with_reducible apply State.charge_keeps
    | with_reducible refine keeps_foldl ?_ _ ?_
    | split

/-- `State.notice` keeps. -/
theorem State.notice_keeps {s0 : State} (s : State) (a : Nat) (n : Nat) (h : Keeps s0 s) : Keeps s0 (State.notice s a n) := by
  unfold State.notice
  repeat' first
    | intro _
    | with_reducible assumption
    | with_reducible apply State.err_keeps
    | (extract_lets +onlyGivenNames t; (with_reducible refine keeps_cut (s0 := s0) (t := t) ?_ ?_); rotate_left; intro ht; (try clear_value t); rotate_left; subst t)
    | extract_lets +onlyGivenNames t
    | ((with_reducible refine keeps_of_mk ?_); (with_reducible refine keeps_of ?_); with_reducible assumption)
    | with_reducible refine keeps_foldl ?_ _ ?_
    | split

/-- `State.load` keeps. -/
theorem State.load_keeps {s0 : State} (s : State) (a : Nat) (n : Nat) (cls : Nat) (h : Keeps s0 s) : Keeps s0 (State.load s a n cls).1:= by
  unfold State.load
  repeat' first
    | with_reducible assumption
    | with_reducible apply State.notice_keeps
    | with_reducible apply State.touch_keeps

/-- `State.store` keeps. -/
theorem State.store_keeps {s0 : State} (s : State) (a : Nat) (bs : List Sys2Proof.Byte) (p : Bool) (cls : Nat) (h : Keeps s0 s) : Keeps s0 (State.store s a bs p cls) := by
  unfold State.store
  extract_lets +onlyGivenNames t
  refine keeps_cut (s0 := s0) (t := t) (State.touch_keeps _ _ _ _ _ h) fun ht => ?_
  clear_value t
  rw [keeps_mk]
  exact keeps_mem ht putBytes_wf putPoison_wf

/-- `State.arrive` keeps. -/
theorem State.arrive_keeps {s0 : State} (s : State) (c : Nat) (e : Nat) (n : Nat) (h : Keeps s0 s) : Keeps s0 (State.arrive s c e n) := by
  unfold State.arrive
  repeat' first
    | with_reducible assumption
    | with_reducible apply State.setCl_keeps
    | extract_lets +onlyGivenNames t
    | split

/-- `State.arriveIf` keeps. -/
theorem State.arriveIf_keeps {s0 : State} (s : State) (en : Bool) (c : Nat) (e : Nat) (h : Keeps s0 s) : Keeps s0 (State.arriveIf s en c e) := by
  unfold State.arriveIf
  repeat' first
    | with_reducible assumption
    | with_reducible apply State.arrive_keeps
    | split

/-- `State.ifault` keeps. -/
theorem State.ifault_keeps {s0 : State} (s : State) (c : Nat) (cause : Nat) (precise : Bool) (addr : optParam Nat 0) (slot : optParam Nat 0) (h : Keeps s0 s) : Keeps s0 (State.ifault s c cause precise addr slot) := by
  unfold State.ifault
  repeat' first
    | with_reducible assumption
    | with_reducible apply State.err_keeps
    | with_reducible apply State.setCl_keeps
    | with_reducible apply State.event_keeps
    | (extract_lets +onlyGivenNames t; (with_reducible refine keeps_cut (s0 := s0) (t := t) ?_ ?_); rotate_left; intro ht; (try clear_value t); rotate_left; subst t)
    | extract_lets +onlyGivenNames t
    | ((with_reducible refine keeps_of_mk ?_); (with_reducible refine keeps_of ?_); with_reducible assumption)
    | split

/-- `State.devFault` keeps. -/
theorem State.devFault_keeps {s0 : State} (s : State) (source : Nat) (code : Nat) (e : ErrInfo) (h : Keeps s0 s) : Keeps s0 (State.devFault s source code e) := by
  unfold State.devFault
  repeat' first
    | with_reducible assumption
    | with_reducible apply State.err_keeps
    | (extract_lets +onlyGivenNames t; (with_reducible refine keeps_cut (s0 := s0) (t := t) ?_ ?_); rotate_left; intro ht; (try clear_value t); rotate_left; subst t)
    | extract_lets +onlyGivenNames t
    | ((with_reducible refine keeps_of_mk ?_); (with_reducible refine keeps_of ?_); with_reducible assumption)
    | split

/-- `State.setBox` keeps. -/
theorem State.setBox_keeps {s0 : State} (s : State) (m : Nat) (x : Mailbox) (h : Keeps s0 s) : Keeps s0 (State.setBox s m x) := by
  unfold State.setBox
  repeat' first
    | extract_lets +onlyGivenNames t
    | ((with_reducible refine keeps_of_mk ?_); (with_reducible refine keeps_of ?_); with_reducible assumption)

/-- `State.dropClaims` keeps. -/
theorem State.dropClaims_keeps {s0 : State} (s : State) (sel : Nat → Bool) (h : Keeps s0 s) : Keeps s0 (State.dropClaims s sel) := by
  unfold State.dropClaims
  repeat' first
    | extract_lets +onlyGivenNames t
    | ((with_reducible refine keeps_of_mk ?_); (with_reducible refine keeps_of ?_); with_reducible assumption)

/-- `State.fenceCl` keeps. -/
theorem State.fenceCl_keeps {s0 : State} (s : State) (c : Nat) (h : Keeps s0 s) : Keeps s0 (State.fenceCl s c) := by
  unfold State.fenceCl
  repeat' first
    | with_reducible assumption
    | with_reducible apply State.dropClaims_keeps
    | with_reducible apply State.setCl_keeps
    | with_reducible apply State.ifault_keeps
    | (extract_lets +onlyGivenNames t; (with_reducible refine keeps_cut (s0 := s0) (t := t) ?_ ?_); rotate_left; intro ht; (try clear_value t); rotate_left; subst t)
    | extract_lets +onlyGivenNames t
    | split

/-- `State.unfenceCl` keeps. -/
theorem State.unfenceCl_keeps {s0 : State} (s : State) (c : Nat) (h : Keeps s0 s) : Keeps s0 (State.unfenceCl s c) := by
  unfold State.unfenceCl
  repeat' first
    | with_reducible assumption
    | with_reducible apply State.modCl_keeps

/-- `State.issue` keeps. -/
theorem State.issue_keeps {s0 : State} (s : State) (c : Nat) (f : Cluster → State) (hf : ∀ y0, Keeps s0 (f y0)) (h : Keeps s0 s) : KeepsRes s0 (State.issue s c f) := by
  unfold State.issue
  repeat' first
    | with_reducible assumption
    | with_reducible apply hf
    | extract_lets +onlyGivenNames t
    | with_reducible refine keepsRes_next ?_
    | split

/-- `State.illegal` keeps. -/
theorem State.illegal_keeps {s0 : State} (s : State) (c : Nat) (h : Keeps s0 s) : Keeps s0 (State.illegal s c) := by
  unfold State.illegal
  repeat' first
    | with_reducible assumption
    | with_reducible apply State.ifault_keeps

/-- `State.writeBack` keeps. -/
theorem State.writeBack_keeps {s0 : State} (s : State) (line : Nat) (x : CacheLine) (h : Keeps s0 s) : Keeps s0 (State.writeBack s line x) := by
  unfold State.writeBack
  repeat' first
    | intro _
    | with_reducible assumption
    | with_reducible apply State.store_keeps
    | extract_lets +onlyGivenNames t
    | with_reducible refine keeps_foldl ?_ _ ?_
    | split

/-- `State.cleanCache` keeps. -/
theorem State.cleanCache_keeps {s0 : State} (s : State) (c : Nat) (h : Keeps s0 s) : Keeps s0 (State.cleanCache s c) := by
  unfold State.cleanCache
  repeat' first
    | intro _
    | with_reducible assumption
    | with_reducible apply State.writeBack_keeps
    | with_reducible apply State.setCl_keeps
    | extract_lets +onlyGivenNames t
    | with_reducible refine keeps_foldl ?_ _ ?_

/-- `State.dropLines` keeps. -/
theorem State.dropLines_keeps {s0 : State} (s : State) (c : Nat) (sel : CacheLine → Bool) (h : Keeps s0 s) : Keeps s0 (State.dropLines s c sel) := by
  unfold State.dropLines
  repeat' first
    | intro _
    | with_reducible assumption
    | with_reducible apply State.setSlice_keeps
    | with_reducible apply State.setCl_keeps
    | extract_lets +onlyGivenNames t
    | with_reducible refine keeps_foldl ?_ _ ?_

/-- `State.flushCache` keeps. -/
theorem State.flushCache_keeps {s0 : State} (s : State) (c : Nat) (h : Keeps s0 s) : Keeps s0 (State.flushCache s c) := by
  unfold State.flushCache
  repeat' first
    | with_reducible assumption
    | with_reducible apply State.dropLines_keeps
    | with_reducible apply State.cleanCache_keeps

/-- `State.setFence` keeps. -/
theorem State.setFence_keeps {s0 : State} (s : State) (u : Nat) (h : Keeps s0 s) : Keeps s0 (State.setFence s u) := by
  unfold State.setFence
  repeat' first
    | with_reducible assumption
    | with_reducible apply State.setUnit_keeps
    | with_reducible apply State.fenceCl_keeps
    | (extract_lets +onlyGivenNames t; (with_reducible refine keeps_cut (s0 := s0) (t := t) ?_ ?_); rotate_left; intro ht; (try clear_value t); rotate_left; subst t)
    | extract_lets +onlyGivenNames t
    | split

/-- `State.clearFence` keeps. -/
theorem State.clearFence_keeps {s0 : State} (s : State) (u : Nat) (h : Keeps s0 s) : Keeps s0 (State.clearFence s u) := by
  unfold State.clearFence
  repeat' first
    | with_reducible assumption
    | with_reducible apply State.setUnit_keeps
    | with_reducible apply State.unfenceCl_keeps
    | (extract_lets +onlyGivenNames t; (with_reducible refine keeps_cut (s0 := s0) (t := t) ?_ ?_); rotate_left; intro ht; (try clear_value t); rotate_left; subst t)
    | extract_lets +onlyGivenNames t
    | split

/-- `State.unitTo` keeps. -/
theorem State.unitTo_keeps {s0 : State} (s : State) (u : Nat) (st : UnitState) (h : Keeps s0 s) : Keeps s0 (State.unitTo s u st) := by
  unfold State.unitTo
  repeat' first
    | with_reducible assumption
    | with_reducible apply State.setUnit_keeps
    | with_reducible apply State.err_keeps
    | with_reducible apply State.event_keeps

/-- `State.setLane` keeps. -/
theorem State.setLane_keeps {s0 : State} (s : State) (l : Nat) (x : LaneSt) (h : Keeps s0 s) : Keeps s0 (State.setLane s l x) := by
  unfold State.setLane
  repeat' first
    | extract_lets +onlyGivenNames t
    | ((with_reducible refine keeps_of_mk ?_); (with_reducible refine keeps_of ?_); with_reducible assumption)

/-- `State.drain` keeps. -/
theorem State.drain_keeps {s0 : State} (s : State) (u : Nat) (goal : LaneState) (h : Keeps s0 s) : Keeps s0 (State.drain s u goal) := by
  unfold State.drain
  repeat' first
    | with_reducible assumption
    | with_reducible apply State.setSlice_keeps
    | with_reducible apply State.setLane_keeps
    | extract_lets +onlyGivenNames t
    | split

/-- `State.setDom` keeps. -/
theorem State.setDom_keeps {s0 : State} (s : State) (k : Nat) (x : SlotPwr) (h : Keeps s0 s) : Keeps s0 (State.setDom s k x) := by
  unfold State.setDom
  repeat' first
    | extract_lets +onlyGivenNames t
    | ((with_reducible refine keeps_of_mk ?_); (with_reducible refine keeps_of ?_); with_reducible assumption)

/-- `State.unitLeave` keeps. -/
theorem State.unitLeave_keeps {s0 : State} (s : State) (u : Nat) (st : UnitState) (h : Keeps s0 s) : Keeps s0 (State.unitLeave s u st) := by
  unfold State.unitLeave
  repeat' first
    | with_reducible assumption
    | with_reducible apply State.setFence_keeps
    | with_reducible apply State.unitTo_keeps
    | with_reducible apply State.drain_keeps
    | with_reducible apply State.setDom_keeps
    | (extract_lets +onlyGivenNames t; (with_reducible refine keeps_cut (s0 := s0) (t := t) ?_ ?_); rotate_left; intro ht; (try clear_value t); rotate_left; subst t)
    | extract_lets +onlyGivenNames t
    | split

/-- `State.unitJoin` keeps. -/
theorem State.unitJoin_keeps {s0 : State} (s : State) (u : Nat) (h : Keeps s0 s) : Keeps s0 (State.unitJoin s u) := by
  unfold State.unitJoin
  repeat' first
    | with_reducible assumption
    | with_reducible apply State.unitTo_keeps
    | with_reducible apply State.setSlice_keeps
    | with_reducible apply State.clearFence_keeps
    | extract_lets +onlyGivenNames t
    | split

/-- `State.retireUnit` keeps. -/
theorem State.retireUnit_keeps {s0 : State} (s : State) (u : Nat) (cause : Nat) (h : Keeps s0 s) : Keeps s0 (State.retireUnit s u cause) := by
  unfold State.retireUnit
  repeat' first
    | with_reducible assumption
    | with_reducible apply State.setUnit_keeps
    | with_reducible apply State.unitLeave_keeps
    | (extract_lets +onlyGivenNames t; (with_reducible refine keeps_cut (s0 := s0) (t := t) ?_ ?_); rotate_left; intro ht; (try clear_value t); rotate_left; subst t)
    | extract_lets +onlyGivenNames t
    | ((with_reducible refine keeps_of_mk ?_); (with_reducible refine keeps_of ?_); with_reducible assumption)
    | split

/-- `State.history` keeps. -/
theorem State.history_keeps {s0 : State} (s : State) (unit : Nat) (event : Nat) (h : Keeps s0 s) : Keeps s0 (State.history s unit event).1:= by
  unfold State.history
  repeat' first
    | extract_lets +onlyGivenNames t
    | ((with_reducible refine keeps_of_mk ?_); (with_reducible refine keeps_of ?_); with_reducible assumption)

/-- `State.repairEntry` keeps. -/
theorem State.repairEntry_keeps {s0 : State} (s : State) (array : Nat) (row : Nat) (cause : Nat) (h : Keeps s0 s) : Keeps s0 (State.repairEntry s array row cause) := by
  unfold State.repairEntry
  repeat' first
    | with_reducible assumption
    | with_reducible apply State.retireUnit_keeps
    | with_reducible apply State.err_keeps
    | with_reducible apply State.history_keeps
    | (extract_lets +onlyGivenNames t; (with_reducible refine keeps_cut (s0 := s0) (t := t) ?_ ?_); rotate_left; intro ht; (try clear_value t); rotate_left; subst t)
    | extract_lets +onlyGivenNames t
    | ((with_reducible refine keeps_of_mk ?_); (with_reducible refine keeps_of ?_); with_reducible assumption)
    | dsimp -zeta only
    | split

/-- `State.wordEvent` keeps. -/
theorem State.wordEvent_keeps {s0 : State} (s : State) (a : Nat) (event : Nat) (h : Keeps s0 s) : Keeps s0 (State.wordEvent s a event).1:= by
  unfold State.wordEvent
  repeat' first
    | with_reducible assumption
    | with_reducible apply State.history_keeps

/-- `State.countEcc` keeps. -/
theorem State.countEcc_keeps {s0 : State} (s : State) (a : Nat) (ue : Bool) (h : Keeps s0 s) : Keeps s0 (State.countEcc s a ue) := by
  unfold State.countEcc
  repeat' first
    | with_reducible assumption
    | with_reducible apply State.setStack_keeps
    | extract_lets +onlyGivenNames t
    | split

/-- `State.eccQuiet` keeps. -/
theorem State.eccQuiet_keeps {s0 : State} (s : State) (a : Nat) (e : Ecc) (h : Keeps s0 s) : Keeps s0 (State.eccQuiet s a e) := by
  unfold State.eccQuiet
  repeat' first
    | with_reducible assumption
    | (simp only [keeps_mk]; with_reducible refine keeps_mem ?_ id tabPut_wf)
    | with_reducible apply State.countEcc_keeps
    | with_reducible apply State.wordEvent_keeps
    | with_reducible apply State.repairEntry_keeps
    | (extract_lets +onlyGivenNames t; (with_reducible refine keeps_cut (s0 := s0) (t := t) ?_ ?_); rotate_left; intro ht; (try clear_value t); rotate_left; subst t)
    | extract_lets +onlyGivenNames t
    | dsimp -zeta only
    | split

/-- `State.ecc` keeps. -/
theorem State.ecc_keeps {s0 : State} (s : State) (a : Nat) (e : Ecc) (h : Keeps s0 s) : Keeps s0 (State.ecc s a e) := by
  unfold State.ecc
  repeat' first
    | with_reducible assumption
    | with_reducible apply State.eccQuiet_keeps
    | with_reducible apply State.notice_keeps
    | (extract_lets +onlyGivenNames t; (with_reducible refine keeps_cut (s0 := s0) (t := t) ?_ ?_); rotate_left; intro ht; (try clear_value t); rotate_left; subst t)
    | split

/-- `State.queueFrame` keeps. -/
theorem State.queueFrame_keeps {s0 : State} (s : State) (lane : Nat) (dest : DevId) (p : Packet) (h : Keeps s0 s) : Keeps s0 (State.queueFrame s lane dest p) := by
  unfold State.queueFrame
  repeat' first
    | extract_lets +onlyGivenNames t
    | ((with_reducible refine keeps_of_mk ?_); (with_reducible refine keeps_of ?_); with_reducible assumption)

/-- `State.setSend` keeps. -/
theorem State.setSend_keeps {s0 : State} (s : State) (k : Nat) (x : SendCtx) (h : Keeps s0 s) : Keeps s0 (State.setSend s k x) := by
  unfold State.setSend
  repeat' first
    | extract_lets +onlyGivenNames t
    | ((with_reducible refine keeps_of_mk ?_); (with_reducible refine keeps_of ?_); with_reducible assumption)

/-- `State.pump` keeps. -/
theorem State.pump_keeps {s0 : State} (s : State) (k : Nat) (x1 : Nat) (h : Keeps s0 s) : Keeps s0 (State.pump s k x1) := by
  induction x1 generalizing s
  · exact h
  rename_i ih
  simp only [State.pump]
  repeat' first
    | with_reducible assumption
    | with_reducible apply ih
    | with_reducible apply State.queueFrame_keeps
    | with_reducible apply State.setSend_keeps
    | split

/-- `State.sendPkt` keeps. -/
theorem State.sendPkt_keeps {s0 : State} (s : State) (control : Bool) (dest : DevId) (opid : Nat) (p : Packet) (h : Keeps s0 s) : Keeps s0 (State.sendPkt s control dest opid p) := by
  unfold State.sendPkt
  repeat' first
    | with_reducible assumption
    | with_reducible apply State.pump_keeps
    | with_reducible apply State.setSend_keeps
    | (extract_lets +onlyGivenNames t; (with_reducible refine keeps_cut (s0 := s0) (t := t) ?_ ?_); rotate_left; intro ht; (try clear_value t); rotate_left; subst t)
    | extract_lets +onlyGivenNames t
    | ((with_reducible refine keeps_of_mk ?_); (with_reducible refine keeps_of ?_); with_reducible assumption)
    | split

/-- `State.sendOp` keeps. -/
theorem State.sendOp_keeps {s0 : State} (s : State) (control : Bool) (dest : DevId) (origin : Origin) (ret : Nat) (pkts : List Packet) (h : Keeps s0 s) : Keeps s0 (State.sendOp s control dest origin ret pkts) := by
  unfold State.sendOp
  repeat' first
    | intro _
    | with_reducible assumption
    | with_reducible apply State.sendPkt_keeps
    | (extract_lets +onlyGivenNames t; (with_reducible refine keeps_cut (s0 := s0) (t := t) ?_ ?_); rotate_left; intro ht; (try clear_value t); rotate_left; subst t)
    | extract_lets +onlyGivenNames t
    | ((with_reducible refine keeps_of_mk ?_); (with_reducible refine keeps_of ?_); with_reducible assumption)
    | with_reducible refine keeps_foldl ?_ _ ?_

/-- `State.answer` keeps. -/
theorem State.answer_keeps {s0 : State} (s : State) (dest : DevId) (aux : Nat) (pkts : List Packet) (h : Keeps s0 s) : Keeps s0 (State.answer s dest aux pkts) := by
  unfold State.answer
  repeat' first
    | intro _
    | with_reducible assumption
    | with_reducible apply State.sendPkt_keeps
    | (extract_lets +onlyGivenNames t; (with_reducible refine keeps_cut (s0 := s0) (t := t) ?_ ?_); rotate_left; intro ht; (try clear_value t); rotate_left; subst t)
    | extract_lets +onlyGivenNames t
    | ((with_reducible refine keeps_of_mk ?_); (with_reducible refine keeps_of ?_); with_reducible assumption)
    | with_reducible refine keeps_foldl ?_ _ ?_

/-- `execNop` keeps. -/
theorem execNop_keeps {s0 : State} (c : BitVec 8) (bits : BitVec 120) (s : State) (h : Keeps s0 s) : KeepsRes s0 (execNop c bits s) := by
  unfold execNop
  repeat' first
    | intro _
    | with_reducible assumption
    | with_reducible apply State.issue_keeps
    | with_reducible apply State.setCl_keeps
    | with_reducible apply State.illegal_keeps
    | extract_lets +onlyGivenNames t
    | split

/-- `execJump` keeps. -/
theorem execJump_keeps {s0 : State} (c : BitVec 8) (bits : BitVec 120) (s : State) (h : Keeps s0 s) : KeepsRes s0 (execJump c bits s) := by
  unfold execJump
  repeat' first
    | intro _
    | with_reducible assumption
    | with_reducible apply State.issue_keeps
    | with_reducible apply State.illegal_keeps
    | with_reducible apply State.ifault_keeps
    | with_reducible apply State.setCl_keeps
    | extract_lets +onlyGivenNames t
    | split
    | (clear_value t; split)

/-- `State.branch` keeps. -/
theorem State.branch_keeps {s0 : State} (s : State) (c : Nat) (k : Cluster) (taken : Bool) (off : Int) (h : Keeps s0 s) : Keeps s0 (State.branch s c k taken off) := by
  unfold State.branch
  repeat' first
    | with_reducible assumption
    | with_reducible apply State.ifault_keeps
    | with_reducible apply State.setCl_keeps
    | split

/-- `execBr` keeps. -/
theorem execBr_keeps {s0 : State} (c : BitVec 8) (bits : BitVec 120) (s : State) (h : Keeps s0 s) : KeepsRes s0 (execBr c bits s) := by
  unfold execBr
  repeat' first
    | intro _
    | with_reducible assumption
    | with_reducible apply State.issue_keeps
    | with_reducible apply State.branch_keeps
    | with_reducible apply State.illegal_keeps
    | extract_lets +onlyGivenNames t
    | split

/-- `execLoop` keeps. -/
theorem execLoop_keeps {s0 : State} (c : BitVec 8) (bits : BitVec 120) (s : State) (h : Keeps s0 s) : KeepsRes s0 (execLoop c bits s) := by
  unfold execLoop
  repeat' first
    | intro _
    | with_reducible assumption
    | with_reducible apply State.issue_keeps
    | with_reducible apply State.illegal_keeps
    | with_reducible apply State.ifault_keeps
    | with_reducible apply State.branch_keeps
    | extract_lets +onlyGivenNames t
    | split

/-- `State.reseed` keeps. -/
theorem State.reseed_keeps {s0 : State} (s : State) (c : Nat) (h : Keeps s0 s) : Keeps s0 (State.reseed s c) := by
  unfold State.reseed
  repeat' first
    | with_reducible assumption
    | with_reducible apply State.modCl_keeps
    | split

/-- `State.fillRt` keeps. -/
theorem State.fillRt_keeps {s0 : State} (s : State) (c : Nat) (n : Nat) (off : Nat) (ch : Nat) (h : Keeps s0 s) : Keeps s0 (State.fillRt s c n off ch) := by
  unfold State.fillRt
  repeat' first
    | with_reducible assumption
    | with_reducible apply State.modCl_keeps

/-- `State.reloadRt.stale` keeps. -/
theorem State.reloadRt.stale_keeps {s0 : State} (s : State) (c : Nat) (n : Nat) (h : Keeps s0 s) : Keeps s0 (State.reloadRt.stale s c n) := by
  unfold State.reloadRt.stale
  repeat' first
    | with_reducible assumption
    | with_reducible apply State.setCl_keeps
    | with_reducible apply State.err_keeps
    | (extract_lets +onlyGivenNames t; (with_reducible refine keeps_cut (s0 := s0) (t := t) ?_ ?_); rotate_left; intro ht; (try clear_value t); rotate_left; subst t)
    | extract_lets +onlyGivenNames t
    | split

/-- `State.reloadRt` keeps. -/
theorem State.reloadRt_keeps {s0 : State} (s : State) (c : Nat) (n : Nat) (h : Keeps s0 s) : Keeps s0 (State.reloadRt s c n) := by
  unfold State.reloadRt
  repeat' first
    | with_reducible assumption
    | with_reducible apply State.fillRt_keeps
    | with_reducible apply State.reloadRt.stale_keeps
    | extract_lets +onlyGivenNames t
    | split

/-- `State.beginStep` keeps. -/
theorem State.beginStep_keeps {s0 : State} (s : State) (c : Nat) (h : Keeps s0 s) : Keeps s0 (State.beginStep s c) := by
  unfold State.beginStep
  repeat' first
    | intro _
    | with_reducible assumption
    | with_reducible apply State.reseed_keeps
    | with_reducible apply State.reloadRt_keeps
    | with_reducible apply State.modCl_keeps
    | extract_lets +onlyGivenNames t
    | with_reducible refine keeps_foldl ?_ _ ?_
    | split

/-- `State.tryStep` keeps. -/
theorem State.tryStep_keeps {s0 : State} (s : State) (c : Nat) (h : Keeps s0 s) : Keeps s0 (State.tryStep s c) := by
  unfold State.tryStep
  repeat' first
    | with_reducible assumption
    | with_reducible apply State.beginStep_keeps
    | split

/-- `State.waitDone` keeps. -/
theorem State.waitDone_keeps {s0 : State} (s : State) (c : Nat) (ev : Nat) (thr : Nat) (consume : Bool) (h : Keeps s0 s) : Keeps s0 (State.waitDone s c ev thr consume) := by
  unfold State.waitDone
  repeat' first
    | with_reducible assumption
    | with_reducible apply State.tryStep_keeps
    | with_reducible apply State.setCl_keeps
    | extract_lets +onlyGivenNames t
    | split

/-- `execWait` keeps. -/
theorem execWait_keeps {s0 : State} (c : BitVec 8) (bits : BitVec 120) (s : State) (h : Keeps s0 s) : KeepsRes s0 (execWait c bits s) := by
  unfold execWait
  repeat' first
    | intro _
    | with_reducible assumption
    | with_reducible apply State.issue_keeps
    | with_reducible apply State.illegal_keeps
    | with_reducible apply State.waitDone_keeps
    | with_reducible apply State.setCl_keeps
    | extract_lets +onlyGivenNames t
    | split

/-- `execWaitSatisfied` keeps. -/
theorem execWaitSatisfied_keeps {s0 : State} (c : BitVec 8) (s : State) (h : Keeps s0 s) : KeepsRes s0 (execWaitSatisfied c s) := by
  unfold execWaitSatisfied
  repeat' first
    | with_reducible assumption
    | with_reducible apply State.waitDone_keeps
    | extract_lets +onlyGivenNames t
    | with_reducible refine keepsRes_next ?_
    | split

/-- `execWaitTimeout` keeps. -/
theorem execWaitTimeout_keeps {s0 : State} (c : BitVec 8) (s : State) (h : Keeps s0 s) : KeepsRes s0 (execWaitTimeout c s) := by
  unfold execWaitTimeout
  repeat' first
    | with_reducible assumption
    | with_reducible apply State.ifault_keeps
    | extract_lets +onlyGivenNames t
    | with_reducible refine keepsRes_next ?_
    | split

/-- `State.sendSignal` keeps. -/
theorem State.sendSignal_keeps {s0 : State} (s : State) (c : Nat) (w : Nat) (h : Keeps s0 s) : Keeps s0 (State.sendSignal s c w) := by
  unfold State.sendSignal
  repeat' first
    | with_reducible assumption
    | with_reducible apply State.setCl_keeps
    | with_reducible apply State.arrive_keeps
    | with_reducible apply State.sendOp_keeps
    | (extract_lets +onlyGivenNames t; (with_reducible refine keeps_cut (s0 := s0) (t := t) ?_ ?_); rotate_left; intro ht; (try clear_value t); rotate_left; subst t)
    | extract_lets +onlyGivenNames t
    | split

/-- `execSignal` keeps. -/
theorem execSignal_keeps {s0 : State} (c : BitVec 8) (bits : BitVec 120) (s : State) (h : Keeps s0 s) : KeepsRes s0 (execSignal c bits s) := by
  unfold execSignal
  repeat' first
    | intro _
    | with_reducible assumption
    | with_reducible apply State.issue_keeps
    | with_reducible apply State.illegal_keeps
    | with_reducible apply State.ifault_keeps
    | with_reducible apply State.cleanCache_keeps
    | with_reducible apply State.sendSignal_keeps
    | with_reducible apply State.modCl_keeps
    | (extract_lets +onlyGivenNames t; (with_reducible refine keeps_cut (s0 := s0) (t := t) ?_ ?_); rotate_left; intro ht; (try clear_value t); rotate_left; subst t)
    | extract_lets +onlyGivenNames t
    | split

/-- `execHalt` keeps. -/
theorem execHalt_keeps {s0 : State} (c : BitVec 8) (bits : BitVec 120) (s : State) (h : Keeps s0 s) : KeepsRes s0 (execHalt c bits s) := by
  unfold execHalt
  repeat' first
    | intro _
    | with_reducible assumption
    | with_reducible apply State.issue_keeps
    | with_reducible apply State.setCl_keeps
    | with_reducible apply State.illegal_keeps
    | extract_lets +onlyGivenNames t
    | split

/-- `State.scalar` keeps. -/
theorem State.scalar_keeps {s0 : State} (s : State) (c : Nat) (k : Cluster) (rd : Nat) (v : Option Nat) (ok : Bool) (h : Keeps s0 s) : Keeps s0 (State.scalar s c k rd v ok) := by
  unfold State.scalar
  repeat' first
    | with_reducible assumption
    | with_reducible apply State.setCl_keeps
    | with_reducible apply State.illegal_keeps
    | split

/-- `execAlu` keeps. -/
theorem execAlu_keeps {s0 : State} (c : BitVec 8) (bits : BitVec 120) (s : State) (h : Keeps s0 s) : KeepsRes s0 (execAlu c bits s) := by
  unfold execAlu
  repeat' first
    | intro _
    | with_reducible assumption
    | with_reducible apply State.issue_keeps
    | with_reducible apply State.scalar_keeps

/-- `execAlui` keeps. -/
theorem execAlui_keeps {s0 : State} (c : BitVec 8) (bits : BitVec 120) (s : State) (h : Keeps s0 s) : KeepsRes s0 (execAlui c bits s) := by
  unfold execAlui
  repeat' first
    | intro _
    | with_reducible assumption
    | with_reducible apply State.issue_keeps
    | with_reducible apply State.scalar_keeps

/-- `execEvset` keeps. -/
theorem execEvset_keeps {s0 : State} (c : BitVec 8) (bits : BitVec 120) (s : State) (h : Keeps s0 s) : KeepsRes s0 (execEvset c bits s) := by
  unfold execEvset
  repeat' first
    | intro _
    | with_reducible assumption
    | with_reducible apply State.issue_keeps
    | with_reducible apply State.setCl_keeps
    | with_reducible apply State.illegal_keeps
    | extract_lets +onlyGivenNames t
    | split

/-- `execEvsub` keeps. -/
theorem execEvsub_keeps {s0 : State} (c : BitVec 8) (bits : BitVec 120) (s : State) (h : Keeps s0 s) : KeepsRes s0 (execEvsub c bits s) := by
  unfold execEvsub
  repeat' first
    | intro _
    | with_reducible assumption
    | with_reducible apply State.issue_keeps
    | with_reducible apply State.setCl_keeps
    | with_reducible apply State.illegal_keeps
    | extract_lets +onlyGivenNames t
    | split

/-- `execEvrd` keeps. -/
theorem execEvrd_keeps {s0 : State} (c : BitVec 8) (bits : BitVec 120) (s : State) (h : Keeps s0 s) : KeepsRes s0 (execEvrd c bits s) := by
  unfold execEvrd
  repeat' first
    | intro _
    | with_reducible assumption
    | with_reducible apply State.issue_keeps
    | with_reducible apply State.setCl_keeps
    | with_reducible apply State.illegal_keeps
    | extract_lets +onlyGivenNames t
    | split

/-- `State.acquire` keeps. -/
theorem State.acquire_keeps {s0 : State} (s : State) (c : Nat) (qmask : Nat) (h : Keeps s0 s) : Keeps s0 (State.acquire s c qmask) := by
  unfold State.acquire
  repeat' first
    | with_reducible assumption
    | with_reducible apply State.dropLines_keeps
    | with_reducible apply State.modCl_keeps

/-- `State.fenceDone` keeps. -/
theorem State.fenceDone_keeps {s0 : State} (s : State) (c : Nat) (mask : Nat) (h : Keeps s0 s) : Keeps s0 (State.fenceDone s c mask) := by
  unfold State.fenceDone
  repeat' first
    | with_reducible assumption
    | with_reducible apply State.modCl_keeps
    | with_reducible apply State.acquire_keeps
    | extract_lets +onlyGivenNames t
    | split

/-- `execFence` keeps. -/
theorem execFence_keeps {s0 : State} (c : BitVec 8) (bits : BitVec 120) (s : State) (h : Keeps s0 s) : KeepsRes s0 (execFence c bits s) := by
  unfold execFence
  repeat' first
    | intro _
    | with_reducible assumption
    | with_reducible apply State.issue_keeps
    | with_reducible apply State.illegal_keeps
    | with_reducible apply State.cleanCache_keeps
    | with_reducible apply State.fenceDone_keeps
    | with_reducible apply State.modCl_keeps
    | (extract_lets +onlyGivenNames t; (with_reducible refine keeps_cut (s0 := s0) (t := t) ?_ ?_); rotate_left; intro ht; (try clear_value t); rotate_left; subst t)
    | extract_lets +onlyGivenNames t
    | split

/-- `execFenceComplete` keeps. -/
theorem execFenceComplete_keeps {s0 : State} (c : BitVec 8) (s : State) (h : Keeps s0 s) : KeepsRes s0 (execFenceComplete c s) := by
  unfold execFenceComplete
  repeat' first
    | with_reducible assumption
    | with_reducible apply State.fenceDone_keeps
    | extract_lets +onlyGivenNames t
    | with_reducible refine keepsRes_next ?_
    | split

/-- `execUndecodableInstruction` keeps. -/
theorem execUndecodableInstruction_keeps {s0 : State} (c : BitVec 8) (word : Sys2Proof.W128) (poisoned : Bool) (s : State) (h : Keeps s0 s) : KeepsRes s0 (execUndecodableInstruction c word poisoned s) := by
  unfold execUndecodableInstruction
  repeat' first
    | intro _
    | with_reducible assumption
    | with_reducible apply State.issue_keeps
    | with_reducible apply State.err_keeps
    | with_reducible apply State.ifault_keeps
    | with_reducible apply State.illegal_keeps
    | extract_lets +onlyGivenNames t
    | split

/-- `State.deviceWrite` keeps. -/
theorem State.deviceWrite_keeps {s0 : State} (s : State) (a : Nat) (bs : List Sys2Proof.Byte) (p : Bool) (cls : Nat) (evAdd : Bool) (h : Keeps s0 s) : KeepsSum s0 (State.deviceWrite s a bs p cls evAdd) := by
  unfold State.deviceWrite
  repeat' first
    | intro _
    | with_reducible assumption
    | with_reducible apply State.store_keeps
    | with_reducible apply State.arrive_keeps
    | extract_lets +onlyGivenNames t
    | with_reducible refine keeps_foldl ?_ _ ?_
    | with_reducible refine keepsSum_inl ?_
    | with_reducible exact keepsSum_inr _ _
    | split

/-- `State.launchRead` keeps. -/
theorem State.launchRead_keeps {s0 : State} (s : State) (loc : Option (DevId × Nat)) (n : Nat) (cls : Nat) (remote : Option (List Sys2Proof.Byte)) (h : Keeps s0 s) : KeepsOptP s0 (State.launchRead s loc n cls remote) := by
  unfold State.launchRead
  repeat' first
    | with_reducible assumption
    | with_reducible apply State.load_keeps
    | with_reducible refine keepsOptP_some ?_
    | with_reducible exact keepsOptP_none _
    | dsimp -zeta only
    | split

/-- `State.launchTensor` keeps. -/
theorem State.launchTensor_keeps {s0 : State} (s : State) (c : Nat) (d : StreamDesc) (remote : Option (List Sys2Proof.Byte)) (h : Keeps s0 s) : KeepsOptP s0 (State.launchTensor s c d remote) := by
  unfold State.launchTensor
  dsimp only
  repeat' first
    | with_reducible assumption
    | with_reducible apply State.launchRead_keeps
    | extract_lets +onlyGivenNames t
    | with_reducible refine keepsOptP_some ?_
    | with_reducible exact keepsOptP_none _
    | split
    | with_reducible refine of_some_pair (by assumption) ?_

/-- `State.launch` keeps. -/
theorem State.launch_keeps {s0 : State} (s : State) (c : Nat) (q : Nat) (remote : Option (List Sys2Proof.Byte)) (h : Keeps s0 s) : Keeps s0 (State.launch s c q remote) := by
  unfold State.launch
  repeat' first
    | with_reducible assumption
    | with_reducible apply State.ifault_keeps
    | with_reducible apply State.modCl_keeps
    | with_reducible apply State.launchTensor_keeps
    | (extract_lets +onlyGivenNames t; have f : State → _ := t; clear f; subst t)
    | extract_lets +onlyGivenNames t
    | dsimp -zeta only
    | split
    | with_reducible refine of_some_pair (by assumption) ?_

/-- `execQcfg` keeps. -/
theorem execQcfg_keeps {s0 : State} (c : BitVec 8) (bits : BitVec 120) (remote : Option (List Sys2Proof.Byte)) (s : State) (h : Keeps s0 s) : KeepsRes s0 (execQcfg c bits remote s) := by
  unfold execQcfg
  repeat' first
    | intro _
    | with_reducible assumption
    | with_reducible apply State.issue_keeps
    | with_reducible apply State.illegal_keeps
    | with_reducible apply State.ifault_keeps
    | with_reducible apply State.load_keeps
    | with_reducible apply State.setCl_keeps
    | with_reducible apply State.launch_keeps
    | with_reducible apply State.modCl_keeps
    | (extract_lets +onlyGivenNames t; (with_reducible refine keeps_cut (s0 := s0) (t := t) ?_ ?_); rotate_left; intro ht; (try clear_value t); rotate_left; subst t)
    | extract_lets +onlyGivenNames t
    | dsimp -zeta only
    | split

/-- `execQgo` keeps. -/
theorem execQgo_keeps {s0 : State} (c : BitVec 8) (bits : BitVec 120) (remote : Option (List Sys2Proof.Byte)) (s : State) (h : Keeps s0 s) : KeepsRes s0 (execQgo c bits remote s) := by
  unfold execQgo
  repeat' first
    | intro _
    | with_reducible assumption
    | with_reducible apply State.issue_keeps
    | with_reducible apply State.illegal_keeps
    | with_reducible apply State.launch_keeps
    | with_reducible apply State.ifault_keeps
    | extract_lets +onlyGivenNames t
    | split

/-- `State.slotDone` keeps. -/
theorem State.slotDone_keeps {s0 : State} (s : State) (c : Nat) (q : Nat) (x : Slot) (h : Keeps s0 s) : Keeps s0 (State.slotDone s c q x) := by
  unfold State.slotDone
  repeat' first
    | with_reducible assumption
    | with_reducible apply State.modCl_keeps
    | with_reducible apply State.arriveIf_keeps

/-- `State.endIfQuiet` keeps. -/
theorem State.endIfQuiet_keeps {s0 : State} (s : State) (c : Nat) (q : Nat) (h : Keeps s0 s) : Keeps s0 (State.endIfQuiet s c q) := by
  unfold State.endIfQuiet
  repeat' first
    | with_reducible assumption
    | with_reducible apply State.slotDone_keeps
    | extract_lets +onlyGivenNames t
    | split

/-- `execQend` keeps. -/
theorem execQend_keeps {s0 : State} (c : BitVec 8) (bits : BitVec 120) (s : State) (h : Keeps s0 s) : KeepsRes s0 (execQend c bits s) := by
  unfold execQend
  repeat' first
    | intro _
    | with_reducible assumption
    | with_reducible apply State.issue_keeps
    | with_reducible apply State.illegal_keeps
    | with_reducible apply State.endIfQuiet_keeps
    | with_reducible apply State.setCl_keeps
    | extract_lets +onlyGivenNames t
    | split

/-- `State.itemDone` keeps. -/
theorem State.itemDone_keeps {s0 : State} (s : State) (c : Nat) (q : Nat) (x : Slot) (h : Keeps s0 s) : Keeps s0 (State.itemDone s c q x) := by
  unfold State.itemDone
  repeat' first
    | with_reducible assumption
    | with_reducible apply State.arriveIf_keeps
    | with_reducible apply State.modCl_keeps
    | with_reducible apply State.endIfQuiet_keeps
    | with_reducible apply State.slotDone_keeps
    | (extract_lets +onlyGivenNames t; (with_reducible refine keeps_cut (s0 := s0) (t := t) ?_ ?_); rotate_left; intro ht; (try clear_value t); rotate_left; subst t)
    | extract_lets +onlyGivenNames t
    | split

/-- `State.slotFail` keeps. -/
theorem State.slotFail_keeps {s0 : State} (s : State) (c : Nat) (q : Nat) (a : Nat) (h : Keeps s0 s) : Keeps s0 (State.slotFail s c q a) := by
  unfold State.slotFail
  repeat' first
    | with_reducible assumption
    | with_reducible apply State.ifault_keeps
    | with_reducible apply State.modCl_keeps

/-- `State.storeRequest` keeps. -/
theorem State.storeRequest_keeps {s0 : State} (s : State) (c : Nat) (q : Nat) (x : Slot) (h : Keeps s0 s) : Keeps s0 (State.storeRequest s c q x) := by
  unfold State.storeRequest
  repeat' first
    | intro _
    | with_reducible assumption
    | with_reducible apply State.slotFail_keeps
    | with_reducible apply State.modCl_keeps
    | with_reducible apply State.devFault_keeps
    | with_reducible apply State.sendOp_keeps
    | extract_lets +onlyGivenNames t
    | with_reducible refine keeps_foldl ?_ _ ?_
    | dsimp -zeta only
    | split
    | (clear_value t; split)
    | (subst t)

/-- `State.loadRequest` keeps. -/
theorem State.loadRequest_keeps {s0 : State} (s : State) (c : Nat) (q : Nat) (x : Slot) (need : Nat) (h : Keeps s0 s) : Keeps s0 (State.loadRequest s c q x need) := by
  unfold State.loadRequest
  repeat' first
    | with_reducible assumption
    | with_reducible apply State.modCl_keeps
    | with_reducible apply State.sendOp_keeps
    | extract_lets +onlyGivenNames t
    | split

/-- `execStreamRequest` keeps. -/
theorem execStreamRequest_keeps {s0 : State} (c : BitVec 8) (q : Fin 12) (s : State) (h : Keeps s0 s) : KeepsRes s0 (execStreamRequest c q s) := by
  unfold execStreamRequest
  repeat' first
    | with_reducible assumption
    | with_reducible apply State.storeRequest_keeps
    | with_reducible apply State.loadRequest_keeps
    | extract_lets +onlyGivenNames t
    | with_reducible refine keepsRes_next ?_
    | split

/-- `State.sideCopy` keeps. -/
theorem State.sideCopy_keeps {s0 : State} (s : State) (c : Nat) (x : Slot) (i : Nat) (seg : List Sys2Proof.Byte) (p : Bool) (h : Keeps s0 s) : KeepsOptP s0 (State.sideCopy s c x i seg p) := by
  unfold State.sideCopy
  repeat' first
    | intro _
    | with_reducible assumption
    | with_reducible apply State.store_keeps
    | (extract_lets +onlyGivenNames t; (with_reducible refine keeps_cut (s0 := s0) (t := t) ?_ ?_); rotate_left; intro ht; (try clear_value t); rotate_left; subst t)
    | extract_lets +onlyGivenNames t
    | with_reducible refine keeps_foldl ?_ _ ?_
    | with_reducible refine keepsOptP_some ?_
    | with_reducible exact keepsOptP_none _
    | split

/-- `State.loadItem` keeps. -/
theorem State.loadItem_keeps {s0 : State} (s : State) (c : Nat) (q : Nat) (i : Nat) (x : Slot) (data : List Sys2Proof.Byte) (ecc : Ecc) (h : Keeps s0 s) : Keeps s0 (State.loadItem s c q i x data ecc) := by
  unfold State.loadItem
  repeat' first
    | with_reducible assumption
    | with_reducible apply State.modCl_keeps
    | with_reducible apply State.touch_keeps
    | with_reducible apply State.eccQuiet_keeps
    | with_reducible apply State.itemDone_keeps
    | with_reducible apply State.store_keeps
    | with_reducible apply State.sideCopy_keeps
    | (extract_lets +onlyGivenNames t; (with_reducible refine keeps_cut (s0 := s0) (t := t) ?_ ?_); rotate_left; intro ht; (try clear_value t); rotate_left; subst t)
    | (extract_lets +onlyGivenNames t; have f : State → _ := t; clear f; subst t)
    | extract_lets +onlyGivenNames t
    | dsimp -zeta only
    | split
    | (clear_value t; split)
    | with_reducible refine of_some_pair (by assumption) ?_
    | (subst t)

/-- `State.storeItem` keeps. -/
theorem State.storeItem_keeps {s0 : State} (s : State) (c : Nat) (q : Nat) (x : Slot) (it : StoreItem) (h : Keeps s0 s) : Keeps s0 (State.storeItem s c q x it) := by
  unfold State.storeItem
  repeat' first
    | intro _
    | with_reducible assumption
    | with_reducible apply State.itemDone_keeps
    | with_reducible apply State.deviceWrite_keeps
    | with_reducible apply State.slotFail_keeps
    | extract_lets +onlyGivenNames t
    | with_reducible refine keepsSum_inl ?_
    | with_reducible refine keepsSum_foldl ?_ _ ?_
    | with_reducible refine of_inl_eq (by assumption) ?_
    | with_reducible exact KeepsSum.imp (by assumption) _ rfl
    | dsimp -zeta only
    | split
    | (subst t)

/-- `execStreamItemComplete` keeps. -/
theorem execStreamItemComplete_keeps {s0 : State} (c : BitVec 8) (q : Fin 12) (i : Nat) (data : List Sys2Proof.Byte) (ecc : Ecc) (s : State) (h : Keeps s0 s) : KeepsRes s0 (execStreamItemComplete c q i data ecc s) := by
  unfold execStreamItemComplete
  repeat' first
    | with_reducible assumption
    | with_reducible apply State.storeItem_keeps
    | with_reducible apply State.itemDone_keeps
    | with_reducible apply State.loadItem_keeps
    | extract_lets +onlyGivenNames t
    | with_reducible refine keepsRes_next ?_
    | split

/-- `execStreamRequestFail` keeps. -/
theorem execStreamRequestFail_keeps {s0 : State} (c : BitVec 8) (q : Fin 12) (i : Nat) (status : BitVec 8) (s : State) (h : Keeps s0 s) : KeepsRes s0 (execStreamRequestFail c q i status s) := by
  unfold execStreamRequestFail
  repeat' first
    | with_reducible assumption
    | with_reducible apply State.slotFail_keeps
    | with_reducible apply State.modCl_keeps
    | (extract_lets +onlyGivenNames t; (with_reducible refine keeps_cut (s0 := s0) (t := t) ?_ ?_); rotate_left; intro ht; (try clear_value t); rotate_left; subst t)
    | extract_lets +onlyGivenNames t
    | ((with_reducible refine keeps_of_mk ?_); (with_reducible refine keeps_of ?_); with_reducible assumption)
    | with_reducible refine keepsRes_next ?_
    | split

/-- `execSlotPaused` keeps. -/
theorem execSlotPaused_keeps {s0 : State} (c : BitVec 8) (q : Fin 12) (s : State) (h : Keeps s0 s) : KeepsRes s0 (execSlotPaused c q s) := by
  unfold execSlotPaused
  repeat' first
    | with_reducible assumption
    | with_reducible apply State.setCl_keeps
    | extract_lets +onlyGivenNames t
    | with_reducible refine keepsRes_next ?_
    | split

/-- `State.correctOne` keeps. -/
theorem State.correctOne_keeps {s0 : State} (s : State) (c : Nat) (m : MmaRun) (h : Keeps s0 s) : Keeps s0 (State.correctOne s c m) := by
  unfold State.correctOne
  repeat' first
    | with_reducible assumption
    | with_reducible apply State.setCl_keeps
    | extract_lets +onlyGivenNames t
    | dsimp -zeta only
    | split

/-- `State.correctTo` keeps. -/
theorem State.correctTo_keeps {s0 : State} (s : State) (c : Nat) (seq : Nat) (n : Nat) (x1 : Nat) (h : Keeps s0 s) : Keeps s0 (State.correctTo s c seq n x1) := by
  induction x1 generalizing s
  · exact h
  rename_i ih
  simp only [State.correctTo]
  repeat' first
    | with_reducible assumption
    | with_reducible apply ih
    | with_reducible apply State.correctOne_keeps
    | split

/-- `State.mmaFault` keeps. -/
theorem State.mmaFault_keeps {s0 : State} (s : State) (c : Nat) (m : MmaRun) (h : Keeps s0 s) : Keeps s0 (State.mmaFault s c m) := by
  unfold State.mmaFault
  repeat' first
    | with_reducible assumption
    | with_reducible apply State.correctTo_keeps
    | with_reducible apply State.modCl_keeps
    | with_reducible apply State.ifault_keeps

/-- `State.advanceMma` keeps. -/
theorem State.advanceMma_keeps {s0 : State} (s : State) (c : Nat) (m : MmaRun) (target : Nat) (force : Bool) (h : Keeps s0 s) : Keeps s0 (State.advanceMma s c m target force) := by
  unfold State.advanceMma
  repeat' first
    | with_reducible assumption
    | with_reducible apply State.setCl_keeps
    | with_reducible apply State.mmaFault_keeps
    | (extract_lets +onlyGivenNames t; (with_reducible refine keeps_cut (s0 := s0) (t := t) ?_ ?_); rotate_left; intro ht; (try clear_value t); rotate_left; subst t)
    | extract_lets +onlyGivenNames t
    | dsimp -zeta only
    | split

/-- `State.runTo` keeps. -/
theorem State.runTo_keeps {s0 : State} (s : State) (c : Nat) (need : Nat × Nat × Nat) (h : Keeps s0 s) : Keeps s0 (State.runTo s c need) := by
  unfold State.runTo
  repeat' first
    | with_reducible assumption
    | with_reducible apply State.correctTo_keeps
    | with_reducible apply State.advanceMma_keeps
    | split

/-- `State.release` keeps. -/
theorem State.release_keeps {s0 : State} (s : State) (c : Nat) (h : Keeps s0 s) : Keeps s0 (State.release s c) := by
  unfold State.release
  repeat' first
    | intro _
    | with_reducible assumption
    | with_reducible apply State.setCl_keeps
    | extract_lets +onlyGivenNames t
    | with_reducible refine keeps_foldl ?_ _ ?_
    | dsimp -zeta only
    | split

/-- `State.startMma` keeps. -/
theorem State.startMma_keeps {s0 : State} (s : State) (c : Nat) (m : MmaRun) (h : Keeps s0 s) : Keeps s0 (State.startMma s c m) := by
  unfold State.startMma
  repeat' first
    | with_reducible assumption
    | with_reducible apply State.mmaFault_keeps
    | with_reducible apply State.release_keeps
    | with_reducible apply State.setCl_keeps
    | extract_lets +onlyGivenNames t
    | dsimp -zeta only
    | split

/-- `State.tryMma` keeps. -/
theorem State.tryMma_keeps {s0 : State} (s : State) (c : Nat) (w : Nat) (h : Keeps s0 s) : KeepsOpt s0 (State.tryMma s c w) := by
  unfold State.tryMma
  repeat' first
    | with_reducible assumption
    | with_reducible apply State.illegal_keeps
    | with_reducible apply State.setCl_keeps
    | extract_lets +onlyGivenNames t
    | with_reducible refine keepsOpt_some ?_
    | with_reducible exact keepsOpt_none _
    | split

/-- `execMmaStart` keeps. -/
theorem execMmaStart_keeps {s0 : State} (c : BitVec 8) (s : State) (h : Keeps s0 s) : KeepsRes s0 (execMmaStart c s) := by
  unfold execMmaStart
  repeat' first
    | with_reducible assumption
    | with_reducible apply State.startMma_keeps
    | with_reducible apply State.advanceMma_keeps
    | (extract_lets +onlyGivenNames t; (with_reducible refine keeps_cut (s0 := s0) (t := t) ?_ ?_); rotate_left; intro ht; (try clear_value t); rotate_left; subst t)
    | extract_lets +onlyGivenNames t
    | with_reducible refine keepsRes_next ?_
    | split

/-- `execRefillVisit` keeps. -/
theorem execRefillVisit_keeps {s0 : State} (c : BitVec 8) (s : State) (h : Keeps s0 s) : KeepsRes s0 (execRefillVisit c s) := by
  unfold execRefillVisit
  repeat' first
    | with_reducible assumption
    | with_reducible apply State.advanceMma_keeps
    | extract_lets +onlyGivenNames t
    | with_reducible refine keepsRes_next ?_
    | split

/-- `execCorrectionCycles` keeps. -/
theorem execCorrectionCycles_keeps {s0 : State} (c : BitVec 8) (s : State) (h : Keeps s0 s) : KeepsRes s0 (execCorrectionCycles c s) := by
  unfold execCorrectionCycles
  repeat' first
    | with_reducible assumption
    | with_reducible apply State.advanceMma_keeps
    | with_reducible apply State.tryStep_keeps
    | with_reducible apply State.correctOne_keeps
    | (extract_lets +onlyGivenNames t; (with_reducible refine keeps_cut (s0 := s0) (t := t) ?_ ?_); rotate_left; intro ht; (try clear_value t); rotate_left; subst t)
    | extract_lets +onlyGivenNames t
    | with_reducible refine keepsRes_next ?_
    | split

/-- `State.refillHalt` keeps. -/
theorem State.refillHalt_keeps {s0 : State} (s : State) (c : Nat) (m : MmaRun) (upto : Nat) (h : Keeps s0 s) : Keeps s0 (State.refillHalt s c m upto) := by
  unfold State.refillHalt
  repeat' first
    | with_reducible assumption
    | with_reducible apply State.err_keeps
    | split

/-- `execMmaComplete` keeps. -/
theorem execMmaComplete_keeps {s0 : State} (c : BitVec 8) (s : State) (h : Keeps s0 s) : KeepsRes s0 (execMmaComplete c s) := by
  unfold execMmaComplete
  repeat' first
    | with_reducible assumption
    | with_reducible apply State.advanceMma_keeps
    | with_reducible apply State.correctTo_keeps
    | with_reducible apply State.refillHalt_keeps
    | with_reducible apply State.tryStep_keeps
    | with_reducible apply State.arriveIf_keeps
    | with_reducible apply State.modCl_keeps
    | (extract_lets +onlyGivenNames t; (with_reducible refine keeps_cut (s0 := s0) (t := t) ?_ ?_); rotate_left; intro ht; (try clear_value t); rotate_left; subst t)
    | extract_lets +onlyGivenNames t
    | with_reducible refine keepsRes_next ?_
    | split

/-- `execMmaProgressStop` keeps. -/
theorem execMmaProgressStop_keeps {s0 : State} (c : BitVec 8) (kp : BitVec 24) (s : State) (h : Keeps s0 s) : KeepsRes s0 (execMmaProgressStop c kp s) := by
  unfold execMmaProgressStop
  repeat' first
    | with_reducible assumption
    | with_reducible apply State.advanceMma_keeps
    | with_reducible apply State.correctTo_keeps
    | with_reducible apply State.refillHalt_keeps
    | with_reducible apply State.modCl_keeps
    | (extract_lets +onlyGivenNames t; (with_reducible refine keeps_cut (s0 := s0) (t := t) ?_ ?_); rotate_left; intro ht; (try clear_value t); rotate_left; subst t)
    | extract_lets +onlyGivenNames t
    | with_reducible refine keepsRes_next ?_
    | dsimp -zeta only
    | split

/-- `State.podCond` keeps. -/
theorem State.podCond_keeps {s0 : State} (s : State) (c : Nat) (f : PodFlags) (addr : Nat) (h : Keeps s0 s) : Keeps s0 (State.podCond s c f addr) := by
  unfold State.podCond
  repeat' first
    | with_reducible assumption
    | with_reducible apply State.setCl_keeps
    | with_reducible apply State.err_keeps
    | (extract_lets +onlyGivenNames t; (with_reducible refine keeps_cut (s0 := s0) (t := t) ?_ ?_); rotate_left; intro ht; (try clear_value t); rotate_left; subst t)
    | extract_lets +onlyGivenNames t
    | split

/-- `State.clDropped` keeps. -/
theorem State.clDropped_keeps {s0 : State} (s : State) (c : Nat) (reg : Nat) (cap : Nat) (h : Keeps s0 s) : Keeps s0 (State.clDropped s c reg cap) := by
  unfold State.clDropped
  repeat' first
    | with_reducible assumption
    | with_reducible apply State.setCl_keeps
    | with_reducible apply State.err_keeps
    | (extract_lets +onlyGivenNames t; (with_reducible refine keeps_cut (s0 := s0) (t := t) ?_ ?_); rotate_left; intro ht; (try clear_value t); rotate_left; subst t)
    | extract_lets +onlyGivenNames t
    | split

/-- `State.flagCl` keeps. -/
theorem State.flagCl_keeps {s0 : State} (s : State) (c : Nat) (f : Flags) (h : Keeps s0 s) : Keeps s0 (State.flagCl s c f) := by
  unfold State.flagCl
  repeat' first
    | with_reducible assumption
    | with_reducible apply State.modCl_keeps

/-- `State.lsFault` keeps. -/
theorem State.lsFault_keeps {s0 : State} (s : State) (c : Nat) (off : Nat) (h : Keeps s0 s) : Keeps s0 (State.lsFault s c off) := by
  unfold State.lsFault
  repeat' first
    | with_reducible assumption
    | with_reducible apply State.ifault_keeps

/-- `State.readGrid` keeps. -/
theorem State.readGrid_keeps {s0 : State} (s : State) (c : Nat) (x : Slot) (remote : Option (List Sys2Proof.Byte)) (h : Keeps s0 s) : KeepsOptP s0 (State.readGrid s c x remote) := by
  unfold State.readGrid
  repeat' first
    | intro _
    | with_reducible assumption
    | with_reducible apply State.load_keeps
    | with_reducible refine keepsOptP_some ?_
    | with_reducible exact keepsOptP_none _
    | with_reducible refine keepsOptP_map _ ?_
    | dsimp -zeta only
    | split

/-- `State.decodeItem` keeps. -/
theorem State.decodeItem_keeps {s0 : State} (s : State) (c : Nat) (x : Slot) (t : TensorDesc) (i : Nat) (sl : Nat) (axis : Bool) (h : Keeps s0 s) : Keeps s0 (State.decodeItem s c x t i sl axis).1:= by
  unfold State.decodeItem
  repeat' first
    | with_reducible assumption
    | with_reducible apply State.notice_keeps
    | with_reducible apply State.flagCl_keeps
    | with_reducible apply State.podCond_keeps
    | extract_lets +onlyGivenNames t
    | dsimp -zeta only
    | split

/-- `State.decodeSlab` keeps. -/
theorem State.decodeSlab_keeps {s0 : State} (s : State) (c : Nat) (x : Slot) (t : TensorDesc) (first : Nat) (n : Nat) (sl : Nat) (axis : Bool) (h : Keeps s0 s) : Keeps s0 (State.decodeSlab s c x t first n sl axis).1:= by
  unfold State.decodeSlab
  repeat' first
    | intro _
    | with_reducible assumption
    | with_reducible apply State.decodeItem_keeps
    | extract_lets +onlyGivenNames t
    | with_reducible refine keeps_foldl_fst ?_ _ ?_

/-- `State.enterTld` keeps. -/
theorem State.enterTld_keeps {s0 : State} (s : State) (c : Nat) (w : Nat) (q : Nat) (m : Nat) (starved : Bool) (grid : Option (List Sys2Proof.Byte)) (h : Keeps s0 s) : Keeps s0 (State.enterTld s c w q m starved grid) := by
  unfold State.enterTld
  repeat' first
    | with_reducible assumption
    | with_reducible apply State.setCl_keeps
    | with_reducible apply State.readGrid_keeps
    | with_reducible apply State.decodeSlab_keeps
    | with_reducible apply State.ifault_keeps
    | extract_lets +onlyGivenNames t
    | dsimp -zeta only
    | split
    | with_reducible refine of_some_pair (by assumption) ?_

/-- `State.tryTld` keeps. -/
theorem State.tryTld_keeps {s0 : State} (s : State) (c : Nat) (w : Nat) (starved : Bool) (grid : Option (List Sys2Proof.Byte)) (h : Keeps s0 s) : KeepsOpt s0 (State.tryTld s c w starved grid) := by
  unfold State.tryTld
  repeat' first
    | with_reducible assumption
    | with_reducible apply State.ifault_keeps
    | with_reducible apply State.illegal_keeps
    | with_reducible apply State.lsFault_keeps
    | with_reducible apply State.enterTld_keeps
    | extract_lets +onlyGivenNames t
    | with_reducible refine keepsOpt_some ?_
    | with_reducible exact keepsOpt_none _
    | split

/-- `State.tryTlm` keeps. -/
theorem State.tryTlm_keeps {s0 : State} (s : State) (c : Nat) (w : Nat) (h : Keeps s0 s) : KeepsOpt s0 (State.tryTlm s c w) := by
  unfold State.tryTlm
  repeat' first
    | with_reducible assumption
    | with_reducible apply State.illegal_keeps
    | with_reducible apply State.lsFault_keeps
    | with_reducible apply State.setCl_keeps
    | extract_lets +onlyGivenNames t
    | with_reducible refine keepsOpt_some ?_
    | with_reducible exact keepsOpt_none _
    | split

/-- `State.tryTst` keeps. -/
theorem State.tryTst_keeps {s0 : State} (s : State) (c : Nat) (w : Nat) (h : Keeps s0 s) : KeepsOpt s0 (State.tryTst s c w) := by
  unfold State.tryTst
  repeat' first
    | with_reducible assumption
    | with_reducible apply State.illegal_keeps
    | with_reducible apply State.lsFault_keeps
    | with_reducible apply State.ifault_keeps
    | with_reducible apply State.setCl_keeps
    | extract_lets +onlyGivenNames t
    | with_reducible refine keepsOpt_some ?_
    | with_reducible exact keepsOpt_none _
    | split

/-- `State.tryLutld` keeps. -/
theorem State.tryLutld_keeps {s0 : State} (s : State) (c : Nat) (w : Nat) (h : Keeps s0 s) : KeepsOpt s0 (State.tryLutld s c w) := by
  unfold State.tryLutld
  repeat' first
    | with_reducible assumption
    | with_reducible apply State.illegal_keeps
    | with_reducible apply State.lsFault_keeps
    | with_reducible apply State.setCl_keeps
    | extract_lets +onlyGivenNames t
    | with_reducible refine keepsOpt_some ?_
    | with_reducible exact keepsOpt_none _
    | split

/-- `State.tryRtld` keeps. -/
theorem State.tryRtld_keeps {s0 : State} (s : State) (c : Nat) (w : Nat) (h : Keeps s0 s) : KeepsOpt s0 (State.tryRtld s c w) := by
  unfold State.tryRtld
  repeat' first
    | with_reducible assumption
    | with_reducible apply State.illegal_keeps
    | with_reducible apply State.lsFault_keeps
    | with_reducible apply State.ifault_keeps
    | with_reducible apply State.setCl_keeps
    | extract_lets +onlyGivenNames t
    | with_reducible refine keepsOpt_some ?_
    | with_reducible exact keepsOpt_none _
    | split

/-- `State.tryPour` keeps. -/
theorem State.tryPour_keeps {s0 : State} (s : State) (c : Nat) (w : Nat) (h : Keeps s0 s) : KeepsOpt s0 (State.tryPour s c w) := by
  unfold State.tryPour
  repeat' first
    | with_reducible assumption
    | with_reducible apply State.illegal_keeps
    | with_reducible apply State.lsFault_keeps
    | with_reducible apply State.ifault_keeps
    | with_reducible apply State.setCl_keeps
    | extract_lets +onlyGivenNames t
    | with_reducible refine keepsOpt_some ?_
    | with_reducible exact keepsOpt_none _
    | split

/-- `State.tryUnit` keeps. -/
theorem State.tryUnit_keeps {s0 : State} (s : State) (c : Nat) (w : Nat) (starved : Bool) (grid : Option (List Sys2Proof.Byte)) (h : Keeps s0 s) : KeepsOpt s0 (State.tryUnit s c w starved grid) := by
  unfold State.tryUnit
  repeat' first
    | with_reducible assumption
    | with_reducible apply State.tryTld_keeps
    | with_reducible apply State.tryTlm_keeps
    | with_reducible apply State.tryTst_keeps
    | with_reducible apply State.tryLutld_keeps
    | with_reducible apply State.tryRtld_keeps
    | with_reducible apply State.tryMma_keeps
    | with_reducible apply State.tryPour_keeps
    | split

/-- `State.enter` keeps. -/
theorem State.enter_keeps {s0 : State} (s : State) (c : Nat) (w : Nat) (grid : Option (List Sys2Proof.Byte)) (h : Keeps s0 s) : Keeps s0 (State.enter s c w grid) := by
  unfold State.enter
  repeat' first
    | with_reducible assumption
    | with_reducible apply State.tryUnit_keeps
    | with_reducible apply State.modCl_keeps
    | split
    | with_reducible refine of_some_eq (by assumption) ?_

/-- `execTld` keeps. -/
theorem execTld_keeps {s0 : State} (c : BitVec 8) (bits : BitVec 120) (grid : Option (List Sys2Proof.Byte)) (s : State) (h : Keeps s0 s) : KeepsRes s0 (execTld c bits grid s) := by
  unfold execTld
  repeat' first
    | intro _
    | with_reducible assumption
    | with_reducible apply State.issue_keeps
    | with_reducible apply State.enter_keeps

/-- `execTlm` keeps. -/
theorem execTlm_keeps {s0 : State} (c : BitVec 8) (bits : BitVec 120) (s : State) (h : Keeps s0 s) : KeepsRes s0 (execTlm c bits s) := by
  unfold execTlm
  repeat' first
    | intro _
    | with_reducible assumption
    | with_reducible apply State.issue_keeps
    | with_reducible apply State.enter_keeps

/-- `execTst` keeps. -/
theorem execTst_keeps {s0 : State} (c : BitVec 8) (bits : BitVec 120) (s : State) (h : Keeps s0 s) : KeepsRes s0 (execTst c bits s) := by
  unfold execTst
  repeat' first
    | intro _
    | with_reducible assumption
    | with_reducible apply State.issue_keeps
    | with_reducible apply State.enter_keeps

/-- `execLutld` keeps. -/
theorem execLutld_keeps {s0 : State} (c : BitVec 8) (bits : BitVec 120) (s : State) (h : Keeps s0 s) : KeepsRes s0 (execLutld c bits s) := by
  unfold execLutld
  repeat' first
    | intro _
    | with_reducible assumption
    | with_reducible apply State.issue_keeps
    | with_reducible apply State.enter_keeps

/-- `execRtld` keeps. -/
theorem execRtld_keeps {s0 : State} (c : BitVec 8) (bits : BitVec 120) (s : State) (h : Keeps s0 s) : KeepsRes s0 (execRtld c bits s) := by
  unfold execRtld
  repeat' first
    | intro _
    | with_reducible assumption
    | with_reducible apply State.issue_keeps
    | with_reducible apply State.enter_keeps

/-- `execMma` keeps. -/
theorem execMma_keeps {s0 : State} (c : BitVec 8) (bits : BitVec 120) (s : State) (h : Keeps s0 s) : KeepsRes s0 (execMma c bits s) := by
  unfold execMma
  repeat' first
    | intro _
    | with_reducible assumption
    | with_reducible apply State.issue_keeps
    | with_reducible apply State.enter_keeps

/-- `execPour` keeps. -/
theorem execPour_keeps {s0 : State} (c : BitVec 8) (bits : BitVec 120) (s : State) (h : Keeps s0 s) : KeepsRes s0 (execPour c bits s) := by
  unfold execPour
  repeat' first
    | intro _
    | with_reducible assumption
    | with_reducible apply State.issue_keeps
    | with_reducible apply State.enter_keeps

/-- `State.retry` keeps. -/
theorem State.retry_keeps {s0 : State} (s : State) (c : Nat) (w : Nat) (starved : Bool) (grid : Option (List Sys2Proof.Byte)) (h : Keeps s0 s) : Keeps s0 (State.retry s c w starved grid) := by
  unfold State.retry
  repeat' first
    | intro _
    | with_reducible assumption
    | with_reducible apply State.runTo_keeps
    | with_reducible apply State.tryUnit_keeps
    | with_reducible apply State.modCl_keeps
    | (extract_lets +onlyGivenNames t; (with_reducible refine keeps_cut (s0 := s0) (t := t) ?_ ?_); rotate_left; intro ht; (try clear_value t); rotate_left; subst t)
    | with_reducible refine keeps_foldl ?_ _ ?_
    | split
    | with_reducible refine of_some_eq (by assumption) ?_

/-- `State.wideItems` keeps. -/
theorem State.wideItems_keeps {s0 : State} (s : State) (c : Nat) (via : Nat) (side : Tab (List Sys2Proof.Byte)) (ws : List (Nat × Nat × Nat)) (h : Keeps s0 s) : Keeps s0 (State.wideItems s c via side ws).1:= by
  unfold State.wideItems
  repeat' first
    | intro _
    | with_reducible assumption
    | with_reducible apply State.err_keeps
    | extract_lets +onlyGivenNames t
    | with_reducible refine keeps_foldl ?_ _ ?_

/-- `State.putItems` keeps. -/
theorem State.putItems_keeps {s0 : State} (s : State) (a : Nat) (x1 : List (Nat × Nat × Bool)) (h : Keeps s0 s) : Keeps s0 (State.putItems s a x1) := by
  induction x1 generalizing s a
  · exact h
  rename_i ih
  simp only [State.putItems]
  repeat' first
    | with_reducible assumption
    | with_reducible apply ih
    | with_reducible apply State.store_keeps

/-- `State.finishPods` keeps. -/
theorem State.finishPods_keeps {s0 : State} (s : State) (c : Nat) (td : Nat) (fmt : Fmt) (sel : Nat) (axis : Bool) (grid : List Int) (clAddr : Nat) (clCap : Nat) (via : Nat) (slabs : List SlabData) (poison : Bool) (side : Tab (List Sys2Proof.Byte)) (h : Keeps s0 s) : Keeps s0 (State.finishPods s c td fmt sel axis grid clAddr clCap via slabs poison side) := by
  unfold State.finishPods
  repeat' first
    | with_reducible assumption
    | with_reducible apply State.wideItems_keeps
    | with_reducible apply State.putItems_keeps
    | with_reducible apply State.modCl_keeps
    | with_reducible apply State.clDropped_keeps
    | (extract_lets +onlyGivenNames t; (with_reducible refine keeps_cut (s0 := s0) (t := t) ?_ ?_); rotate_left; intro ht; (try clear_value t); rotate_left; subst t)
    | extract_lets +onlyGivenNames t
    | dsimp -zeta only
    | split

/-- `State.tstRows` keeps. -/
theorem State.tstRows_keeps {s0 : State} (s : State) (c : Nat) (q : Nat) (r : TileReg) (h : Keeps s0 s) : Keeps s0 (State.tstRows s c q r) := by
  unfold State.tstRows
  repeat' first
    | with_reducible assumption
    | with_reducible apply State.setCl_keeps
    | with_reducible apply State.ifault_keeps
    | extract_lets +onlyGivenNames t
    | split

/-- `State.finishLoad` keeps. -/
theorem State.finishLoad_keeps {s0 : State} (s : State) (c : Nat) (side : Tab (List Sys2Proof.Byte)) (x1 : LoadOp) (h : Keeps s0 s) : Keeps s0 (State.finishLoad s c side x1) := by
  unfold State.finishLoad
  repeat' first
    | with_reducible assumption
    | with_reducible apply State.finishPods_keeps
    | with_reducible apply State.modCl_keeps
    | with_reducible apply State.store_keeps
    | with_reducible apply State.tstRows_keeps
    | with_reducible apply State.flagCl_keeps
    | with_reducible apply State.fillRt_keeps
    | dsimp -zeta only
    | split

/-- `execTileLoadComplete` keeps. -/
theorem execTileLoadComplete_keeps {s0 : State} (c : BitVec 8) (side : Tab (List Sys2Proof.Byte)) (s : State) (h : Keeps s0 s) : KeepsRes s0 (execTileLoadComplete c side s) := by
  unfold execTileLoadComplete
  repeat' first
    | with_reducible assumption
    | with_reducible apply State.modCl_keeps
    | with_reducible apply State.arriveIf_keeps
    | with_reducible apply State.finishLoad_keeps
    | (extract_lets +onlyGivenNames t; (with_reducible refine keeps_cut (s0 := s0) (t := t) ?_ ?_); rotate_left; intro ht; (try clear_value t); rotate_left; subst t)
    | extract_lets +onlyGivenNames t
    | with_reducible refine keepsRes_next ?_
    | split

/-- `State.tryReload` keeps. -/
theorem State.tryReload_keeps {s0 : State} (s : State) (c : Nat) (h : Keeps s0 s) : Keeps s0 (State.tryReload s c) := by
  unfold State.tryReload
  repeat' first
    | intro _
    | with_reducible assumption
    | with_reducible apply State.modCl_keeps
    | with_reducible apply State.reloadRt_keeps
    | extract_lets +onlyGivenNames t
    | with_reducible refine keeps_foldl ?_ _ ?_
    | split

/-- `State.freshGrid` keeps. -/
theorem State.freshGrid_keeps {s0 : State} (s : State) (c : Nat) (q : Nat) (remote : Option (List Sys2Proof.Byte)) (h : Keeps s0 s) : Keeps s0 (State.freshGrid s c q remote) := by
  unfold State.freshGrid
  repeat' first
    | with_reducible assumption
    | with_reducible apply State.readGrid_keeps
    | with_reducible apply State.modCl_keeps
    | (extract_lets +onlyGivenNames t; (with_reducible refine keeps_cut (s0 := s0) (t := t) ?_ ?_); rotate_left; intro ht; (try clear_value t); rotate_left; subst t)
    | extract_lets +onlyGivenNames t
    | split
    | with_reducible refine of_some_pair (by assumption) ?_

/-- `execPourStart` keeps. -/
theorem execPourStart_keeps {s0 : State} (c : BitVec 8) (grid : Option (List Sys2Proof.Byte)) (s : State) (h : Keeps s0 s) : KeepsRes s0 (execPourStart c grid s) := by
  unfold execPourStart
  repeat' first
    | intro _
    | with_reducible assumption
    | with_reducible apply State.freshGrid_keeps
    | with_reducible apply State.podCond_keeps
    | with_reducible apply State.setCl_keeps
    | with_reducible apply State.release_keeps
    | with_reducible apply State.clDropped_keeps
    | (extract_lets +onlyGivenNames t; (with_reducible refine keeps_cut (s0 := s0) (t := t) ?_ ?_); rotate_left; intro ht; (try clear_value t); rotate_left; subst t)
    | extract_lets +onlyGivenNames t
    | with_reducible refine keeps_foldl ?_ _ ?_
    | with_reducible refine keepsRes_next ?_
    | split

/-- `State.watchPost` keeps. -/
theorem State.watchPost_keeps {s0 : State} (s : State) (i : Nat) (v : Nat) (h : Keeps s0 s) : Keeps s0 (State.watchPost s i v) := by
  unfold State.watchPost
  repeat' first
    | with_reducible assumption
    | (extract_lets +onlyGivenNames t; have f : _ → State := t; clear f; subst t)
    | extract_lets +onlyGivenNames t
    | ((with_reducible refine keeps_of_mk ?_); (with_reducible refine keeps_of ?_); with_reducible assumption)
    | dsimp -zeta only
    | split

/-- `State.pourVec` keeps. -/
theorem State.pourVec_keeps {s0 : State} (s : State) (c : Nat) (poison : Bool) (v : PourVec) (h : Keeps s0 s) : Keeps s0 (State.pourVec s c poison v) := by
  unfold State.pourVec
  repeat' first
    | with_reducible assumption
    | with_reducible apply State.store_keeps
    | with_reducible apply State.flagCl_keeps
    | with_reducible apply State.devFault_keeps
    | with_reducible apply State.watchPost_keeps
    | (extract_lets +onlyGivenNames t; (with_reducible refine keeps_cut (s0 := s0) (t := t) ?_ ?_); rotate_left; intro ht; (try clear_value t); rotate_left; subst t)
    | (extract_lets +onlyGivenNames t; have f : State → _ := t; clear f; subst t)
    | extract_lets +onlyGivenNames t
    | dsimp -zeta only
    | split

/-- `execPourComplete` keeps. -/
theorem execPourComplete_keeps {s0 : State} (c : BitVec 8) (s : State) (h : Keeps s0 s) : KeepsRes s0 (execPourComplete c s) := by
  unfold execPourComplete
  repeat' first
    | intro _
    | with_reducible assumption
    | with_reducible apply State.setCl_keeps
    | with_reducible apply State.store_keeps
    | with_reducible apply State.pourVec_keeps
    | with_reducible apply State.tryReload_keeps
    | with_reducible apply State.tryStep_keeps
    | with_reducible apply State.arriveIf_keeps
    | (extract_lets +onlyGivenNames t; (with_reducible refine keeps_cut (s0 := s0) (t := t) ?_ ?_); rotate_left; intro ht; (try clear_value t); rotate_left; subst t)
    | extract_lets +onlyGivenNames t
    | with_reducible refine keeps_foldl ?_ _ ?_
    | with_reducible refine keepsRes_next ?_
    | split

/-- `State.xeFlags` keeps. -/
theorem State.xeFlags_keeps {s0 : State} (s : State) (f : Flags) (h : Keeps s0 s) : Keeps s0 (State.xeFlags s f) := by
  unfold State.xeFlags
  repeat' first
    | extract_lets +onlyGivenNames t
    | ((with_reducible refine keeps_of_mk ?_); (with_reducible refine keeps_of ?_); with_reducible assumption)

/-- `State.recallLine` keeps. -/
theorem State.recallLine_keeps {s0 : State} (s : State) (line : Nat) (h : Keeps s0 s) : Keeps s0 (State.recallLine s line) := by
  unfold State.recallLine
  repeat' first
    | intro _
    | with_reducible assumption
    | with_reducible apply State.modCl_keeps
    | with_reducible apply State.writeBack_keeps
    | with_reducible apply State.setSlice_keeps
    | extract_lets +onlyGivenNames t
    | with_reducible refine keeps_foldl ?_ _ ?_
    | split

/-- `State.reduceAt` keeps. -/
theorem State.reduceAt_keeps {s0 : State} (s : State) (fmt : Nat) (a : Nat) (bs : List Sys2Proof.Byte) (cls : Nat) (h : Keeps s0 s) : KeepsSum s0 (State.reduceAt s fmt a bs cls) := by
  unfold State.reduceAt
  repeat' first
    | with_reducible assumption
    | with_reducible apply State.load_keeps
    | with_reducible apply State.devFault_keeps
    | with_reducible apply State.xeFlags_keeps
    | with_reducible apply State.store_keeps
    | with_reducible refine keepsSum_inl ?_
    | with_reducible exact keepsSum_inr _ _
    | dsimp -zeta only
    | split

/-- `State.atomicAt` keeps. -/
theorem State.atomicAt_keeps {s0 : State} (s : State) (op : Nat) (a : Nat) (x : Nat) (y : Nat) (cls : Nat) (h : Keeps s0 s) : KeepsSumP s0 (State.atomicAt s op a x y cls) := by
  unfold State.atomicAt
  repeat' first
    | with_reducible assumption
    | with_reducible apply State.arrive_keeps
    | with_reducible apply State.recallLine_keeps
    | with_reducible apply State.load_keeps
    | with_reducible apply State.store_keeps
    | (extract_lets +onlyGivenNames t; (with_reducible refine keeps_cut (s0 := s0) (t := t) ?_ ?_); rotate_left; intro ht; (try clear_value t); rotate_left; subst t)
    | extract_lets +onlyGivenNames t
    | with_reducible refine keepsSumP_inl ?_
    | with_reducible exact keepsSumP_inr _ _
    | dsimp -zeta only
    | split

end Sys2Proof.Machine
end

