-- ==== Sys2Proof/Laws/KeepsStep.lean ====
section
/-!
SUPPORT. Exchange, training steps, operating points and Huddle: each operation keeps (Keeps of Sys2Proof/Safety.lean).
-/
namespace Sys2Proof.Machine

set_option Elab.async false
set_option linter.tactic.unusedName false

/-- `State.dropPost` keeps. -/
theorem State.dropPost_keeps {s0 : State} (s : State) (id : Nat) (h : Keeps s0 s) : Keeps s0 (State.dropPost s id) := by
  unfold State.dropPost
  repeat' first
    | extract_lets +onlyGivenNames t
    | ((with_reducible refine keeps_of_mk ?_); (with_reducible refine keeps_of ?_); with_reducible assumption)

/-- `State.modPost` keeps. -/
theorem State.modPost_keeps {s0 : State} (s : State) (id : Nat) (f : Post → Post) (h : Keeps s0 s) : Keeps s0 (State.modPost s id f) := by
  unfold State.modPost
  repeat' first
    | extract_lets +onlyGivenNames t
    | ((with_reducible refine keeps_of_mk ?_); (with_reducible refine keeps_of ?_); with_reducible assumption)

/-- `State.postFail` keeps. -/
theorem State.postFail_keeps {s0 : State} (s : State) (p : Post) (h : Keeps s0 s) : Keeps s0 (State.postFail s p) := by
  unfold State.postFail
  repeat' first
    | with_reducible assumption
    | with_reducible apply State.dropPost_keeps
    | with_reducible apply State.ifault_keeps
    | (extract_lets +onlyGivenNames t; (with_reducible refine keeps_cut (s0 := s0) (t := t) ?_ ?_); rotate_left; intro ht; (try clear_value t); rotate_left; subst t)
    | split

/-- `State.collSend` keeps. -/
theorem State.collSend_keeps {s0 : State} (s : State) (id : Nat) (d : PostDesc) (k : Coll) (to_ : Nat) (chunks : List Nat) (h : Keeps s0 s) : Keeps s0 (State.collSend s id d k to_ chunks) := by
  unfold State.collSend
  repeat' first
    | intro _
    | with_reducible assumption
    | with_reducible apply State.load_keeps
    | with_reducible apply State.devFault_keeps
    | with_reducible apply State.sendOp_keeps
    | extract_lets +onlyGivenNames t
    | with_reducible refine keeps_foldl ?_ _ ?_
    | dsimp -zeta only
    | split

/-- `State.collTake` keeps. -/
theorem State.collTake_keeps {s0 : State} (s : State) (d : PostDesc) (combine : Bool) (r : Nat) (off : Nat) (bs : List Sys2Proof.Byte) (h : Keeps s0 s) : Keeps s0 (State.collTake s d combine r off bs) := by
  unfold State.collTake
  repeat' first
    | with_reducible assumption
    | with_reducible apply State.store_keeps
    | with_reducible apply State.load_keeps
    | with_reducible apply State.devFault_keeps
    | with_reducible apply State.xeFlags_keeps
    | (extract_lets +onlyGivenNames t; (with_reducible refine keeps_cut (s0 := s0) (t := t) ?_ ?_); rotate_left; intro ht; (try clear_value t); rotate_left; subst t)
    | extract_lets +onlyGivenNames t
    | ((with_reducible refine keeps_of_mk ?_); (with_reducible refine keeps_of ?_); with_reducible assumption)
    | dsimp -zeta only
    | split

/-- `State.collPump` keeps. -/
theorem State.collPump_keeps {s0 : State} (s : State) (id : Nat) (x1 : Nat) (h : Keeps s0 s) : Keeps s0 (State.collPump s id x1) := by
  induction x1 generalizing s
  · exact h
  rename_i ih
  simp only [State.collPump]
  repeat' first
    | intro _
    | with_reducible assumption
    | with_reducible apply ih
    | with_reducible apply State.collTake_keeps
    | with_reducible apply State.modPost_keeps
    | with_reducible apply State.collSend_keeps
    | extract_lets +onlyGivenNames t
    | with_reducible refine keeps_foldl ?_ _ ?_
    | split

/-- `State.fetchRecord` keeps. -/
theorem State.fetchRecord_keeps {s0 : State} (s : State) (p : Post) (e : Shard) (h : Keeps s0 s) : Keeps s0 (State.fetchRecord s p e) := by
  unfold State.fetchRecord
  repeat' first
    | with_reducible assumption
    | with_reducible apply State.sendOp_keeps

/-- `State.startPost` keeps. -/
theorem State.startPost_keeps {s0 : State} (s : State) (p : Post) (h : Keeps s0 s) : Keeps s0 (State.startPost s p) := by
  unfold State.startPost
  repeat' first
    | intro _
    | with_reducible assumption
    | with_reducible apply State.modPost_keeps
    | with_reducible apply State.collSend_keeps
    | with_reducible apply State.collPump_keeps
    | with_reducible apply State.fetchRecord_keeps
    | with_reducible apply State.sendOp_keeps
    | with_reducible apply State.load_keeps
    | with_reducible apply State.dropPost_keeps
    | with_reducible apply State.devFault_keeps
    | (extract_lets +onlyGivenNames t; (with_reducible refine keeps_cut (s0 := s0) (t := t) ?_ ?_); rotate_left; intro ht; (try clear_value t); rotate_left; subst t)
    | extract_lets +onlyGivenNames t
    | ((with_reducible refine keeps_of_mk ?_); (with_reducible refine keeps_of ?_); with_reducible assumption)
    | with_reducible refine keeps_foldl ?_ _ ?_
    | dsimp -zeta only
    | split

/-- `State.postTo` keeps. -/
theorem State.postTo_keeps {s0 : State} (s : State) (c : Nat) (w : Nat) (d : PostDesc) (x1 : Option (DevId × Nat)) (h : Keeps s0 s) : Keeps s0 (State.postTo s c w d x1) := by
  unfold State.postTo
  repeat' first
    | with_reducible assumption
    | with_reducible apply State.ifault_keeps
    | with_reducible apply State.startPost_keeps
    | extract_lets +onlyGivenNames t
    | ((with_reducible refine keeps_of_mk ?_); (with_reducible refine keeps_of ?_); with_reducible assumption)
    | split

/-- `State.post` keeps. -/
theorem State.post_keeps {s0 : State} (s : State) (c : Nat) (w : Nat) (h : Keeps s0 s) : Keeps s0 (State.post s c w) := by
  unfold State.post
  repeat' first
    | with_reducible assumption
    | with_reducible apply State.modCl_keeps
    | with_reducible apply State.postTo_keeps

/-- `State.enterExch` keeps. -/
theorem State.enterExch_keeps {s0 : State} (s : State) (c : Nat) (w : Nat) (h : Keeps s0 s) : Keeps s0 (State.enterExch s c w) := by
  unfold State.enterExch
  repeat' first
    | with_reducible assumption
    | with_reducible apply State.modCl_keeps
    | with_reducible apply State.illegal_keeps
    | with_reducible apply State.lsFault_keeps
    | with_reducible apply State.cleanCache_keeps
    | with_reducible apply State.post_keeps
    | (extract_lets +onlyGivenNames t; (with_reducible refine keeps_cut (s0 := s0) (t := t) ?_ ?_); rotate_left; intro ht; (try clear_value t); rotate_left; subst t)
    | extract_lets +onlyGivenNames t
    | split

/-- `execExchWrite` keeps. -/
theorem execExchWrite_keeps {s0 : State} (c : BitVec 8) (bits : BitVec 120) (s : State) (h : Keeps s0 s) : KeepsRes s0 (execExchWrite c bits s) := by
  unfold execExchWrite
  repeat' first
    | intro _
    | with_reducible assumption
    | with_reducible apply State.issue_keeps
    | with_reducible apply State.enterExch_keeps

/-- `execExchRead` keeps. -/
theorem execExchRead_keeps {s0 : State} (c : BitVec 8) (bits : BitVec 120) (s : State) (h : Keeps s0 s) : KeepsRes s0 (execExchRead c bits s) := by
  unfold execExchRead
  repeat' first
    | intro _
    | with_reducible assumption
    | with_reducible apply State.issue_keeps
    | with_reducible apply State.enterExch_keeps

/-- `execExchReduceWrite` keeps. -/
theorem execExchReduceWrite_keeps {s0 : State} (c : BitVec 8) (bits : BitVec 120) (s : State) (h : Keeps s0 s) : KeepsRes s0 (execExchReduceWrite c bits s) := by
  unfold execExchReduceWrite
  repeat' first
    | intro _
    | with_reducible assumption
    | with_reducible apply State.issue_keeps
    | with_reducible apply State.enterExch_keeps

/-- `execExchAtomic` keeps. -/
theorem execExchAtomic_keeps {s0 : State} (c : BitVec 8) (bits : BitVec 120) (s : State) (h : Keeps s0 s) : KeepsRes s0 (execExchAtomic c bits s) := by
  unfold execExchAtomic
  repeat' first
    | intro _
    | with_reducible assumption
    | with_reducible apply State.issue_keeps
    | with_reducible apply State.enterExch_keeps

/-- `execReduceScatter` keeps. -/
theorem execReduceScatter_keeps {s0 : State} (c : BitVec 8) (bits : BitVec 120) (s : State) (h : Keeps s0 s) : KeepsRes s0 (execReduceScatter c bits s) := by
  unfold execReduceScatter
  repeat' first
    | intro _
    | with_reducible assumption
    | with_reducible apply State.issue_keeps
    | with_reducible apply State.enterExch_keeps

/-- `execAllGather` keeps. -/
theorem execAllGather_keeps {s0 : State} (c : BitVec 8) (bits : BitVec 120) (s : State) (h : Keeps s0 s) : KeepsRes s0 (execAllGather c bits s) := by
  unfold execAllGather
  repeat' first
    | intro _
    | with_reducible assumption
    | with_reducible apply State.issue_keeps
    | with_reducible apply State.enterExch_keeps

/-- `execAllToAll` keeps. -/
theorem execAllToAll_keeps {s0 : State} (c : BitVec 8) (bits : BitVec 120) (s : State) (h : Keeps s0 s) : KeepsRes s0 (execAllToAll c bits s) := by
  unfold execAllToAll
  repeat' first
    | intro _
    | with_reducible assumption
    | with_reducible apply State.issue_keeps
    | with_reducible apply State.enterExch_keeps

/-- `execBroadcast` keeps. -/
theorem execBroadcast_keeps {s0 : State} (c : BitVec 8) (bits : BitVec 120) (s : State) (h : Keeps s0 s) : KeepsRes s0 (execBroadcast c bits s) := by
  unfold execBroadcast
  repeat' first
    | intro _
    | with_reducible assumption
    | with_reducible apply State.issue_keeps
    | with_reducible apply State.enterExch_keeps

/-- `State.localPost` keeps. -/
theorem State.localPost_keeps {s0 : State} (s : State) (p : Post) (h : Keeps s0 s) : KeepsSum s0 (State.localPost s p) := by
  unfold State.localPost
  repeat' first
    | with_reducible assumption
    | with_reducible apply State.load_keeps
    | with_reducible apply State.deviceWrite_keeps
    | with_reducible apply State.store_keeps
    | with_reducible apply State.devFault_keeps
    | with_reducible apply State.reduceAt_keeps
    | with_reducible apply State.atomicAt_keeps
    | extract_lets +onlyGivenNames t
    | with_reducible refine of_inl_pair (by assumption) ?_
    | with_reducible refine keepsSum_inl ?_
    | with_reducible exact keepsSum_inr _ _
    | dsimp -zeta only
    | split

/-- `State.blurBuffer` keeps. -/
theorem State.blurBuffer_keeps {s0 : State} (s : State) (d : PostDesc) (k : Coll) (h : Keeps s0 s) : Keeps s0 (State.blurBuffer s d k) := by
  unfold State.blurBuffer
  repeat' first
    | with_reducible assumption
    | with_reducible apply State.store_keeps
    | (extract_lets +onlyGivenNames t; (with_reducible refine keeps_cut (s0 := s0) (t := t) ?_ ?_); rotate_left; intro ht; (try clear_value t); rotate_left; subst t)
    | extract_lets +onlyGivenNames t
    | ((with_reducible refine keeps_of_mk ?_); (with_reducible refine keeps_of ?_); with_reducible assumption)
    | dsimp -zeta only
    | split

/-- `execExchComplete` keeps. -/
theorem execExchComplete_keeps {s0 : State} (post : Nat) (s : State) (h : Keeps s0 s) : KeepsRes s0 (execExchComplete post s) := by
  unfold execExchComplete
  repeat' first
    | with_reducible assumption
    | with_reducible apply State.localPost_keeps
    | with_reducible apply State.postFail_keeps
    | with_reducible apply State.blurBuffer_keeps
    | with_reducible apply State.arrive_keeps
    | with_reducible apply State.dropPost_keeps
    | (extract_lets +onlyGivenNames t; (with_reducible refine keeps_cut (s0 := s0) (t := t) ?_ ?_); rotate_left; intro ht; (try clear_value t); rotate_left; subst t)
    | extract_lets +onlyGivenNames t
    | with_reducible refine keepsRes_next ?_
    | with_reducible refine keepsSum_inl ?_
    | with_reducible refine of_inl_eq (by assumption) ?_
    | split

/-- `execUnitEntry` keeps. -/
theorem execUnitEntry_keeps {s0 : State} (c : BitVec 8) (grid : Option (List Sys2Proof.Byte)) (s : State) (h : Keeps s0 s) : KeepsRes s0 (execUnitEntry c grid s) := by
  unfold execUnitEntry
  repeat' first
    | with_reducible assumption
    | with_reducible apply State.enterExch_keeps
    | with_reducible apply State.retry_keeps
    | with_reducible apply State.post_keeps
    | with_reducible apply State.sendSignal_keeps
    | extract_lets +onlyGivenNames t
    | with_reducible refine keepsRes_next ?_
    | split

/-- `execClusterHalted` keeps. -/
theorem execClusterHalted_keeps {s0 : State} (c : BitVec 8) (s : State) (h : Keeps s0 s) : KeepsRes s0 (execClusterHalted c s) := by
  unfold execClusterHalted
  repeat' first
    | with_reducible assumption
    | with_reducible apply State.setCl_keeps
    | extract_lets +onlyGivenNames t
    | with_reducible refine keepsRes_next ?_
    | split

/-- `execHaltReq` keeps. -/
theorem execHaltReq_keeps {s0 : State} (c : BitVec 8) (s : State) (h : Keeps s0 s) : KeepsRes s0 (execHaltReq c s) := by
  unfold execHaltReq
  repeat' first
    | with_reducible assumption
    | with_reducible apply State.modCl_keeps
    | extract_lets +onlyGivenNames t
    | with_reducible refine keepsRes_next ?_
    | split

/-- `execResume` keeps. -/
theorem execResume_keeps {s0 : State} (c : BitVec 8) (s : State) (h : Keeps s0 s) : KeepsRes s0 (execResume c s) := by
  unfold execResume
  repeat' first
    | with_reducible assumption
    | with_reducible apply State.modCl_keeps
    | extract_lets +onlyGivenNames t
    | with_reducible refine keepsRes_next ?_
    | split

/-- `execEventCounterWrite` keeps. -/
theorem execEventCounterWrite_keeps {s0 : State} (c : BitVec 8) (e : BitVec 6) (v : Sys2Proof.W64) (s : State) (h : Keeps s0 s) : KeepsRes s0 (execEventCounterWrite c e v s) := by
  unfold execEventCounterWrite
  repeat' first
    | with_reducible assumption
    | with_reducible apply State.modCl_keeps
    | extract_lets +onlyGivenNames t
    | with_reducible refine keepsRes_next ?_
    | split

/-- `execEvAdd` keeps. -/
theorem execEvAdd_keeps {s0 : State} (c : BitVec 8) (e : BitVec 6) (v : Sys2Proof.W64) (s : State) (h : Keeps s0 s) : KeepsRes s0 (execEvAdd c e v s) := by
  unfold execEvAdd
  repeat' first
    | with_reducible assumption
    | with_reducible apply State.arrive_keeps
    | extract_lets +onlyGivenNames t
    | with_reducible refine keepsRes_next ?_
    | split

/-- `execTransInv` keeps. -/
theorem execTransInv_keeps {s0 : State} (c : BitVec 8) (s : State) (h : Keeps s0 s) : KeepsRes s0 (execTransInv c s) := by
  unfold execTransInv
  repeat' first
    | with_reducible assumption
    | with_reducible apply State.modCl_keeps
    | extract_lets +onlyGivenNames t
    | with_reducible refine keepsRes_next ?_
    | split

/-- `State.rereadEntry` keeps. -/
theorem State.rereadEntry_keeps {s0 : State} (s : State) (c : Nat) (i : Nat) (h : Keeps s0 s) : Keeps s0 (State.rereadEntry s c i) := by
  unfold State.rereadEntry
  repeat' first
    | with_reducible assumption
    | with_reducible apply State.load_keeps
    | with_reducible apply State.err_keeps
    | with_reducible apply State.modCl_keeps
    | extract_lets +onlyGivenNames t
    | dsimp -zeta only
    | split

/-- `execTranslationRereadComplete` keeps. -/
theorem execTranslationRereadComplete_keeps {s0 : State} (c : BitVec 8) (s : State) (h : Keeps s0 s) : KeepsRes s0 (execTranslationRereadComplete c s) := by
  unfold execTranslationRereadComplete
  repeat' first
    | intro _
    | with_reducible assumption
    | with_reducible apply State.modCl_keeps
    | with_reducible apply State.rereadEntry_keeps
    | extract_lets +onlyGivenNames t
    | with_reducible refine keeps_foldl ?_ _ ?_
    | with_reducible refine keepsRes_next ?_
    | split

/-- `execRtInv` keeps. -/
theorem execRtInv_keeps {s0 : State} (c : BitVec 8) (mask : BitVec 4) (s : State) (h : Keeps s0 s) : KeepsRes s0 (execRtInv c mask s) := by
  unfold execRtInv
  repeat' first
    | with_reducible assumption
    | with_reducible apply State.tryReload_keeps
    | with_reducible apply State.modCl_keeps
    | extract_lets +onlyGivenNames t
    | with_reducible refine keepsRes_next ?_
    | split

/-- `execGridInv` keeps. -/
theorem execGridInv_keeps {s0 : State} (c : BitVec 8) (s : State) (h : Keeps s0 s) : KeepsRes s0 (execGridInv c s) := by
  unfold execGridInv
  repeat' first
    | with_reducible assumption
    | with_reducible apply State.modCl_keeps
    | extract_lets +onlyGivenNames t
    | with_reducible refine keepsRes_next ?_
    | split

/-- `State.formAfford` keeps. -/
theorem State.formAfford_keeps {s0 : State} (s : State) (step : Nat) (h : Keeps s0 s) : Keeps s0 (State.formAfford s step) := by
  unfold State.formAfford
  repeat' first
    | extract_lets +onlyGivenNames t
    | ((with_reducible refine keeps_of_mk ?_); (with_reducible refine keeps_of ?_); with_reducible assumption)

/-- `State.onDomains` keeps. -/
theorem State.onDomains_keeps {s0 : State} (s : State) (f : SlotPwr → SlotPwr) (h : Keeps s0 s) : Keeps s0 (State.onDomains s f) := by
  unfold State.onDomains
  repeat' first
    | extract_lets +onlyGivenNames t
    | ((with_reducible refine keeps_of_mk ?_); (with_reducible refine keeps_of ?_); with_reducible assumption)

/-- `State.prepare` keeps. -/
theorem State.prepare_keeps {s0 : State} (s : State) (p : Nat) (h : Keeps s0 s) : Keeps s0 (State.prepare s p) := by
  unfold State.prepare
  repeat' first
    | with_reducible assumption
    | with_reducible apply State.onDomains_keeps

/-- `State.schedule` keeps. -/
theorem State.schedule_keeps {s0 : State} (s : State) (h : Keeps s0 s) : Keeps s0 (State.schedule s) := by
  unfold State.schedule
  repeat' first
    | with_reducible assumption
    | with_reducible apply State.prepare_keeps
    | extract_lets +onlyGivenNames t
    | ((with_reducible refine keeps_of_mk ?_); (with_reducible refine keeps_of ?_); with_reducible assumption)
    | split

/-- `State.changeDomains` keeps. -/
theorem State.changeDomains_keeps {s0 : State} (s : State) (p : Nat) (deferred : Bool) (h : Keeps s0 s) : Keeps s0 (State.changeDomains s p deferred) := by
  unfold State.changeDomains
  repeat' first
    | intro _
    | with_reducible assumption
    | with_reducible apply State.setDom_keeps
    | (extract_lets +onlyGivenNames t; (with_reducible refine keeps_cut (s0 := s0) (t := t) ?_ ?_); rotate_left; intro ht; (try clear_value t); rotate_left; subst t)
    | extract_lets +onlyGivenNames t
    | ((with_reducible refine keeps_of_mk ?_); (with_reducible refine keeps_of ?_); with_reducible assumption)
    | with_reducible refine keeps_foldl ?_ _ ?_
    | dsimp -zeta only
    | split

/-- `State.setEffective` keeps. -/
theorem State.setEffective_keeps {s0 : State} (s : State) (p : Nat) (h : Keeps s0 s) : Keeps s0 (State.setEffective s p) := by
  unfold State.setEffective
  repeat' first
    | with_reducible apply State.changeDomains_keeps
    | extract_lets +onlyGivenNames t
    | ((with_reducible refine keeps_of_mk ?_); (with_reducible refine keeps_of ?_); with_reducible assumption)

/-- `State.request` keeps. -/
theorem State.request_keeps {s0 : State} (s : State) (p : Nat) (paced : Option Nat) (h : Keeps s0 s) : Keeps s0 (State.request s p paced) := by
  unfold State.request
  repeat' first
    | with_reducible apply State.schedule_keeps
    | extract_lets +onlyGivenNames t
    | ((with_reducible refine keeps_of_mk ?_); (with_reducible refine keeps_of ?_); with_reducible assumption)

/-- `State.requestIdle` keeps. -/
theorem State.requestIdle_keeps {s0 : State} (s : State) (h : Keeps s0 s) : Keeps s0 (State.requestIdle s) := by
  unfold State.requestIdle
  repeat' first
    | with_reducible assumption
    | with_reducible apply State.request_keeps

/-- `State.measureFrom` keeps. -/
theorem State.measureFrom_keeps {s0 : State} (s : State) (h : Keeps s0 s) : Keeps s0 (State.measureFrom s) := by
  unfold State.measureFrom
  repeat' first
    | extract_lets +onlyGivenNames t
    | ((with_reducible refine keeps_of_mk ?_); (with_reducible refine keeps_of ?_); with_reducible assumption)

/-- `State.measureEnd` keeps. -/
theorem State.measureEnd_keeps {s0 : State} (s : State) (k : Nat) (n : Nat) (h : Keeps s0 s) : Keeps s0 (State.measureEnd s k n) := by
  unfold State.measureEnd
  repeat' first
    | with_reducible assumption
    | extract_lets +onlyGivenNames t
    | ((with_reducible refine keeps_of_mk ?_); (with_reducible refine keeps_of ?_); with_reducible assumption)
    | split

/-- `State.demand` keeps. -/
theorem State.demand_keeps {s0 : State} (s : State) (f : OppSt → OppSt) (h : Keeps s0 s) : Keeps s0 (State.demand s f) := by
  unfold State.demand
  repeat' first
    | with_reducible apply State.schedule_keeps
    | extract_lets +onlyGivenNames t
    | ((with_reducible refine keeps_of_mk ?_); (with_reducible refine keeps_of ?_); with_reducible assumption)

/-- `State.releaseLoop` keeps. -/
theorem State.releaseLoop_keeps {s0 : State} (s : State) (f : OppSt → OppSt) (h : Keeps s0 s) : Keeps s0 (State.releaseLoop s f) := by
  unfold State.releaseLoop
  repeat' first
    | extract_lets +onlyGivenNames t
    | ((with_reducible refine keeps_of_mk ?_); (with_reducible refine keeps_of ?_); with_reducible assumption)

/-- `State.publish` keeps. -/
theorem State.publish_keeps {s0 : State} (s : State) (e : Shard) (version : Nat) (h : Keeps s0 s) : Keeps s0 (State.publish s e version) := by
  unfold State.publish
  repeat' first
    | with_reducible assumption
    | with_reducible apply State.load_keeps
    | with_reducible apply State.devFault_keeps
    | with_reducible apply State.store_keeps
    | dsimp -zeta only
    | split

/-- `State.publishAll` keeps. -/
theorem State.publishAll_keeps {s0 : State} (s : State) (version : Nat) (h : Keeps s0 s) : Keeps s0 (State.publishAll s version) := by
  unfold State.publishAll
  repeat' first
    | intro _
    | with_reducible assumption
    | with_reducible apply State.publish_keeps
    | with_reducible refine keeps_foldl ?_ _ ?_

/-- `State.setGen` keeps. -/
theorem State.setGen_keeps {s0 : State} (s : State) (g : Nat) (x : Gen) (h : Keeps s0 s) : Keeps s0 (State.setGen s g x) := by
  unfold State.setGen
  repeat' first
    | extract_lets +onlyGivenNames t
    | ((with_reducible refine keeps_of_mk ?_); (with_reducible refine keeps_of ?_); with_reducible assumption)
    | split

/-- `State.copyRun` keeps. -/
theorem State.copyRun_keeps {s0 : State} (s : State) (dst : Nat) (src : Nat) (x1 : Nat) (h : Keeps s0 s) : Keeps s0 (State.copyRun s dst src x1) := by
  induction x1 generalizing s
  · exact h
  rename_i ih
  simp only [State.copyRun]
  repeat' first
    | with_reducible assumption
    | with_reducible apply ih
    | with_reducible apply State.store_keeps
    | with_reducible apply State.touch_keeps

/-- `State.xorRun` keeps. -/
theorem State.xorRun_keeps {s0 : State} (s : State) (dst : Nat) (src : Nat) (x1 : Nat) (h : Keeps s0 s) : Keeps s0 (State.xorRun s dst src x1) := by
  induction x1 generalizing s
  · exact h
  rename_i ih
  simp only [State.xorRun]
  repeat' first
    | with_reducible assumption
    | with_reducible apply ih
    | with_reducible apply State.store_keeps
    | with_reducible apply State.touch_keeps

/-- `State.copyImage` keeps. -/
theorem State.copyImage_keeps {s0 : State} (s : State) (g : Nat) (h : Keeps s0 s) : Keeps s0 (State.copyImage s g) := by
  unfold State.copyImage
  repeat' first
    | intro _
    | with_reducible assumption
    | with_reducible apply State.copyRun_keeps
    | with_reducible refine keeps_foldl ?_ _ ?_

/-- `State.xorGen` keeps. -/
theorem State.xorGen_keeps {s0 : State} (s : State) (g : Nat) (h : Keeps s0 s) : Keeps s0 (State.xorGen s g) := by
  unfold State.xorGen
  repeat' first
    | intro _
    | with_reducible assumption
    | with_reducible apply State.xorRun_keeps
    | with_reducible refine keeps_foldl ?_ _ ?_

/-- `State.xorLive` keeps. -/
theorem State.xorLive_keeps {s0 : State} (s : State) (g : Nat) (h : Keeps s0 s) : Keeps s0 (State.xorLive s g) := by
  unfold State.xorLive
  repeat' first
    | intro _
    | with_reducible assumption
    | with_reducible apply State.xorRun_keeps
    | with_reducible refine keeps_foldl ?_ _ ?_

/-- `State.copyBack` keeps. -/
theorem State.copyBack_keeps {s0 : State} (s : State) (g : Nat) (h : Keeps s0 s) : Keeps s0 (State.copyBack s g) := by
  unfold State.copyBack
  repeat' first
    | intro _
    | with_reducible assumption
    | with_reducible apply State.copyRun_keeps
    | with_reducible refine keeps_foldl ?_ _ ?_

/-- `State.sendRecord` keeps. -/
theorem State.sendRecord_keeps {s0 : State} (s : State) (dev : DevId) (r : Record) (h : Keeps s0 s) : Keeps s0 (State.sendRecord s dev r) := by
  unfold State.sendRecord
  repeat' first
    | extract_lets +onlyGivenNames t
    | ((with_reducible refine keeps_of_mk ?_); (with_reducible refine keeps_of ?_); with_reducible assumption)

/-- `State.exportRecord` keeps. -/
theorem State.exportRecord_keeps {s0 : State} (s : State) (r : Record) (h : Keeps s0 s) : Keeps s0 (State.exportRecord s r) := by
  unfold State.exportRecord
  repeat' first
    | with_reducible assumption
    | with_reducible apply State.sendOp_keeps
    | extract_lets +onlyGivenNames t
    | ((with_reducible refine keeps_of_mk ?_); (with_reducible refine keeps_of ?_); with_reducible assumption)
    | split

/-- `State.announceStep` keeps. -/
theorem State.announceStep_keeps {s0 : State} (s : State) (type : Nat) (step : Nat) (h : Keeps s0 s) : Keeps s0 (State.announceStep s type step) := by
  unfold State.announceStep
  repeat' first
    | with_reducible apply State.exportRecord_keeps
    | with_reducible apply State.sendRecord_keeps
    | extract_lets +onlyGivenNames t
    | ((with_reducible refine keeps_of_mk ?_); (with_reducible refine keeps_of ?_); with_reducible assumption)
    | dsimp -zeta only
    | split

/-- `State.ackIdle` keeps. -/
theorem State.ackIdle_keeps {s0 : State} (s : State) (h : Keeps s0 s) : Keeps s0 (State.ackIdle s) := by
  unfold State.ackIdle
  repeat' first
    | with_reducible assumption
    | extract_lets +onlyGivenNames t
    | ((with_reducible refine keeps_of_mk ?_); (with_reducible refine keeps_of ?_); with_reducible assumption)
    | split

/-- `State.releaseFormed` keeps. -/
theorem State.releaseFormed_keeps {s0 : State} (s : State) (h : Keeps s0 s) : Keeps s0 (State.releaseFormed s) := by
  unfold State.releaseFormed
  repeat' first
    | with_reducible assumption
    | extract_lets +onlyGivenNames t
    | ((with_reducible refine keeps_of_mk ?_); (with_reducible refine keeps_of ?_); with_reducible assumption)
    | split

/-- `State.sendNext` keeps. -/
theorem State.sendNext_keeps {s0 : State} (s : State) (h : Keeps s0 s) : Keeps s0 (State.sendNext s) := by
  unfold State.sendNext
  repeat' first
    | with_reducible assumption
    | with_reducible apply State.exportRecord_keeps
    | with_reducible apply State.sendRecord_keeps
    | with_reducible apply State.releaseFormed_keeps
    | (extract_lets +onlyGivenNames t; (with_reducible refine keeps_cut (s0 := s0) (t := t) ?_ ?_); rotate_left; intro ht; (try clear_value t); rotate_left; subst t)
    | extract_lets +onlyGivenNames t
    | ((with_reducible refine keeps_of_mk ?_); (with_reducible refine keeps_of ?_); with_reducible assumption)
    | split

/-- `State.closeRecords` keeps. -/
theorem State.closeRecords_keeps {s0 : State} (s : State) (step : Nat) (rs : List Record) (h : Keeps s0 s) : Keeps s0 (State.closeRecords s step rs).1:= by
  unfold State.closeRecords
  repeat' first
    | extract_lets +onlyGivenNames t
    | ((with_reducible refine keeps_of_mk ?_); (with_reducible refine keeps_of ?_); with_reducible assumption)

/-- `State.recordPoison` keeps. -/
theorem State.recordPoison_keeps {s0 : State} (s : State) (h : Keeps s0 s) : Keeps s0 (State.recordPoison s) := by
  unfold State.recordPoison
  repeat' first
    | with_reducible assumption
    | with_reducible apply State.devFault_keeps
    | split

/-- `State.formDelta` keeps. -/
theorem State.formDelta_keeps {s0 : State} (s : State) (h : Keeps s0 s) : Keeps s0 (State.formDelta s) := by
  unfold State.formDelta
  repeat' first
    | intro _
    | with_reducible assumption
    | with_reducible apply State.recordPoison_keeps
    | with_reducible apply State.setGen_keeps
    | with_reducible apply State.xorGen_keeps
    | with_reducible apply State.closeRecords_keeps
    | with_reducible apply State.exportRecord_keeps
    | with_reducible apply State.releaseFormed_keeps
    | (extract_lets +onlyGivenNames t; (with_reducible refine keeps_cut (s0 := s0) (t := t) ?_ ?_); rotate_left; intro ht; (try clear_value t); rotate_left; subst t)
    | extract_lets +onlyGivenNames t
    | with_reducible refine keeps_foldl ?_ _ ?_
    | dsimp -zeta only
    | split
    | (simp only [keeps_mk]; with_reducible refine keeps_of ?_)

/-- `State.resend` keeps. -/
theorem State.resend_keeps {s0 : State} (s : State) (seq : Nat) (f : Record → Record) (h : Keeps s0 s) : Keeps s0 (State.resend s seq f) := by
  unfold State.resend
  repeat' first
    | with_reducible assumption
    | extract_lets +onlyGivenNames t
    | ((with_reducible refine keeps_of_mk ?_); (with_reducible refine keeps_of ?_); with_reducible assumption)
    | split

/-- `State.commit` keeps. -/
theorem State.commit_keeps {s0 : State} (s : State) (c : Nat) (h : Keeps s0 s) : Keeps s0 (State.commit s c) := by
  unfold State.commit
  repeat' first
    | with_reducible assumption
    | with_reducible apply State.announceStep_keeps
    | (extract_lets +onlyGivenNames t; (with_reducible refine keeps_cut (s0 := s0) (t := t) ?_ ?_); rotate_left; intro ht; (try clear_value t); rotate_left; subst t)
    | extract_lets +onlyGivenNames t
    | ((with_reducible refine keeps_of_mk ?_); (with_reducible refine keeps_of ?_); with_reducible assumption)
    | split

/-- `State.undoGen` keeps. -/
theorem State.undoGen_keeps {s0 : State} (s : State) (g : Nat) (c : Nat) (h : Keeps s0 s) : Keeps s0 (State.undoGen s g c) := by
  unfold State.undoGen
  repeat' first
    | with_reducible assumption
    | with_reducible apply State.xorLive_keeps
    | with_reducible apply State.copyBack_keeps
    | with_reducible apply State.setGen_keeps
    | (extract_lets +onlyGivenNames t; (with_reducible refine keeps_cut (s0 := s0) (t := t) ?_ ?_); rotate_left; intro ht; (try clear_value t); rotate_left; subst t)
    | extract_lets +onlyGivenNames t
    | ((with_reducible refine keeps_of_mk ?_); (with_reducible refine keeps_of ?_); with_reducible assumption)
    | split

/-- `State.restoreWatch` keeps. -/
theorem State.restoreWatch_keeps {s0 : State} (s : State) (h : Keeps s0 s) : Keeps s0 (State.restoreWatch s) := by
  unfold State.restoreWatch
  repeat' ((with_reducible refine keeps_of_mk ?_); (with_reducible refine keeps_of ?_); with_reducible assumption)

/-- `State.rollback` keeps. -/
theorem State.rollback_keeps {s0 : State} (s : State) (c : Nat) (h : Keeps s0 s) : Keeps s0 (State.rollback s c) := by
  unfold State.rollback
  repeat' first
    | intro _
    | with_reducible assumption
    | with_reducible apply State.undoGen_keeps
    | with_reducible apply State.announceStep_keeps
    | with_reducible apply State.restoreWatch_keeps
    | with_reducible apply State.publishAll_keeps
    | extract_lets +onlyGivenNames t
    | with_reducible refine keeps_foldl ?_ _ ?_
    | dsimp -zeta only
    | split
    | (simp only [keeps_mk]; with_reducible refine keeps_of ?_)

/-- `State.mapWatch` keeps. -/
theorem State.mapWatch_keeps {s0 : State} (s : State) (f : WatchInput → WatchInput) (h : Keeps s0 s) : Keeps s0 (State.mapWatch s f) := by
  unfold State.mapWatch
  repeat' ((with_reducible refine keeps_of_mk ?_); (with_reducible refine keeps_of ?_); with_reducible assumption)

/-- `State.beginPhase` keeps. -/
theorem State.beginPhase_keeps {s0 : State} (s : State) (n : Nat) (ask : Bool) (h : Keeps s0 s) : Keeps s0 (State.beginPhase s n ask) := by
  unfold State.beginPhase
  repeat' first
    | with_reducible apply State.measureFrom_keeps
    | with_reducible apply State.request_keeps
    | extract_lets +onlyGivenNames t
    | ((with_reducible refine keeps_of_mk ?_); (with_reducible refine keeps_of ?_); with_reducible assumption)
    | dsimp -zeta only
    | split

/-- `State.arriveAll` keeps. -/
theorem State.arriveAll_keeps {s0 : State} (s : State) (e : Nat) (h : Keeps s0 s) : Keeps s0 (State.arriveAll s e) := by
  unfold State.arriveAll
  repeat' first
    | intro _
    | with_reducible assumption
    | with_reducible apply State.arrive_keeps
    | with_reducible refine keeps_foldl ?_ _ ?_

/-- `State.closeWindow` keeps. -/
theorem State.closeWindow_keeps {s0 : State} (s : State) (h : Keeps s0 s) : Keeps s0 (State.closeWindow s) := by
  unfold State.closeWindow
  repeat' first
    | with_reducible assumption
    | with_reducible apply State.mapWatch_keeps
    | extract_lets +onlyGivenNames t
    | ((with_reducible refine keeps_of_mk ?_); (with_reducible refine keeps_of ?_); with_reducible assumption)
    | split

/-- `State.haltAll` keeps. -/
theorem State.haltAll_keeps {s0 : State} (s : State) (h : Keeps s0 s) : Keeps s0 (State.haltAll s) := by
  unfold State.haltAll
  repeat' first
    | intro _
    | with_reducible assumption
    | with_reducible apply State.modCl_keeps
    | with_reducible refine keeps_foldl ?_ _ ?_

/-- `State.verdictArrives` keeps. -/
theorem State.verdictArrives_keeps {s0 : State} (s : State) (v : Nat) (h : Keeps s0 s) : Keeps s0 (State.verdictArrives s v) := by
  unfold State.verdictArrives
  repeat' first
    | with_reducible assumption
    | with_reducible apply State.event_keeps
    | with_reducible apply State.arriveAll_keeps
    | with_reducible apply State.mapWatch_keeps
    | with_reducible apply State.setGen_keeps
    | with_reducible apply State.beginPhase_keeps
    | with_reducible apply State.haltAll_keeps
    | (extract_lets +onlyGivenNames t; (with_reducible refine keeps_cut (s0 := s0) (t := t) ?_ ?_); rotate_left; intro ht; (try clear_value t); rotate_left; subst t)
    | extract_lets +onlyGivenNames t
    | ((with_reducible refine keeps_of_mk ?_); (with_reducible refine keeps_of ?_); with_reducible assumption)
    | split

/-- `State.powerOpens` keeps. -/
theorem State.powerOpens_keeps {s0 : State} (s : State) (n : Nat) (h : Keeps s0 s) : Keeps s0 (State.powerOpens s n) := by
  unfold State.powerOpens
  repeat' first
    | extract_lets +onlyGivenNames t
    | ((with_reducible refine keeps_of_mk ?_); (with_reducible refine keeps_of ?_); with_reducible assumption)

/-- `State.openStep` keeps. -/
theorem State.openStep_keeps {s0 : State} (s : State) (n : Nat) (first : Bool) (h : Keeps s0 s) : Keeps s0 (State.openStep s n first) := by
  unfold State.openStep
  repeat' first
    | intro _
    | with_reducible assumption
    | with_reducible apply State.arriveAll_keeps
    | with_reducible apply State.mapWatch_keeps
    | with_reducible apply State.setGen_keeps
    | with_reducible apply State.closeRecords_keeps
    | with_reducible apply State.exportRecord_keeps
    | with_reducible apply State.beginPhase_keeps
    | with_reducible apply State.powerOpens_keeps
    | with_reducible apply State.event_keeps
    | (extract_lets +onlyGivenNames t; (with_reducible refine keeps_cut (s0 := s0) (t := t) ?_ ?_); rotate_left; intro ht; (try clear_value t); rotate_left; subst t)
    | extract_lets +onlyGivenNames t
    | ((with_reducible refine keeps_of_mk ?_); (with_reducible refine keeps_of ?_); with_reducible assumption)
    | with_reducible refine keeps_foldl ?_ _ ?_
    | dsimp -zeta only
    | split
    | (simp only [keeps_mk]; with_reducible refine keeps_of ?_)

/-- `State.powerEnds` keeps. -/
theorem State.powerEnds_keeps {s0 : State} (s : State) (h : Keeps s0 s) : Keeps s0 (State.powerEnds s) := by
  unfold State.powerEnds
  repeat' first
    | extract_lets +onlyGivenNames t
    | ((with_reducible refine keeps_of_mk ?_); (with_reducible refine keeps_of ?_); with_reducible assumption)

/-- `State.enterBarrier` keeps. -/
theorem State.enterBarrier_keeps {s0 : State} (s : State) (h : Keeps s0 s) : Keeps s0 (State.enterBarrier s) := by
  unfold State.enterBarrier
  repeat' first
    | with_reducible assumption
    | with_reducible apply State.powerEnds_keeps
    | with_reducible apply State.ackIdle_keeps
    | extract_lets +onlyGivenNames t
    | split
    | (simp only [keeps_mk]; with_reducible refine keeps_of ?_)

/-- `State.tryEnded` keeps. -/
theorem State.tryEnded_keeps {s0 : State} (s : State) (h : Keeps s0 s) : Keeps s0 (State.tryEnded s) := by
  unfold State.tryEnded
  repeat' first
    | with_reducible assumption
    | with_reducible apply State.event_keeps
    | extract_lets +onlyGivenNames t
    | ((with_reducible refine keeps_of_mk ?_); (with_reducible refine keeps_of ?_); with_reducible assumption)
    | split

/-- `State.prepareOpening` keeps. -/
theorem State.prepareOpening_keeps {s0 : State} (s : State) (p : Nat) (h : Keeps s0 s) : Keeps s0 (State.prepareOpening s p) := by
  unfold State.prepareOpening
  repeat' first
    | with_reducible assumption
    | with_reducible apply State.prepare_keeps

/-- `State.lastClosing` keeps. -/
theorem State.lastClosing_keeps {s0 : State} (s : State) (acked : Nat) (h : Keeps s0 s) : Keeps s0 (State.lastClosing s acked) := by
  unfold State.lastClosing
  repeat' first
    | with_reducible assumption
    | with_reducible apply State.commit_keeps
    | with_reducible apply State.tryEnded_keeps
    | with_reducible apply State.requestIdle_keeps
    | extract_lets +onlyGivenNames t
    | (simp only [keeps_mk]; with_reducible refine keeps_of ?_)

/-- `State.sysResult` keeps. -/
theorem State.sysResult_keeps {s0 : State} (s : State) (kind : SysKind) (vals : List Nat) (effect : Nat) (h : Keeps s0 s) : Keeps s0 (State.sysResult s kind vals effect) := by
  unfold State.sysResult
  repeat' first
    | with_reducible assumption
    | with_reducible apply State.verdictArrives_keeps
    | with_reducible apply State.prepareOpening_keeps
    | with_reducible apply State.openStep_keeps
    | with_reducible apply State.lastClosing_keeps
    | with_reducible apply State.commit_keeps
    | (extract_lets +onlyGivenNames t; have f : State → _ := t; clear f; subst t)
    | extract_lets +onlyGivenNames t
    | ((with_reducible refine keeps_of_mk ?_); (with_reducible refine keeps_of ?_); with_reducible assumption)
    | dsimp -zeta only
    | split
    | (simp only [keeps_mk]; with_reducible refine keeps_of ?_)

/-- `State.takeRx` keeps. -/
theorem State.takeRx_keeps {s0 : State} (s : State) (lane : Nat) (p : Packet) (h : Keeps s0 s) : KeepsOpt s0 (State.takeRx s lane p) := by
  unfold State.takeRx
  repeat' first
    | extract_lets +onlyGivenNames t
    | ((with_reducible refine keeps_of_mk ?_); (with_reducible refine keeps_of ?_); with_reducible assumption)
    | with_reducible refine keepsOpt_some ?_
    | with_reducible exact keepsOpt_none _
    | split

/-- `State.firstCopy` keeps. -/
theorem State.firstCopy_keeps {s0 : State} (s : State) (key : Nat) (seq : Nat) (copy : Nat) (h : Keeps s0 s) : KeepsOpt s0 (State.firstCopy s key seq copy) := by
  unfold State.firstCopy
  repeat' first
    | extract_lets +onlyGivenNames t
    | ((with_reducible refine keeps_of_mk ?_); (with_reducible refine keeps_of ?_); with_reducible assumption)
    | with_reducible refine keepsOpt_some ?_
    | with_reducible exact keepsOpt_none _
    | split

/-- `State.dropCopy` keeps. -/
theorem State.dropCopy_keeps {s0 : State} (s : State) (key : Nat) (seq : Nat) (copy : Nat) (h : Keeps s0 s) : Keeps s0 (State.dropCopy s key seq copy) := by
  unfold State.dropCopy
  repeat' first
    | extract_lets +onlyGivenNames t
    | ((with_reducible refine keeps_of_mk ?_); (with_reducible refine keeps_of ?_); with_reducible assumption)

/-- `State.sendTwice` keeps. -/
theorem State.sendTwice_keeps {s0 : State} (s : State) (dev : DevId) (e1 : Nat) (p : Packet) (h : Keeps s0 s) : Keeps s0 (State.sendTwice s dev e1 p) := by
  unfold State.sendTwice
  repeat' first
    | with_reducible assumption
    | with_reducible apply State.queueFrame_keeps
    | (extract_lets +onlyGivenNames t; (with_reducible refine keeps_cut (s0 := s0) (t := t) ?_ ?_); rotate_left; intro ht; (try clear_value t); rotate_left; subst t)
    | extract_lets +onlyGivenNames t
    | split

/-- `State.sendTree` keeps. -/
theorem State.sendTree_keeps {s0 : State} (s : State) (rank : Nat) (child : Nat) (op : Nat) (sys : Bool) (seq : Nat) (pay : List Sys2Proof.Byte) (h : Keeps s0 s) : Keeps s0 (State.sendTree s rank child op sys seq pay) := by
  unfold State.sendTree
  repeat' first
    | with_reducible assumption
    | with_reducible apply State.sendTwice_keeps
    | split

/-- `State.slotDoneOp` keeps. -/
theorem State.slotDoneOp_keeps {s0 : State} (s : State) (b : OpBlock) (h : Keeps s0 s) : Keeps s0 (State.slotDoneOp s b) := by
  unfold State.slotDoneOp
  repeat' first
    | with_reducible assumption
    | with_reducible apply State.arriveIf_keeps
    | extract_lets +onlyGivenNames t
    | ((with_reducible refine keeps_of_mk ?_); (with_reducible refine keeps_of ?_); with_reducible assumption)
    | split

/-- `State.completeOp` keeps. -/
theorem State.completeOp_keeps {s0 : State} (s : State) (sys : Bool) (b : OpBlock) (h : Keeps s0 s) : Keeps s0 (State.completeOp s sys b) := by
  unfold State.completeOp
  repeat' first
    | with_reducible assumption
    | with_reducible apply State.err_keeps
    | with_reducible apply State.sysResult_keeps
    | with_reducible apply State.slotDoneOp_keeps
    | (extract_lets +onlyGivenNames t; (with_reducible refine keeps_cut (s0 := s0) (t := t) ?_ ?_); rotate_left; intro ht; (try clear_value t); rotate_left; subst t)
    | extract_lets +onlyGivenNames t
    | ((with_reducible refine keeps_of_mk ?_); (with_reducible refine keeps_of ?_); with_reducible assumption)
    | split

/-- `State.sendDown` keeps. -/
theorem State.sendDown_keeps {s0 : State} (s : State) (sys : Bool) (b : OpBlock) (h : Keeps s0 s) : Keeps s0 (State.sendDown s sys b) := by
  unfold State.sendDown
  repeat' first
    | intro _
    | with_reducible assumption
    | with_reducible apply State.sendTree_keeps
    | with_reducible refine keeps_foldl ?_ _ ?_

/-- `State.tryForm` keeps. -/
theorem State.tryForm_keeps {s0 : State} (s : State) (sys : Bool) (seq : Nat) (h : Keeps s0 s) : Keeps s0 (State.tryForm s sys seq) := by
  unfold State.tryForm
  repeat' first
    | with_reducible assumption
    | with_reducible apply State.completeOp_keeps
    | with_reducible apply State.sendDown_keeps
    | with_reducible apply State.sendTree_keeps
    | (extract_lets +onlyGivenNames t; (with_reducible refine keeps_cut (s0 := s0) (t := t) ?_ ?_); rotate_left; intro ht; (try clear_value t); rotate_left; subst t)
    | extract_lets +onlyGivenNames t
    | ((with_reducible refine keeps_of_mk ?_); (with_reducible refine keeps_of ?_); with_reducible assumption)
    | split

/-- `State.contribute` keeps. -/
theorem State.contribute_keeps {s0 : State} (s : State) (sys : Bool) (child : Option Nat) (b : OpBlock) (h : Keeps s0 s) : Keeps s0 (State.contribute s sys child b) := by
  unfold State.contribute
  repeat' first
    | with_reducible assumption
    | with_reducible apply State.tryForm_keeps
    | extract_lets +onlyGivenNames t
    | ((with_reducible refine keeps_of_mk ?_); (with_reducible refine keeps_of ?_); with_reducible assumption)
    | dsimp -zeta only
    | split

/-- `State.postSys` keeps. -/
theorem State.postSys_keeps {s0 : State} (s : State) (kind : SysKind) (ops : List Nat) (vals : List Nat) (h : Keeps s0 s) : Keeps s0 (State.postSys s kind ops vals) := by
  unfold State.postSys
  repeat' first
    | with_reducible apply State.contribute_keeps
    | extract_lets +onlyGivenNames t
    | ((with_reducible refine keeps_of_mk ?_); (with_reducible refine keeps_of ?_); with_reducible assumption)

/-- `State.tryBarrier` keeps. -/
theorem State.tryBarrier_keeps {s0 : State} (s : State) (h : Keeps s0 s) : Keeps s0 (State.tryBarrier s) := by
  unfold State.tryBarrier
  repeat' first
    | with_reducible assumption
    | with_reducible apply State.formAfford_keeps
    | with_reducible apply State.postSys_keeps
    | (extract_lets +onlyGivenNames t; (with_reducible refine keeps_cut (s0 := s0) (t := t) ?_ ?_); rotate_left; intro ht; (try clear_value t); rotate_left; subst t)
    | (extract_lets +onlyGivenNames t; have f : State → _ := t; clear f; subst t)
    | extract_lets +onlyGivenNames t
    | ((with_reducible refine keeps_of_mk ?_); (with_reducible refine keeps_of ?_); with_reducible assumption)
    | dsimp -zeta only
    | split

/-- `State.enterVerdict` keeps. -/
theorem State.enterVerdict_keeps {s0 : State} (s : State) (h : Keeps s0 s) : Keeps s0 (State.enterVerdict s) := by
  unfold State.enterVerdict
  repeat' first
    | with_reducible assumption
    | with_reducible apply State.closeWindow_keeps
    | with_reducible apply State.postSys_keeps
    | extract_lets +onlyGivenNames t
    | (simp only [keeps_mk]; with_reducible refine keeps_of ?_)

/-- `State.tryEndPhase` keeps. -/
theorem State.tryEndPhase_keeps {s0 : State} (s : State) (h : Keeps s0 s) : Keeps s0 (State.tryEndPhase s) := by
  unfold State.tryEndPhase
  repeat' first
    | with_reducible assumption
    | with_reducible apply State.measureEnd_keeps
    | with_reducible apply State.formDelta_keeps
    | with_reducible apply State.tryBarrier_keeps
    | with_reducible apply State.enterBarrier_keeps
    | with_reducible apply State.enterVerdict_keeps
    | with_reducible apply State.beginPhase_keeps
    | (extract_lets +onlyGivenNames t; (with_reducible refine keeps_cut (s0 := s0) (t := t) ?_ ?_); rotate_left; intro ht; (try clear_value t); rotate_left; subst t)
    | extract_lets +onlyGivenNames t
    | split
    | (clear_value *; split)

/-- `State.onceRx` keeps. -/
theorem State.onceRx_keeps {s0 : State} (s : State) (lane : Nat) (p : Packet) (seq : Nat) (f : State → State) (hf : ∀ y0, Keeps s0 y0 → Keeps s0 (f y0)) (h : Keeps s0 s) : Keeps s0 (State.onceRx s lane p seq f) := by
  unfold State.onceRx
  repeat' first
    | with_reducible assumption
    | with_reducible apply State.takeRx_keeps
    | with_reducible apply State.firstCopy_keeps
    | with_reducible apply State.dropCopy_keeps
    | with_reducible apply hf
    | extract_lets +onlyGivenNames t
    | split
    | with_reducible refine of_some_eq (by assumption) ?_

/-- `execHUp` keeps. -/
theorem execHUp_keeps {s0 : State} (lane : Fin 144) (p : Packet) (s : State) (h : Keeps s0 s) : KeepsRes s0 (execHUp lane p s) := by
  unfold execHUp
  repeat' first
    | intro _
    | with_reducible assumption
    | with_reducible apply State.onceRx_keeps
    | with_reducible apply State.sendTree_keeps
    | with_reducible apply State.contribute_keeps
    | extract_lets +onlyGivenNames t
    | with_reducible refine keepsRes_next ?_
    | split

/-- `execHDown` keeps. -/
theorem execHDown_keeps {s0 : State} (lane : Fin 144) (p : Packet) (s : State) (h : Keeps s0 s) : KeepsRes s0 (execHDown lane p s) := by
  unfold execHDown
  repeat' first
    | intro _
    | with_reducible assumption
    | with_reducible apply State.onceRx_keeps
    | with_reducible apply State.completeOp_keeps
    | with_reducible apply State.sendDown_keeps
    | extract_lets +onlyGivenNames t
    | with_reducible refine keepsRes_next ?_
    | split

/-- `State.sendStop` keeps. -/
theorem State.sendStop_keeps {s0 : State} (s : State) (but : Option Nat) (h : Keeps s0 s) : Keeps s0 (State.sendStop s but) := by
  unfold State.sendStop
  repeat' first
    | intro _
    | with_reducible assumption
    | with_reducible apply State.sendTree_keeps
    | with_reducible refine keeps_foldl ?_ _ ?_

/-- `execHStop` keeps. -/
theorem execHStop_keeps {s0 : State} (lane : Fin 144) (p : Packet) (s : State) (h : Keeps s0 s) : KeepsRes s0 (execHStop lane p s) := by
  unfold execHStop
  repeat' first
    | intro _
    | with_reducible assumption
    | with_reducible apply State.onceRx_keeps
    | with_reducible apply State.sendStop_keeps
    | (extract_lets +onlyGivenNames t; (with_reducible refine keeps_cut (s0 := s0) (t := t) ?_ ?_); rotate_left; intro ht; (try clear_value t); rotate_left; subst t)
    | extract_lets +onlyGivenNames t
    | ((with_reducible refine keeps_of_mk ?_); (with_reducible refine keeps_of ?_); with_reducible assumption)
    | with_reducible refine keepsRes_next ?_
    | split

/-- `execHUpResend` keeps. -/
theorem execHUpResend_keeps {s0 : State} (sys : Bool) (seq : Sys2Proof.W32) (s : State) (h : Keeps s0 s) : KeepsRes s0 (execHUpResend sys seq s) := by
  unfold execHUpResend
  repeat' first
    | with_reducible assumption
    | with_reducible apply State.sendTree_keeps
    | (extract_lets +onlyGivenNames t; (with_reducible refine keeps_cut (s0 := s0) (t := t) ?_ ?_); rotate_left; intro ht; (try clear_value t); rotate_left; subst t)
    | extract_lets +onlyGivenNames t
    | ((with_reducible refine keeps_of_mk ?_); (with_reducible refine keeps_of ?_); with_reducible assumption)
    | with_reducible refine keepsRes_next ?_
    | split

/-- `State.setSlotHp` keeps. -/
theorem State.setSlotHp_keeps {s0 : State} (s : State) (k : Nat) (x : PostSlot) (h : Keeps s0 s) : Keeps s0 (State.setSlotHp s k x) := by
  unfold State.setSlotHp
  repeat' first
    | extract_lets +onlyGivenNames t
    | ((with_reducible refine keeps_of_mk ?_); (with_reducible refine keeps_of ?_); with_reducible assumption)

/-- `State.postSlot` keeps. -/
theorem State.postSlot_keeps {s0 : State} (s : State) (k : Nat) (v : Nat) (h : Keeps s0 s) : Keeps s0 (State.postSlot s k v) := by
  unfold State.postSlot
  repeat' first
    | with_reducible assumption
    | with_reducible apply State.errReserved_keeps
    | with_reducible apply State.setSlotHp_keeps
    | with_reducible apply State.contribute_keeps
    | (extract_lets +onlyGivenNames t; (with_reducible refine keeps_cut (s0 := s0) (t := t) ?_ ?_); rotate_left; intro ht; (try clear_value t); rotate_left; subst t)
    | extract_lets +onlyGivenNames t
    | ((with_reducible refine keeps_of_mk ?_); (with_reducible refine keeps_of ?_); with_reducible assumption)
    | split

/-- `execHpCtl` keeps. -/
theorem execHpCtl_keeps {s0 : State} (c : BitVec 8) (slot : Fin 8) (v : Sys2Proof.W64) (s : State) (h : Keeps s0 s) : KeepsRes s0 (execHpCtl c slot v s) := by
  unfold execHpCtl
  repeat' first
    | with_reducible assumption
    | with_reducible apply State.postSlot_keeps
    | extract_lets +onlyGivenNames t
    | with_reducible refine keepsRes_next ?_
    | split

/-- `State.loadClusters` keeps. -/
theorem State.loadClusters_keeps {s0 : State} (s : State) (first : Nat) (h : Keeps s0 s) : Keeps s0 (State.loadClusters s first) := by
  unfold State.loadClusters
  repeat' first
    | intro _
    | with_reducible assumption
    | with_reducible apply State.modCl_keeps
    | with_reducible apply State.flushCache_keeps
    | with_reducible refine keeps_foldl ?_ _ ?_

/-- `State.startClusters` keeps. -/
theorem State.startClusters_keeps {s0 : State} (s : State) (h : Keeps s0 s) : Keeps s0 (State.startClusters s) := by
  unfold State.startClusters
  repeat' first
    | intro _
    | with_reducible assumption
    | with_reducible apply State.modCl_keeps
    | with_reducible refine keeps_foldl ?_ _ ?_

/-- `State.setWindow` keeps. -/
theorem State.setWindow_keeps {s0 : State} (s : State) (w : Nat) (st : Nat) (h : Keeps s0 s) : Keeps s0 (State.setWindow s w st) := by
  unfold State.setWindow
  repeat' first
    | with_reducible assumption
    | with_reducible apply State.store_keeps

/-- `State.windowArrival` keeps. -/
theorem State.windowArrival_keeps {s0 : State} (s : State) (w : Nat) (h : Keeps s0 s) : Keeps s0 (State.windowArrival s w) := by
  unfold State.windowArrival
  repeat' first
    | with_reducible assumption
    | with_reducible apply State.arriveIf_keeps

/-- `State.failWindows` keeps. -/
theorem State.failWindows_keeps {s0 : State} (s : State) (sel : Nat → Bool) (arrival : Bool) (h : Keeps s0 s) : Keeps s0 (State.failWindows s sel arrival) := by
  unfold State.failWindows
  repeat' first
    | intro _
    | with_reducible assumption
    | with_reducible apply State.setWindow_keeps
    | with_reducible apply State.windowArrival_keeps
    | (extract_lets +onlyGivenNames t; (with_reducible refine keeps_cut (s0 := s0) (t := t) ?_ ?_); rotate_left; intro ht; (try clear_value t); rotate_left; subst t)
    | with_reducible refine keeps_foldl ?_ _ ?_
    | split

/-- `State.pauseJob` keeps. -/
theorem State.pauseJob_keeps {s0 : State} (s : State) (h : Keeps s0 s) : Keeps s0 (State.pauseJob s) := by
  unfold State.pauseJob
  repeat' first
    | with_reducible assumption
    | with_reducible apply State.event_keeps
    | extract_lets +onlyGivenNames t
    | ((with_reducible refine keeps_of_mk ?_); (with_reducible refine keeps_of ?_); with_reducible assumption)
    | split

/-- `State.resumeJob` keeps. -/
theorem State.resumeJob_keeps {s0 : State} (s : State) (h : Keeps s0 s) : Keeps s0 (State.resumeJob s) := by
  unfold State.resumeJob
  repeat' first
    | with_reducible assumption
    | with_reducible apply State.tryBarrier_keeps
    | with_reducible apply State.tryEndPhase_keeps
    | with_reducible apply State.startClusters_keeps
    | (extract_lets +onlyGivenNames t; (with_reducible refine keeps_cut (s0 := s0) (t := t) ?_ ?_); rotate_left; intro ht; (try clear_value t); rotate_left; subst t)
    | extract_lets +onlyGivenNames t
    | ((with_reducible refine keeps_of_mk ?_); (with_reducible refine keeps_of ?_); with_reducible assumption)
    | split

/-- `State.dropPosts` keeps. -/
theorem State.dropPosts_keeps {s0 : State} (s : State) (h : Keeps s0 s) : Keeps s0 (State.dropPosts s) := by
  unfold State.dropPosts
  repeat' first
    | extract_lets +onlyGivenNames t
    | ((with_reducible refine keeps_of_mk ?_); (with_reducible refine keeps_of ?_); with_reducible assumption)

/-- `State.abortOps` keeps. -/
theorem State.abortOps_keeps {s0 : State} (s : State) (h : Keeps s0 s) : Keeps s0 (State.abortOps s) := by
  unfold State.abortOps
  repeat' first
    | extract_lets +onlyGivenNames t
    | ((with_reducible refine keeps_of_mk ?_); (with_reducible refine keeps_of ?_); with_reducible assumption)

/-- `State.powerIdles` keeps. -/
theorem State.powerIdles_keeps {s0 : State} (s : State) (h : Keeps s0 s) : Keeps s0 (State.powerIdles s) := by
  unfold State.powerIdles
  repeat' first
    | with_reducible apply State.requestIdle_keeps
    | extract_lets +onlyGivenNames t
    | ((with_reducible refine keeps_of_mk ?_); (with_reducible refine keeps_of ?_); with_reducible assumption)

/-- `State.stopJob` keeps. -/
theorem State.stopJob_keeps {s0 : State} (s : State) (h : Keeps s0 s) : Keeps s0 (State.stopJob s) := by
  unfold State.stopJob
  repeat' first
    | with_reducible assumption
    | with_reducible apply State.sendStop_keeps
    | with_reducible apply State.dropClaims_keeps
    | with_reducible apply State.failWindows_keeps
    | with_reducible apply State.abortOps_keeps
    | with_reducible apply State.dropPosts_keeps
    | with_reducible apply State.haltAll_keeps
    | with_reducible apply State.rollback_keeps
    | with_reducible apply State.event_keeps
    | with_reducible apply State.powerIdles_keeps
    | extract_lets +onlyGivenNames t
    | split
    | (simp only [keeps_mk]; with_reducible refine keeps_of ?_)

/-- `State.rerun` keeps. -/
theorem State.rerun_keeps {s0 : State} (s : State) (h : Keeps s0 s) : Keeps s0 (State.rerun s) := by
  unfold State.rerun
  repeat' first
    | with_reducible assumption
    | with_reducible apply State.rollback_keeps
    | with_reducible apply State.abortOps_keeps
    | with_reducible apply State.dropPosts_keeps
    | with_reducible apply State.haltAll_keeps
    | with_reducible apply State.startClusters_keeps
    | with_reducible apply State.loadClusters_keeps
    | with_reducible apply State.tryBarrier_keeps
    | extract_lets +onlyGivenNames t
    | (simp only [keeps_mk]; with_reducible refine keeps_of ?_)

/-- `State.modBinding` keeps. -/
theorem State.modBinding_keeps {s0 : State} (s : State) (f : Binding → Binding) (h : Keeps s0 s) : Keeps s0 (State.modBinding s f) := by
  unfold State.modBinding
  repeat' first
    | extract_lets +onlyGivenNames t
    | ((with_reducible refine keeps_of_mk ?_); (with_reducible refine keeps_of ?_); with_reducible assumption)

/-- `State.xorBackup` keeps. -/
theorem State.xorBackup_keeps {s0 : State} (s : State) (b : Binding) (r : Record) (h : Keeps s0 s) : Keeps s0 (State.xorBackup s b r) := by
  unfold State.xorBackup
  repeat' first
    | with_reducible assumption
    | with_reducible apply State.store_keeps

/-- `State.revertBackup` keeps. -/
theorem State.revertBackup_keeps {s0 : State} (s : State) (c : Nat) (h : Keeps s0 s) : Keeps s0 (State.revertBackup s c) := by
  unfold State.revertBackup
  repeat' first
    | intro _
    | with_reducible assumption
    | with_reducible apply State.xorBackup_keeps
    | with_reducible apply State.modBinding_keeps
    | extract_lets +onlyGivenNames t
    | with_reducible refine keeps_foldl ?_ _ ?_
    | split

/-- `State.tryStepAck` keeps. -/
theorem State.tryStepAck_keeps {s0 : State} (s : State) (h : Keeps s0 s) : Keeps s0 (State.tryStepAck s) := by
  unfold State.tryStepAck
  repeat' first
    | with_reducible assumption
    | with_reducible apply State.modBinding_keeps
    | with_reducible apply State.sendRecord_keeps
    | (extract_lets +onlyGivenNames t; (with_reducible refine keeps_cut (s0 := s0) (t := t) ?_ ?_); rotate_left; intro ht; (try clear_value t); rotate_left; subst t)
    | split

/-- `State.twinLost` keeps. -/
theorem State.twinLost_keeps {s0 : State} (s : State) (h : Keeps s0 s) : Keeps s0 (State.twinLost s) := by
  unfold State.twinLost
  repeat' first
    | with_reducible apply State.event_keeps
    | extract_lets +onlyGivenNames t
    | ((with_reducible refine keeps_of_mk ?_); (with_reducible refine keeps_of ?_); with_reducible assumption)

/-- `execPhaseArrive` keeps. -/
theorem execPhaseArrive_keeps {s0 : State} (c : BitVec 8) (v : Sys2Proof.W64) (s : State) (h : Keeps s0 s) : KeepsRes s0 (execPhaseArrive c v s) := by
  unfold execPhaseArrive
  repeat' first
    | with_reducible assumption
    | with_reducible apply State.tryEndPhase_keeps
    | extract_lets +onlyGivenNames t
    | ((with_reducible refine keeps_of_mk ?_); (with_reducible refine keeps_of ?_); with_reducible assumption)
    | with_reducible refine keepsRes_next ?_
    | split

/-- `execPreimageCopyComplete` keeps. -/
theorem execPreimageCopyComplete_keeps {s0 : State} (s : State) (h : Keeps s0 s) : KeepsRes s0 (execPreimageCopyComplete s) := by
  unfold execPreimageCopyComplete
  repeat' first
    | with_reducible assumption
    | with_reducible apply State.tryEndPhase_keeps
    | with_reducible apply State.setGen_keeps
    | with_reducible apply State.copyImage_keeps
    | extract_lets +onlyGivenNames t
    | with_reducible refine keepsRes_next ?_
    | split

/-- `execPubDoorbell` keeps. -/
theorem execPubDoorbell_keeps {s0 : State} (c : BitVec 8) (v : Sys2Proof.W64) (s : State) (h : Keeps s0 s) : KeepsRes s0 (execPubDoorbell c v s) := by
  unfold execPubDoorbell
  repeat' first
    | with_reducible assumption
    | with_reducible apply State.errReserved_keeps
    | with_reducible apply State.arriveIf_keeps
    | with_reducible apply State.err_keeps
    | (extract_lets +onlyGivenNames t; (with_reducible refine keeps_cut (s0 := s0) (t := t) ?_ ?_); rotate_left; intro ht; (try clear_value t); rotate_left; subst t)
    | extract_lets +onlyGivenNames t
    | ((with_reducible refine keeps_of_mk ?_); (with_reducible refine keeps_of ?_); with_reducible assumption)
    | with_reducible refine keepsRes_next ?_
    | split

/-- `execPublicationRecordWrite` keeps. -/
theorem execPublicationRecordWrite_keeps {s0 : State} (slot : Nat) (s : State) (h : Keeps s0 s) : KeepsRes s0 (execPublicationRecordWrite slot s) := by
  unfold execPublicationRecordWrite
  repeat' first
    | with_reducible assumption
    | with_reducible apply State.publish_keeps
    | with_reducible apply State.arriveIf_keeps
    | (extract_lets +onlyGivenNames t; (with_reducible refine keeps_cut (s0 := s0) (t := t) ?_ ?_); rotate_left; intro ht; (try clear_value t); rotate_left; subst t)
    | extract_lets +onlyGivenNames t
    | ((with_reducible refine keeps_of_mk ?_); (with_reducible refine keeps_of ?_); with_reducible assumption)
    | with_reducible refine keepsRes_next ?_
    | split

/-- `State.modFetch` keeps. -/
theorem State.modFetch_keeps {s0 : State} (s : State) (post : Nat) (f : Fetch → Fetch) (h : Keeps s0 s) : Keeps s0 (State.modFetch s post f) := by
  unfold State.modFetch
  repeat' first
    | extract_lets +onlyGivenNames t
    | ((with_reducible refine keeps_of_mk ?_); (with_reducible refine keeps_of ?_); with_reducible assumption)

/-- `State.fetchImage` keeps. -/
theorem State.fetchImage_keeps {s0 : State} (s : State) (f : Fetch) (p : Post) (e : Shard) (h : Keeps s0 s) : Keeps s0 (State.fetchImage s f p e) := by
  unfold State.fetchImage
  repeat' first
    | with_reducible assumption
    | with_reducible apply State.sendOp_keeps

/-- `State.fetchGot` keeps. -/
theorem State.fetchGot_keeps {s0 : State} (s : State) (post : Nat) (rec : List Sys2Proof.Byte) (h : Keeps s0 s) : Keeps s0 (State.fetchGot s post rec) := by
  unfold State.fetchGot
  repeat' first
    | with_reducible assumption
    | with_reducible apply State.modFetch_keeps
    | with_reducible apply State.postFail_keeps
    | with_reducible apply State.fetchImage_keeps
    | extract_lets +onlyGivenNames t
    | split

/-- `execVerifiedFetchRecheck` keeps. -/
theorem execVerifiedFetchRecheck_keeps {s0 : State} (post : Nat) (s : State) (h : Keeps s0 s) : KeepsRes s0 (execVerifiedFetchRecheck post s) := by
  unfold execVerifiedFetchRecheck
  repeat' first
    | with_reducible assumption
    | with_reducible apply State.fetchRecord_keeps
    | with_reducible apply State.modFetch_keeps
    | extract_lets +onlyGivenNames t
    | with_reducible refine keepsRes_next ?_
    | split

/-- `execVerifiedFetchDigest` keeps. -/
theorem execVerifiedFetchDigest_keeps {s0 : State} (post : Nat) (s : State) (h : Keeps s0 s) : KeepsRes s0 (execVerifiedFetchDigest post s) := by
  unfold execVerifiedFetchDigest
  repeat' first
    | with_reducible assumption
    | with_reducible apply State.load_keeps
    | with_reducible apply State.devFault_keeps
    | with_reducible apply State.modFetch_keeps
    | with_reducible apply State.total_keeps
    | with_reducible apply State.fetchImage_keeps
    | (extract_lets +onlyGivenNames t; (with_reducible refine keeps_cut (s0 := s0) (t := t) ?_ ?_); rotate_left; intro ht; (try clear_value t); rotate_left; subst t)
    | extract_lets +onlyGivenNames t
    | ((with_reducible refine keeps_of_mk ?_); (with_reducible refine keeps_of ?_); with_reducible assumption)
    | with_reducible refine keepsRes_next ?_
    | dsimp -zeta only
    | split

/-- `State.countDiff` keeps. -/
theorem State.countDiff_keeps {s0 : State} (s : State) (value : Bool) (h : Keeps s0 s) : Keeps s0 (State.countDiff s value) := by
  unfold State.countDiff
  repeat' first
    | with_reducible apply State.total_keeps
    | extract_lets +onlyGivenNames t
    | ((with_reducible refine keeps_of_mk ?_); (with_reducible refine keeps_of ?_); with_reducible assumption)
    | split

/-- `State.resolveUnit` keeps. -/
theorem State.resolveUnit_keeps {s0 : State} (s : State) (e : Shard) (owner : List Sys2Proof.Byte) (twin : List Sys2Proof.Byte) (k : Nat) (h : Keeps s0 s) : Keeps s0 (State.resolveUnit s e owner twin k).1:= by
  unfold State.resolveUnit
  repeat' first
    | with_reducible assumption
    | with_reducible apply State.store_keeps
    | with_reducible apply State.err_keeps
    | with_reducible apply State.countDiff_keeps
    | (extract_lets +onlyGivenNames t; have f : State → _ := t; clear f; subst t)
    | extract_lets +onlyGivenNames t
    | dsimp -zeta only
    | split

/-- `execMismatchResolution` keeps. -/
theorem execMismatchResolution_keeps {s0 : State} (post : Nat) (owner : List Sys2Proof.Byte) (twin : List Sys2Proof.Byte) (s : State) (h : Keeps s0 s) : KeepsRes s0 (execMismatchResolution post owner twin s) := by
  unfold execMismatchResolution
  repeat' first
    | intro _
    | with_reducible assumption
    | with_reducible apply State.resolveUnit_keeps
    | with_reducible apply State.pauseJob_keeps
    | with_reducible apply State.event_keeps
    | with_reducible apply State.modFetch_keeps
    | with_reducible apply State.devFault_keeps
    | extract_lets +onlyGivenNames t
    | with_reducible refine keeps_foldl_fst ?_ _ ?_
    | with_reducible refine keepsRes_next ?_
    | dsimp -zeta only
    | split

/-- `execStall` keeps. -/
theorem execStall_keeps {s0 : State} (s : State) (h : Keeps s0 s) : KeepsRes s0 (execStall s) := by
  unfold execStall
  repeat' first
    | with_reducible assumption
    | with_reducible apply State.event_keeps
    | extract_lets +onlyGivenNames t
    | ((with_reducible refine keeps_of_mk ?_); (with_reducible refine keeps_of ?_); with_reducible assumption)
    | with_reducible refine keepsRes_next ?_
    | split

/-- `execFailureHandling` keeps. -/
theorem execFailureHandling_keeps {s0 : State} (s : State) (h : Keeps s0 s) : KeepsRes s0 (execFailureHandling s) := by
  unfold execFailureHandling
  repeat' first
    | with_reducible assumption
    | with_reducible apply State.rerun_keeps
    | with_reducible apply State.stopJob_keeps
    | extract_lets +onlyGivenNames t
    | with_reducible refine keepsRes_next ?_
    | split

/-- `execJobPauseNotice` keeps. -/
theorem execJobPauseNotice_keeps {s0 : State} (s : State) (h : Keeps s0 s) : KeepsRes s0 (execJobPauseNotice s) := by
  unfold execJobPauseNotice
  repeat' first
    | with_reducible assumption
    | with_reducible apply State.pauseJob_keeps
    | with_reducible refine keepsRes_next ?_

/-- `execJobResumeNotice` keeps. -/
theorem execJobResumeNotice_keeps {s0 : State} (s : State) (h : Keeps s0 s) : KeepsRes s0 (execJobResumeNotice s) := by
  unfold execJobResumeNotice
  repeat' first
    | with_reducible assumption
    | with_reducible apply State.resumeJob_keeps
    | with_reducible refine keepsRes_next ?_

/-- `State.logRecord` keeps. -/
theorem State.logRecord_keeps {s0 : State} (s : State) (r : Record) (h : Keeps s0 s) : Keeps s0 (State.logRecord s r) := by
  unfold State.logRecord
  repeat' first
    | with_reducible assumption
    | with_reducible apply State.tryStepAck_keeps
    | with_reducible apply State.modBinding_keeps

/-- `execDeltaRecord` keeps. -/
theorem execDeltaRecord_keeps {s0 : State} (r : Record) (s : State) (h : Keeps s0 s) : KeepsRes s0 (execDeltaRecord r s) := by
  unfold execDeltaRecord
  repeat' first
    | with_reducible assumption
    | with_reducible apply State.twinLost_keeps
    | with_reducible apply State.sendRecord_keeps
    | with_reducible apply State.logRecord_keeps
    | with_reducible apply State.xorBackup_keeps
    | (extract_lets +onlyGivenNames t; have f : _ → State := t; clear f; subst t)
    | extract_lets +onlyGivenNames t
    | with_reducible refine keepsRes_next ?_
    | dsimp -zeta only
    | split

/-- `execFullRecord` keeps. -/
theorem execFullRecord_keeps {s0 : State} (r : Record) (s : State) (h : Keeps s0 s) : KeepsRes s0 (execFullRecord r s) := by
  unfold execFullRecord
  repeat' first
    | with_reducible assumption
    | with_reducible apply State.twinLost_keeps
    | with_reducible apply State.err_keeps
    | with_reducible apply State.total_keeps
    | with_reducible apply State.event_keeps
    | with_reducible apply State.store_keeps
    | with_reducible apply State.devFault_keeps
    | with_reducible apply State.logRecord_keeps
    | (extract_lets +onlyGivenNames t; (with_reducible refine keeps_cut (s0 := s0) (t := t) ?_ ?_); rotate_left; intro ht; (try clear_value t); rotate_left; subst t)
    | extract_lets +onlyGivenNames t
    | ((with_reducible refine keeps_of_mk ?_); (with_reducible refine keeps_of ?_); with_reducible assumption)
    | with_reducible refine keepsRes_next ?_
    | split

/-- `execEndRecord` keeps. -/
theorem execEndRecord_keeps {s0 : State} (r : Record) (s : State) (h : Keeps s0 s) : KeepsRes s0 (execEndRecord r s) := by
  unfold execEndRecord
  repeat' first
    | with_reducible assumption
    | with_reducible apply State.tryStepAck_keeps
    | with_reducible apply State.modBinding_keeps
    | extract_lets +onlyGivenNames t
    | with_reducible refine keepsRes_next ?_
    | split

/-- `execCommitRecord` keeps. -/
theorem execCommitRecord_keeps {s0 : State} (r : Record) (s : State) (h : Keeps s0 s) : KeepsRes s0 (execCommitRecord r s) := by
  unfold execCommitRecord
  repeat' first
    | with_reducible assumption
    | with_reducible apply State.modBinding_keeps
    | extract_lets +onlyGivenNames t
    | with_reducible refine keepsRes_next ?_
    | split

/-- `execRollbackRecord` keeps. -/
theorem execRollbackRecord_keeps {s0 : State} (r : Record) (s : State) (h : Keeps s0 s) : KeepsRes s0 (execRollbackRecord r s) := by
  unfold execRollbackRecord
  repeat' first
    | with_reducible assumption
    | with_reducible apply State.sendRecord_keeps
    | with_reducible apply State.revertBackup_keeps
    | extract_lets +onlyGivenNames t
    | with_reducible refine keepsRes_next ?_
    | split

/-- `execStepAck` keeps. -/
theorem execStepAck_keeps {s0 : State} (r : Record) (s : State) (h : Keeps s0 s) : KeepsRes s0 (execStepAck r s) := by
  unfold execStepAck
  repeat' first
    | with_reducible assumption
    | with_reducible apply State.tryEnded_keeps
    | with_reducible apply State.tryBarrier_keeps
    | with_reducible apply State.ackIdle_keeps
    | with_reducible apply State.releaseFormed_keeps
    | (extract_lets +onlyGivenNames t; (with_reducible refine keeps_cut (s0 := s0) (t := t) ?_ ?_); rotate_left; intro ht; (try clear_value t); rotate_left; subst t)
    | extract_lets +onlyGivenNames t
    | ((with_reducible refine keeps_of_mk ?_); (with_reducible refine keeps_of ?_); with_reducible assumption)
    | with_reducible refine keepsRes_next ?_
    | split

/-- `execNakNew` keeps. -/
theorem execNakNew_keeps {s0 : State} (r : Record) (s : State) (h : Keeps s0 s) : KeepsRes s0 (execNakNew r s) := by
  unfold execNakNew
  repeat' first
    | with_reducible assumption
    | with_reducible apply State.total_keeps
    | with_reducible apply State.resend_keeps
    | (extract_lets +onlyGivenNames t; (with_reducible refine keeps_cut (s0 := s0) (t := t) ?_ ?_); rotate_left; intro ht; (try clear_value t); rotate_left; subst t)
    | extract_lets +onlyGivenNames t
    | ((with_reducible refine keeps_of_mk ?_); (with_reducible refine keeps_of ?_); with_reducible assumption)
    | with_reducible refine keepsRes_next ?_
    | split

/-- `execNakOld` keeps. -/
theorem execNakOld_keeps {s0 : State} (r : Record) (s : State) (h : Keeps s0 s) : KeepsRes s0 (execNakOld r s) := by
  unfold execNakOld
  repeat' first
    | with_reducible assumption
    | with_reducible apply State.total_keeps
    | with_reducible apply State.resend_keeps
    | (extract_lets +onlyGivenNames t; (with_reducible refine keeps_cut (s0 := s0) (t := t) ?_ ?_); rotate_left; intro ht; (try clear_value t); rotate_left; subst t)
    | extract_lets +onlyGivenNames t
    | ((with_reducible refine keeps_of_mk ?_); (with_reducible refine keeps_of ?_); with_reducible assumption)
    | with_reducible refine keepsRes_next ?_
    | split

/-- `State.runTwinless` keeps. -/
theorem State.runTwinless_keeps {s0 : State} (s : State) (h : Keeps s0 s) : Keeps s0 (State.runTwinless s) := by
  unfold State.runTwinless
  repeat' first
    | intro _
    | with_reducible assumption
    | with_reducible apply State.exportRecord_keeps
    | with_reducible apply State.tryEnded_keeps
    | with_reducible apply State.tryBarrier_keeps
    | with_reducible apply State.ackIdle_keeps
    | (extract_lets +onlyGivenNames t; (with_reducible refine keeps_cut (s0 := s0) (t := t) ?_ ?_); rotate_left; intro ht; (try clear_value t); rotate_left; subst t)
    | extract_lets +onlyGivenNames t
    | ((with_reducible refine keeps_of_mk ?_); (with_reducible refine keeps_of ?_); with_reducible assumption)
    | with_reducible refine keeps_foldl ?_ _ ?_
    | split

/-- `execTwinless` keeps. -/
theorem execTwinless_keeps {s0 : State} (s : State) (h : Keeps s0 s) : KeepsRes s0 (execTwinless s) := by
  unfold execTwinless
  repeat' first
    | with_reducible assumption
    | with_reducible apply State.runTwinless_keeps
    | with_reducible apply State.twinLost_keeps
    | extract_lets +onlyGivenNames t
    | with_reducible refine keepsRes_next ?_
    | split

/-- `execExportLag` keeps. -/
theorem execExportLag_keeps {s0 : State} (s : State) (h : Keeps s0 s) : KeepsRes s0 (execExportLag s) := by
  unfold execExportLag
  repeat' first
    | with_reducible assumption
    | with_reducible apply State.event_keeps
    | with_reducible apply State.err_keeps
    | extract_lets +onlyGivenNames t
    | ((with_reducible refine keeps_of_mk ?_); (with_reducible refine keeps_of ?_); with_reducible assumption)
    | with_reducible refine keepsRes_next ?_
    | split

/-- `execSourceRestoreRequest` keeps. -/
theorem execSourceRestoreRequest_keeps {s0 : State} (failed : Nat) (replacement : Nat) (target : Nat) (s : State) (h : Keeps s0 s) : KeepsRes s0 (execSourceRestoreRequest failed replacement target s) := by
  unfold execSourceRestoreRequest
  repeat' first
    | intro _
    | with_reducible assumption
    | with_reducible apply State.revertBackup_keeps
    | with_reducible apply State.sendRecord_keeps
    | with_reducible apply State.event_keeps
    | (extract_lets +onlyGivenNames t; (with_reducible refine keeps_cut (s0 := s0) (t := t) ?_ ?_); rotate_left; intro ht; (try clear_value t); rotate_left; subst t)
    | extract_lets +onlyGivenNames t
    | ((with_reducible refine keeps_of_mk ?_); (with_reducible refine keeps_of ?_); with_reducible assumption)
    | with_reducible refine keeps_foldl ?_ _ ?_
    | with_reducible refine keepsRes_next ?_
    | split

end Sys2Proof.Machine
end

