-- ==== Sys2Proof/Laws/KeepsFabric.lean ====
section
/-!
SUPPORT. Memory system, lanes, Ilric, clocks, tick and Relay: each operation keeps (Keeps of Sys2Proof/Safety.lean).
-/
namespace Sys2Proof.Machine

set_option Elab.async false
set_option linter.tactic.unusedName false

/-- `State.loadPoison` keeps. -/
theorem State.loadPoison_keeps {s0 : State} (s : State) (c : Nat) (a : Nat) (h : Keeps s0 s) : Keeps s0 (State.loadPoison s c a) := by
  unfold State.loadPoison
  repeat' first
    | with_reducible assumption
    | with_reducible apply State.err_keeps
    | with_reducible apply State.ifault_keeps
    | with_reducible apply State.notice_keeps

/-- `State.loadDone` keeps. -/
theorem State.loadDone_keeps {s0 : State} (s : State) (c : Nat) (w : Nat) (v : Nat) (h : Keeps s0 s) : Keeps s0 (State.loadDone s c w v) := by
  unfold State.loadDone
  repeat' first
    | with_reducible assumption
    | with_reducible apply State.modCl_keeps

/-- `State.cacheLoad` keeps. -/
theorem State.cacheLoad_keeps {s0 : State} (s : State) (c : Nat) (w : Nat) (a : Nat) (x : CacheLine) (h : Keeps s0 s) : Keeps s0 (State.cacheLoad s c w a x) := by
  unfold State.cacheLoad
  repeat' first
    | with_reducible assumption
    | with_reducible apply State.loadPoison_keeps
    | with_reducible apply State.loadDone_keeps
    | split

/-- `State.askLine` keeps. -/
theorem State.askLine_keeps {s0 : State} (s : State) (c : Nat) (w : Nat) (line : Nat) (own : Bool) (h : Keeps s0 s) : Keeps s0 (State.askLine s c w line own) := by
  unfold State.askLine
  repeat' first
    | with_reducible assumption
    | with_reducible apply State.modCl_keeps
    | with_reducible apply State.setSlice_keeps

/-- `State.scalarHbm` keeps. -/
theorem State.scalarHbm_keeps {s0 : State} (s : State) (c : Nat) (w : Nat) (h : Keeps s0 s) : Keeps s0 (State.scalarHbm s c w) := by
  unfold State.scalarHbm
  repeat' first
    | with_reducible assumption
    | with_reducible apply State.askLine_keeps
    | with_reducible apply State.cacheLoad_keeps
    | with_reducible apply State.modCl_keeps
    | extract_lets +onlyGivenNames t
    | split

/-- `State.evictLine` keeps. -/
theorem State.evictLine_keeps {s0 : State} (s : State) (c : Nat) (line : Nat) (h : Keeps s0 s) : Keeps s0 (State.evictLine s c line) := by
  unfold State.evictLine
  repeat' first
    | with_reducible assumption
    | with_reducible apply State.modCl_keeps
    | with_reducible apply State.writeBack_keeps
    | with_reducible apply State.setSlice_keeps
    | split

/-- `State.fillLine` keeps. -/
theorem State.fillLine_keeps {s0 : State} (s : State) (c : Nat) (line : Nat) (st : LineState) (h : Keeps s0 s) : Keeps s0 (State.fillLine s c line st) := by
  unfold State.fillLine
  repeat' first
    | with_reducible assumption
    | (exact h)
    | with_reducible apply State.modCl_keeps
    | with_reducible apply State.evictLine_keeps
    | with_reducible apply State.touch_keeps
    | (extract_lets +onlyGivenNames t; (with_reducible refine keeps_cut (s0 := s0) (t := t) ?_ ?_); rotate_left; intro ht; (try clear_value t); rotate_left; subst t)
    | extract_lets +onlyGivenNames t
    | dsimp -zeta only
    | split

/-- `State.finishLine` keeps. -/
theorem State.finishLine_keeps {s0 : State} (s : State) (c : Nat) (line : Nat) (h : Keeps s0 s) : Keeps s0 (State.finishLine s c line) := by
  unfold State.finishLine
  repeat' first
    | with_reducible assumption
    | with_reducible apply State.scalarHbm_keeps
    | split

/-- `State.makeRoom` keeps. -/
theorem State.makeRoom_keeps {s0 : State} (s : State) (h' : Nat) (line : Nat) (h : Keeps s0 s) : Keeps s0 (State.makeRoom s h' line) := by
  unfold State.makeRoom
  repeat' first
    | with_reducible assumption
    | with_reducible apply State.recallLine_keeps
    | with_reducible apply State.setSlice_keeps
    | extract_lets +onlyGivenNames t
    | split

/-- `State.grant` keeps. -/
theorem State.grant_keeps {s0 : State} (s : State) (h' : Nat) (r : LineReq) (h : Keeps s0 s) : Keeps s0 (State.grant s h' r) := by
  unfold State.grant
  repeat' first
    | intro _
    | with_reducible assumption
    | with_reducible apply State.evictLine_keeps
    | with_reducible apply State.makeRoom_keeps
    | with_reducible apply State.setSlice_keeps
    | with_reducible apply State.finishLine_keeps
    | with_reducible apply State.fillLine_keeps
    | extract_lets +onlyGivenNames t
    | with_reducible refine keeps_foldl ?_ _ ?_
    | split

/-- `execCoherenceRequest` keeps. -/
theorem execCoherenceRequest_keeps {s0 : State} (slice : Fin 24) (s : State) (h : Keeps s0 s) : KeepsRes s0 (execCoherenceRequest slice s) := by
  unfold execCoherenceRequest
  repeat' first
    | with_reducible assumption
    | with_reducible apply State.grant_keeps
    | with_reducible apply State.setSlice_keeps
    | extract_lets +onlyGivenNames t
    | with_reducible refine keepsRes_next ?_
    | split

/-- `execRecallAnswer` keeps. -/
theorem execRecallAnswer_keeps {s0 : State} (slice : Fin 24) (line : Nat) (s : State) (h : Keeps s0 s) : KeepsRes s0 (execRecallAnswer slice line s) := by
  unfold execRecallAnswer
  repeat' first
    | with_reducible assumption
    | with_reducible apply State.grant_keeps
    | with_reducible apply State.evictLine_keeps
    | extract_lets +onlyGivenNames t
    | with_reducible refine keepsRes_next ?_
    | split

/-- `execRegulatorTokenRefill` keeps. -/
theorem execRegulatorTokenRefill_keeps {s0 : State} (s : State) (h : Keeps s0 s) : KeepsRes s0 (execRegulatorTokenRefill s) := by
  unfold execRegulatorTokenRefill
  repeat' first
    | extract_lets +onlyGivenNames t
    | ((with_reducible refine keeps_of_mk ?_); (with_reducible refine keeps_of ?_); with_reducible assumption)
    | with_reducible refine keepsRes_next ?_

/-- `execRegulatorAdmit` keeps. -/
theorem execRegulatorAdmit_keeps {s0 : State} (stack : Fin 12) (s : State) (h : Keeps s0 s) : KeepsRes s0 (execRegulatorAdmit stack s) := by
  unfold execRegulatorAdmit
  repeat' first
    | with_reducible assumption
    | with_reducible apply State.setStack_keeps
    | extract_lets +onlyGivenNames t
    | with_reducible refine keepsRes_next ?_
    | split

/-- `execPatrolScrub` keeps. -/
theorem execPatrolScrub_keeps {s0 : State} (ecc : Ecc) (s : State) (h : Keeps s0 s) : KeepsRes s0 (execPatrolScrub ecc s) := by
  unfold execPatrolScrub
  repeat' first
    | with_reducible assumption
    | with_reducible apply State.notice_keeps
    | with_reducible apply State.ecc_keeps
    | with_reducible apply State.charge_keeps
    | (extract_lets +onlyGivenNames t; have f : State → _ := t; clear f; subst t)
    | extract_lets +onlyGivenNames t
    | ((with_reducible refine keeps_of_mk ?_); (with_reducible refine keeps_of ?_); with_reducible assumption)
    | with_reducible refine keepsRes_next ?_
    | dsimp -zeta only
    | split
    | (simp only [keeps_mk]; with_reducible refine keeps_of ?_)

/-- `State.actTemp` keeps. -/
theorem State.actTemp_keeps {s0 : State} (s : State) (k : Nat) (x : Stack) (t : Nat) (h : Keeps s0 s) : Keeps s0 (State.actTemp s k x t) := by
  unfold State.actTemp
  repeat' first
    | with_reducible assumption
    | with_reducible apply State.setStack_keeps
    | with_reducible apply State.event_keeps
    | with_reducible apply State.err_keeps
    | (extract_lets +onlyGivenNames t; (with_reducible refine keeps_cut (s0 := s0) (t := t) ?_ ?_); rotate_left; intro ht; (try clear_value t); rotate_left; subst t)
    | extract_lets +onlyGivenNames t
    | split

/-- `execStackTempRead` keeps. -/
theorem execStackTempRead_keeps {s0 : State} (stack : Fin 12) (temp : BitVec 8) (s : State) (h : Keeps s0 s) : KeepsRes s0 (execStackTempRead stack temp s) := by
  unfold execStackTempRead
  repeat' first
    | with_reducible assumption
    | with_reducible apply State.actTemp_keeps
    | extract_lets +onlyGivenNames t
    | with_reducible refine keepsRes_next ?_

/-- `execStackTempMissing` keeps. -/
theorem execStackTempMissing_keeps {s0 : State} (stack : Fin 12) (s : State) (h : Keeps s0 s) : KeepsRes s0 (execStackTempMissing stack s) := by
  unfold execStackTempMissing
  repeat' first
    | with_reducible assumption
    | with_reducible apply State.err_keeps
    | with_reducible apply State.actTemp_keeps
    | extract_lets +onlyGivenNames t
    | with_reducible refine keepsRes_next ?_
    | split

/-- `State.leaveUp` keeps. -/
theorem State.leaveUp_keeps {s0 : State} (s : State) (l : Nat) (st : LaneState) (test : Bool) (h : Keeps s0 s) : Keeps s0 (State.leaveUp s l st test) := by
  unfold State.leaveUp
  repeat' first
    | with_reducible assumption
    | with_reducible apply State.setLane_keeps
    | with_reducible apply State.event_keeps
    | (extract_lets +onlyGivenNames t; (with_reducible refine keeps_cut (s0 := s0) (t := t) ?_ ?_); rotate_left; intro ht; (try clear_value t); rotate_left; subst t)
    | extract_lets +onlyGivenNames t
    | ((with_reducible refine keeps_of_mk ?_); (with_reducible refine keeps_of ?_); with_reducible assumption)
    | split

/-- `State.pumpAll` keeps. -/
theorem State.pumpAll_keeps {s0 : State} (s : State) (h : Keeps s0 s) : Keeps s0 (State.pumpAll s) := by
  unfold State.pumpAll
  repeat' first
    | intro _
    | with_reducible assumption
    | with_reducible apply State.pump_keeps
    | with_reducible refine keeps_foldl ?_ _ ?_

/-- `execLaserPowerChange` keeps. -/
theorem execLaserPowerChange_keeps {s0 : State} (engine : Fin 16) (onB : Bool) (power : Int) (s : State) (h : Keeps s0 s) : KeepsRes s0 (execLaserPowerChange engine onB power s) := by
  unfold execLaserPowerChange
  repeat' first
    | intro _
    | with_reducible assumption
    | with_reducible apply State.setLane_keeps
    | with_reducible apply State.leaveUp_keeps
    | (extract_lets +onlyGivenNames t; (with_reducible refine keeps_cut (s0 := s0) (t := t) ?_ ?_); rotate_left; intro ht; (try clear_value t); rotate_left; subst t)
    | extract_lets +onlyGivenNames t
    | ((with_reducible refine keeps_of_mk ?_); (with_reducible refine keeps_of ?_); with_reducible assumption)
    | with_reducible refine keeps_foldl ?_ _ ?_
    | with_reducible refine keepsRes_next ?_
    | split

/-- `execLaneDown` keeps. -/
theorem execLaneDown_keeps {s0 : State} (lane : Fin 144) (codewords : BitVec 16) (s : State) (h : Keeps s0 s) : KeepsRes s0 (execLaneDown lane codewords s) := by
  unfold execLaneDown
  repeat' first
    | with_reducible assumption
    | with_reducible apply State.setLane_keeps
    | with_reducible apply State.leaveUp_keeps
    | (extract_lets +onlyGivenNames t; (with_reducible refine keeps_cut (s0 := s0) (t := t) ?_ ?_); rotate_left; intro ht; (try clear_value t); rotate_left; subst t)
    | extract_lets +onlyGivenNames t
    | with_reducible refine keepsRes_next ?_
    | split

/-- `execLaneUp` keeps. -/
theorem execLaneUp_keeps {s0 : State} (lane : Fin 144) (s : State) (h : Keeps s0 s) : KeepsRes s0 (execLaneUp lane s) := by
  unfold execLaneUp
  repeat' first
    | with_reducible assumption
    | with_reducible apply State.unitJoin_keeps
    | with_reducible apply State.pumpAll_keeps
    | with_reducible apply State.event_keeps
    | with_reducible apply State.setLane_keeps
    | (extract_lets +onlyGivenNames t; (with_reducible refine keeps_cut (s0 := s0) (t := t) ?_ ?_); rotate_left; intro ht; (try clear_value t); rotate_left; subst t)
    | extract_lets +onlyGivenNames t
    | with_reducible refine keepsRes_next ?_
    | split

/-- `State.loopback` keeps. -/
theorem State.loopback_keeps {s0 : State} (s : State) (l : Nat) (pass : Bool) (h : Keeps s0 s) : Keeps s0 (State.loopback s l pass) := by
  unfold State.loopback
  repeat' first
    | with_reducible assumption
    | with_reducible apply State.setLane_keeps
    | with_reducible apply State.history_keeps
    | with_reducible apply State.retireUnit_keeps
    | with_reducible apply State.unitLeave_keeps
    | (extract_lets +onlyGivenNames t; (with_reducible refine keeps_cut (s0 := s0) (t := t) ?_ ?_); rotate_left; intro ht; (try clear_value t); rotate_left; subst t)
    | extract_lets +onlyGivenNames t
    | dsimp -zeta only
    | split

/-- `execLaneLoopback` keeps. -/
theorem execLaneLoopback_keeps {s0 : State} (lane : Fin 144) (pass : Bool) (s : State) (h : Keeps s0 s) : KeepsRes s0 (execLaneLoopback lane pass s) := by
  unfold execLaneLoopback
  repeat' first
    | with_reducible assumption
    | with_reducible apply State.loopback_keeps
    | extract_lets +onlyGivenNames t
    | with_reducible refine keepsRes_next ?_
    | split

/-- `execLoopbackRetry` keeps. -/
theorem execLoopbackRetry_keeps {s0 : State} (lane : Fin 144) (pass : Bool) (s : State) (h : Keeps s0 s) : KeepsRes s0 (execLoopbackRetry lane pass s) := by
  unfold execLoopbackRetry
  repeat' first
    | with_reducible assumption
    | with_reducible apply State.loopback_keeps
    | extract_lets +onlyGivenNames t
    | with_reducible refine keepsRes_next ?_
    | split

/-- `State.misplane` keeps. -/
theorem State.misplane_keeps {s0 : State} (s : State) (l : Nat) (h : Keeps s0 s) : Keeps s0 (State.misplane s l) := by
  unfold State.misplane
  repeat' first
    | with_reducible assumption
    | with_reducible apply State.setLane_keeps
    | with_reducible apply State.leaveUp_keeps
    | with_reducible apply State.event_keeps
    | with_reducible apply State.err_keeps
    | (extract_lets +onlyGivenNames t; (with_reducible refine keeps_cut (s0 := s0) (t := t) ?_ ?_); rotate_left; intro ht; (try clear_value t); rotate_left; subst t)
    | extract_lets +onlyGivenNames t
    | split

/-- `State.otherFrame` keeps. -/
theorem State.otherFrame_keeps {s0 : State} (s : State) (h : Keeps s0 s) : Keeps s0 (State.otherFrame s) := by
  unfold State.otherFrame
  repeat' first
    | extract_lets +onlyGivenNames t
    | ((with_reducible refine keeps_of_mk ?_); (with_reducible refine keeps_of ?_); with_reducible assumption)

/-- `execFrameReceive` keeps. -/
theorem execFrameReceive_keeps {s0 : State} (lane : Fin 144) (f : Frame) (s : State) (h : Keeps s0 s) : KeepsRes s0 (execFrameReceive lane f s) := by
  unfold execFrameReceive
  repeat' first
    | with_reducible assumption
    | with_reducible apply State.setLane_keeps
    | with_reducible apply State.misplane_keeps
    | with_reducible apply State.otherFrame_keeps
    | extract_lets +onlyGivenNames t
    | ((with_reducible refine keeps_of_mk ?_); (with_reducible refine keeps_of ?_); with_reducible assumption)
    | with_reducible refine keepsRes_next ?_
    | split

/-- `State.setRecv` keeps. -/
theorem State.setRecv_keeps {s0 : State} (s : State) (k : Nat) (x : RecvCtx) (h : Keeps s0 s) : Keeps s0 (State.setRecv s k x) := by
  unfold State.setRecv
  repeat' first
    | extract_lets +onlyGivenNames t
    | ((with_reducible refine keeps_of_mk ?_); (with_reducible refine keeps_of ?_); with_reducible assumption)

/-- `State.sendAck` keeps. -/
theorem State.sendAck_keeps {s0 : State} (s : State) (k : Nat) (x : RecvCtx) (h : Keeps s0 s) : Keeps s0 (State.sendAck s k x) := by
  unfold State.sendAck
  repeat' first
    | with_reducible assumption
    | with_reducible apply State.setRecv_keeps
    | with_reducible apply State.queueFrame_keeps
    | (extract_lets +onlyGivenNames t; (with_reducible refine keeps_cut (s0 := s0) (t := t) ?_ ?_); rotate_left; intro ht; (try clear_value t); rotate_left; subst t)
    | extract_lets +onlyGivenNames t
    | split

/-- `State.sendRnr` keeps. -/
theorem State.sendRnr_keeps {s0 : State} (s : State) (k : Nat) (x : RecvCtx) (p : Packet) (h : Keeps s0 s) : Keeps s0 (State.sendRnr s k x p) := by
  unfold State.sendRnr
  repeat' first
    | with_reducible assumption
    | with_reducible apply State.queueFrame_keeps
    | (extract_lets +onlyGivenNames t; (with_reducible refine keeps_cut (s0 := s0) (t := t) ?_ ?_); rotate_left; intro ht; (try clear_value t); rotate_left; subst t)
    | extract_lets +onlyGivenNames t
    | ((with_reducible refine keeps_of_mk ?_); (with_reducible refine keeps_of ?_); with_reducible assumption)
    | split

/-- `State.meetCtx` keeps. -/
theorem State.meetCtx_keeps {s0 : State} (s : State) (k : Nat) (p : Packet) (h : Keeps s0 s) : Keeps s0 (State.meetCtx s k p).1:= by
  unfold State.meetCtx
  repeat' first
    | with_reducible assumption
    | extract_lets +onlyGivenNames t
    | ((with_reducible refine keeps_of_mk ?_); (with_reducible refine keeps_of ?_); with_reducible assumption)
    | split

/-- `State.inOrder` keeps. -/
theorem State.inOrder_keeps {s0 : State} (s : State) (lane : Nat) (p : Packet) (f : State → Option State) (hf : ∀ y0, Keeps s0 y0 → KeepsOpt s0 (f y0)) (h : Keeps s0 s) : Keeps s0 (State.inOrder s lane p f) := by
  unfold State.inOrder
  repeat' first
    | with_reducible assumption
    | with_reducible apply State.meetCtx_keeps
    | with_reducible apply State.sendAck_keeps
    | with_reducible apply State.setRecv_keeps
    | with_reducible apply State.sendRnr_keeps
    | with_reducible apply hf
    | extract_lets +onlyGivenNames t
    | dsimp -zeta only
    | split
    | with_reducible refine of_fst_eq (by assumption) ?_
    | with_reducible refine of_some_eq (by assumption) ?_

/-- `State.rxPacket` keeps. -/
theorem State.rxPacket_keeps {s0 : State} (s : State) (lane : Nat) (op : Nat) (p : Packet) (f : State → Option State) (hf : ∀ y0, Keeps s0 y0 → KeepsOpt s0 (f y0)) (h : Keeps s0 s) : Keeps s0 (State.rxPacket s lane op p f) := by
  unfold State.rxPacket
  repeat' first
    | intro _
    | with_reducible assumption
    | with_reducible apply State.takeRx_keeps
    | with_reducible apply State.inOrder_keeps
    | with_reducible apply hf
    | extract_lets +onlyGivenNames t
    | split
    | with_reducible refine of_some_eq (by assumption) ?_

/-- `State.refuse` keeps. -/
theorem State.refuse_keeps {s0 : State} (s : State) (p : Packet) (code : Nat) (h : Keeps s0 s) : Keeps s0 (State.refuse s p code) := by
  unfold State.refuse
  repeat' first
    | with_reducible assumption
    | with_reducible apply State.devFault_keeps
    | with_reducible apply State.answer_keeps
    | extract_lets +onlyGivenNames t
    | ((with_reducible refine keeps_of_mk ?_); (with_reducible refine keeps_of ?_); with_reducible assumption)
    | split

/-- `State.request1` keeps. -/
theorem State.request1_keeps {s0 : State} (s : State) (p : Packet) (f : State → State ⊕ Nat) (hf : ∀ y0, Keeps s0 y0 → KeepsSum s0 (f y0)) (h : Keeps s0 s) : KeepsOpt s0 (State.request1 s p f) := by
  unfold State.request1
  repeat' first
    | with_reducible assumption
    | with_reducible apply State.refuse_keeps
    | with_reducible apply hf
    | extract_lets +onlyGivenNames t
    | with_reducible refine keepsOpt_some ?_
    | with_reducible refine of_inl_eq (by assumption) ?_
    | split

/-- `execWrite` keeps. -/
theorem execWrite_keeps {s0 : State} (lane : Fin 144) (p : Packet) (s : State) (h : Keeps s0 s) : KeepsRes s0 (execWrite lane p s) := by
  unfold execWrite
  repeat' first
    | intro _
    | with_reducible assumption
    | with_reducible apply State.rxPacket_keeps
    | with_reducible apply State.request1_keeps
    | with_reducible apply State.deviceWrite_keeps
    | with_reducible refine keepsRes_next ?_

/-- `execRead` keeps. -/
theorem execRead_keeps {s0 : State} (lane : Fin 144) (p : Packet) (s : State) (h : Keeps s0 s) : KeepsRes s0 (execRead lane p s) := by
  unfold execRead
  repeat' first
    | intro _
    | with_reducible assumption
    | with_reducible apply State.rxPacket_keeps
    | with_reducible apply State.request1_keeps
    | with_reducible apply State.load_keeps
    | with_reducible apply State.answer_keeps
    | extract_lets +onlyGivenNames t
    | with_reducible refine keepsRes_next ?_
    | with_reducible refine keepsSum_inl ?_
    | with_reducible exact keepsSum_inr _ _
    | dsimp -zeta only
    | split

/-- `execReduceWriteF32` keeps. -/
theorem execReduceWriteF32_keeps {s0 : State} (lane : Fin 144) (p : Packet) (s : State) (h : Keeps s0 s) : KeepsRes s0 (execReduceWriteF32 lane p s) := by
  unfold execReduceWriteF32
  repeat' first
    | intro _
    | with_reducible assumption
    | with_reducible apply State.rxPacket_keeps
    | with_reducible apply State.request1_keeps
    | with_reducible apply State.reduceAt_keeps
    | with_reducible refine keepsRes_next ?_

/-- `execReduceWriteH16` keeps. -/
theorem execReduceWriteH16_keeps {s0 : State} (lane : Fin 144) (p : Packet) (s : State) (h : Keeps s0 s) : KeepsRes s0 (execReduceWriteH16 lane p s) := by
  unfold execReduceWriteH16
  repeat' first
    | intro _
    | with_reducible assumption
    | with_reducible apply State.rxPacket_keeps
    | with_reducible apply State.request1_keeps
    | with_reducible apply State.reduceAt_keeps
    | with_reducible refine keepsRes_next ?_

/-- `execReduceWriteI32` keeps. -/
theorem execReduceWriteI32_keeps {s0 : State} (lane : Fin 144) (p : Packet) (s : State) (h : Keeps s0 s) : KeepsRes s0 (execReduceWriteI32 lane p s) := by
  unfold execReduceWriteI32
  repeat' first
    | intro _
    | with_reducible assumption
    | with_reducible apply State.rxPacket_keeps
    | with_reducible apply State.request1_keeps
    | with_reducible apply State.reduceAt_keeps
    | with_reducible refine keepsRes_next ?_

/-- `State.remoteAtomic` keeps. -/
theorem State.remoteAtomic_keeps {s0 : State} (s : State) (p : Packet) (op : Nat) (off : Nat) (h : Keeps s0 s) : KeepsOpt s0 (State.remoteAtomic s p op off) := by
  unfold State.remoteAtomic
  repeat' first
    | intro _
    | with_reducible assumption
    | with_reducible apply State.request1_keeps
    | with_reducible apply State.atomicAt_keeps
    | with_reducible apply State.answer_keeps
    | extract_lets +onlyGivenNames t
    | with_reducible refine of_inl_pair (by assumption) ?_
    | with_reducible refine keepsSum_inl ?_
    | with_reducible exact keepsSum_inr _ _
    | split

/-- `execAtomicAdd` keeps. -/
theorem execAtomicAdd_keeps {s0 : State} (lane : Fin 144) (p : Packet) (s : State) (h : Keeps s0 s) : KeepsRes s0 (execAtomicAdd lane p s) := by
  unfold execAtomicAdd
  repeat' first
    | intro _
    | with_reducible assumption
    | with_reducible apply State.rxPacket_keeps
    | with_reducible apply State.remoteAtomic_keeps
    | with_reducible refine keepsRes_next ?_

/-- `execAtomicFetchAdd` keeps. -/
theorem execAtomicFetchAdd_keeps {s0 : State} (lane : Fin 144) (p : Packet) (s : State) (h : Keeps s0 s) : KeepsRes s0 (execAtomicFetchAdd lane p s) := by
  unfold execAtomicFetchAdd
  repeat' first
    | intro _
    | with_reducible assumption
    | with_reducible apply State.rxPacket_keeps
    | with_reducible apply State.remoteAtomic_keeps
    | with_reducible refine keepsRes_next ?_

/-- `execAtomicSwap` keeps. -/
theorem execAtomicSwap_keeps {s0 : State} (lane : Fin 144) (p : Packet) (s : State) (h : Keeps s0 s) : KeepsRes s0 (execAtomicSwap lane p s) := by
  unfold execAtomicSwap
  repeat' first
    | intro _
    | with_reducible assumption
    | with_reducible apply State.rxPacket_keeps
    | with_reducible apply State.remoteAtomic_keeps
    | with_reducible refine keepsRes_next ?_

/-- `execAtomicCas` keeps. -/
theorem execAtomicCas_keeps {s0 : State} (lane : Fin 144) (p : Packet) (s : State) (h : Keeps s0 s) : KeepsRes s0 (execAtomicCas lane p s) := by
  unfold execAtomicCas
  repeat' first
    | intro _
    | with_reducible assumption
    | with_reducible apply State.rxPacket_keeps
    | with_reducible apply State.remoteAtomic_keeps
    | with_reducible refine keepsRes_next ?_

/-- `execCollData` keeps. -/
theorem execCollData_keeps {s0 : State} (lane : Fin 144) (p : Packet) (s : State) (h : Keeps s0 s) : KeepsRes s0 (execCollData lane p s) := by
  unfold execCollData
  repeat' first
    | intro _
    | with_reducible assumption
    | with_reducible apply State.rxPacket_keeps
    | with_reducible apply State.refuse_keeps
    | with_reducible apply State.modPost_keeps
    | with_reducible apply State.collPump_keeps
    | (extract_lets +onlyGivenNames t; (with_reducible refine keeps_cut (s0 := s0) (t := t) ?_ ?_); rotate_left; intro ht; (try clear_value t); rotate_left; subst t)
    | extract_lets +onlyGivenNames t
    | with_reducible refine keepsRes_next ?_
    | with_reducible refine keepsOpt_some ?_
    | with_reducible exact keepsOpt_none _
    | split

/-- `execCtrl` keeps. -/
theorem execCtrl_keeps {s0 : State} (lane : Fin 144) (p : Packet) (s : State) (h : Keeps s0 s) : KeepsRes s0 (execCtrl lane p s) := by
  unfold execCtrl
  repeat' first
    | intro _
    | with_reducible assumption
    | with_reducible apply State.rxPacket_keeps
    | extract_lets +onlyGivenNames t
    | ((with_reducible refine keeps_of_mk ?_); (with_reducible refine keeps_of ?_); with_reducible assumption)
    | with_reducible refine keepsRes_next ?_
    | with_reducible refine keepsOpt_some ?_

/-- `State.modOp` keeps. -/
theorem State.modOp_keeps {s0 : State} (s : State) (opid : Nat) (f : FabOp → FabOp) (h : Keeps s0 s) : Keeps s0 (State.modOp s opid f) := by
  unfold State.modOp
  repeat' first
    | extract_lets +onlyGivenNames t
    | ((with_reducible refine keeps_of_mk ?_); (with_reducible refine keeps_of ?_); with_reducible assumption)

/-- `State.dropDone` keeps. -/
theorem State.dropDone_keeps {s0 : State} (s : State) (h : Keeps s0 s) : Keeps s0 (State.dropDone s) := by
  unfold State.dropDone
  repeat' first
    | extract_lets +onlyGivenNames t
    | ((with_reducible refine keeps_of_mk ?_); (with_reducible refine keeps_of ?_); with_reducible assumption)

/-- `State.opFails` keeps. -/
theorem State.opFails_keeps {s0 : State} (s : State) (o : FabOp) (status : Nat) (h : Keeps s0 s) : Keeps s0 (State.opFails s o status) := by
  unfold State.opFails
  repeat' first
    | with_reducible assumption
    | with_reducible apply State.modOp_keeps
    | with_reducible apply State.ifault_keeps
    | with_reducible apply State.postFail_keeps
    | (extract_lets +onlyGivenNames t; (with_reducible refine keeps_cut (s0 := s0) (t := t) ?_ ?_); rotate_left; intro ht; (try clear_value t); rotate_left; subst t)
    | extract_lets +onlyGivenNames t
    | ((with_reducible refine keeps_of_mk ?_); (with_reducible refine keeps_of ?_); with_reducible assumption)
    | split

/-- `State.returned` keeps. -/
theorem State.returned_keeps {s0 : State} (s : State) (p : Packet) (h : Keeps s0 s) : Keeps s0 (State.returned s p) := by
  unfold State.returned
  repeat' first
    | with_reducible assumption
    | with_reducible apply State.dropDone_keeps
    | with_reducible apply State.modOp_keeps
    | with_reducible apply State.fetchGot_keeps
    | with_reducible apply State.store_keeps
    | (extract_lets +onlyGivenNames t; (with_reducible refine keeps_cut (s0 := s0) (t := t) ?_ ?_); rotate_left; intro ht; (try clear_value t); rotate_left; subst t)
    | split

/-- `execReadData` keeps. -/
theorem execReadData_keeps {s0 : State} (lane : Fin 144) (p : Packet) (s : State) (h : Keeps s0 s) : KeepsRes s0 (execReadData lane p s) := by
  unfold execReadData
  repeat' first
    | intro _
    | with_reducible assumption
    | with_reducible apply State.rxPacket_keeps
    | with_reducible apply State.returned_keeps
    | extract_lets +onlyGivenNames t
    | with_reducible refine keepsRes_next ?_
    | with_reducible refine keepsOpt_some ?_

/-- `execAtomicResult` keeps. -/
theorem execAtomicResult_keeps {s0 : State} (lane : Fin 144) (p : Packet) (s : State) (h : Keeps s0 s) : KeepsRes s0 (execAtomicResult lane p s) := by
  unfold execAtomicResult
  repeat' first
    | intro _
    | with_reducible assumption
    | with_reducible apply State.rxPacket_keeps
    | with_reducible apply State.returned_keeps
    | extract_lets +onlyGivenNames t
    | with_reducible refine keepsRes_next ?_
    | with_reducible refine keepsOpt_some ?_

/-- `execStatus` keeps. -/
theorem execStatus_keeps {s0 : State} (lane : Fin 144) (p : Packet) (s : State) (h : Keeps s0 s) : KeepsRes s0 (execStatus lane p s) := by
  unfold execStatus
  repeat' first
    | intro _
    | with_reducible assumption
    | with_reducible apply State.rxPacket_keeps
    | with_reducible apply State.opFails_keeps
    | extract_lets +onlyGivenNames t
    | with_reducible refine keepsRes_next ?_
    | with_reducible refine keepsOpt_some ?_
    | split

/-- `State.unreachable` keeps. -/
theorem State.unreachable_keeps {s0 : State} (s : State) (k : Nat) (opid : Nat) (h : Keeps s0 s) : Keeps s0 (State.unreachable s k opid) := by
  unfold State.unreachable
  repeat' first
    | intro _
    | with_reducible assumption
    | with_reducible apply State.setSend_keeps
    | with_reducible apply State.total_keeps
    | with_reducible apply State.event_keeps
    | with_reducible apply State.err_keeps
    | with_reducible apply State.opFails_keeps
    | (extract_lets +onlyGivenNames t; (with_reducible refine keeps_cut (s0 := s0) (t := t) ?_ ?_); rotate_left; intro ht; (try clear_value t); rotate_left; subst t)
    | extract_lets +onlyGivenNames t
    | ((with_reducible refine keeps_of_mk ?_); (with_reducible refine keeps_of ?_); with_reducible assumption)
    | with_reducible refine keeps_foldl ?_ _ ?_
    | split

/-- `State.retransmit` keeps. -/
theorem State.retransmit_keeps {s0 : State} (s : State) (k : Nat) (q : SentPkt) (timeout : Bool) (h : Keeps s0 s) : Keeps s0 (State.retransmit s k q timeout) := by
  unfold State.retransmit
  repeat' first
    | with_reducible assumption
    | with_reducible apply State.unreachable_keeps
    | with_reducible apply State.total_keeps
    | with_reducible apply State.setSend_keeps
    | with_reducible apply State.queueFrame_keeps
    | (extract_lets +onlyGivenNames t; (with_reducible refine keeps_cut (s0 := s0) (t := t) ?_ ?_); rotate_left; intro ht; (try clear_value t); rotate_left; subst t)
    | extract_lets +onlyGivenNames t
    | ((with_reducible refine keeps_of_mk ?_); (with_reducible refine keeps_of ?_); with_reducible assumption)
    | split

/-- `State.acked` keeps. -/
theorem State.acked_keeps {s0 : State} (s : State) (q : SentPkt) (h : Keeps s0 s) : Keeps s0 (State.acked s q) := by
  unfold State.acked
  repeat' first
    | with_reducible assumption
    | with_reducible apply State.modOp_keeps

/-- `State.takeAck` keeps. -/
theorem State.takeAck_keeps {s0 : State} (s : State) (k : Nat) (x : SendCtx) (p : Packet) (h : Keeps s0 s) : Keeps s0 (State.takeAck s k x p) := by
  unfold State.takeAck
  repeat' first
    | intro _
    | with_reducible assumption
    | with_reducible apply State.setSend_keeps
    | with_reducible apply State.dropDone_keeps
    | with_reducible apply State.acked_keeps
    | with_reducible apply State.retransmit_keeps
    | with_reducible apply State.pump_keeps
    | (extract_lets +onlyGivenNames t; (with_reducible refine keeps_cut (s0 := s0) (t := t) ?_ ?_); rotate_left; intro ht; (try clear_value t); rotate_left; subst t)
    | extract_lets +onlyGivenNames t
    | with_reducible refine keeps_foldl ?_ _ ?_
    | split

/-- `execAck` keeps. -/
theorem execAck_keeps {s0 : State} (lane : Fin 144) (p : Packet) (s : State) (h : Keeps s0 s) : KeepsRes s0 (execAck lane p s) := by
  unfold execAck
  repeat' first
    | with_reducible assumption
    | with_reducible apply State.takeRx_keeps
    | with_reducible apply State.takeAck_keeps
    | extract_lets +onlyGivenNames t
    | with_reducible refine keepsRes_next ?_
    | split
    | with_reducible refine of_some_eq (by assumption) ?_

/-- `execAckTimer` keeps. -/
theorem execAckTimer_keeps {s0 : State} (src : Nat) (s : State) (h : Keeps s0 s) : KeepsRes s0 (execAckTimer src s) := by
  unfold execAckTimer
  repeat' first
    | with_reducible assumption
    | with_reducible apply State.sendAck_keeps
    | extract_lets +onlyGivenNames t
    | with_reducible refine keepsRes_next ?_
    | split

/-- `execRetransmitTimeout` keeps. -/
theorem execRetransmitTimeout_keeps {s0 : State} (dest : Nat) (psn : Nat) (s : State) (h : Keeps s0 s) : KeepsRes s0 (execRetransmitTimeout dest psn s) := by
  unfold execRetransmitTimeout
  repeat' first
    | with_reducible assumption
    | with_reducible apply State.retransmit_keeps
    | extract_lets +onlyGivenNames t
    | with_reducible refine keepsRes_next ?_
    | split

/-- `execSendContextFree` keeps. -/
theorem execSendContextFree_keeps {s0 : State} (dest : Nat) (s : State) (h : Keeps s0 s) : KeepsRes s0 (execSendContextFree dest s) := by
  unfold execSendContextFree
  repeat' first
    | intro _
    | with_reducible assumption
    | with_reducible apply State.sendPkt_keeps
    | (extract_lets +onlyGivenNames t; (with_reducible refine keeps_cut (s0 := s0) (t := t) ?_ ?_); rotate_left; intro ht; (try clear_value t); rotate_left; subst t)
    | extract_lets +onlyGivenNames t
    | ((with_reducible refine keeps_of_mk ?_); (with_reducible refine keeps_of ?_); with_reducible assumption)
    | with_reducible refine keeps_foldl ?_ _ ?_
    | with_reducible refine keepsRes_next ?_
    | split

/-- `execReceiveContextFree` keeps. -/
theorem execReceiveContextFree_keeps {s0 : State} (src : Nat) (s : State) (h : Keeps s0 s) : KeepsRes s0 (execReceiveContextFree src s) := by
  unfold execReceiveContextFree
  repeat' first
    | with_reducible assumption
    | extract_lets +onlyGivenNames t
    | ((with_reducible refine keeps_of_mk ?_); (with_reducible refine keeps_of ?_); with_reducible assumption)
    | with_reducible refine keepsRes_next ?_
    | split

/-- `execPlaneExclusionExpire` keeps. -/
theorem execPlaneExclusionExpire_keeps {s0 : State} (dest : Nat) (plane : Nat) (s : State) (h : Keeps s0 s) : KeepsRes s0 (execPlaneExclusionExpire dest plane s) := by
  unfold execPlaneExclusionExpire
  repeat' first
    | with_reducible assumption
    | with_reducible apply State.pump_keeps
    | with_reducible apply State.setSend_keeps
    | extract_lets +onlyGivenNames t
    | with_reducible refine keepsRes_next ?_
    | split

/-- `State.modClk` keeps. -/
theorem State.modClk_keeps {s0 : State} (s : State) (f : ClockSt → ClockSt) (h : Keeps s0 s) : Keeps s0 (State.modClk s f) := by
  unfold State.modClk
  repeat' ((with_reducible refine keeps_of_mk ?_); (with_reducible refine keeps_of ?_); with_reducible assumption)

/-- `State.startSwitch` keeps. -/
theorem State.startSwitch_keeps {s0 : State} (s : State) (i : Nat) (h : Keeps s0 s) : Keeps s0 (State.startSwitch s i) := by
  unfold State.startSwitch
  repeat' first
    | with_reducible assumption
    | with_reducible apply State.modClk_keeps

/-- `State.leaveHoldover` keeps. -/
theorem State.leaveHoldover_keeps {s0 : State} (s : State) (h : Keeps s0 s) : Keeps s0 (State.leaveHoldover s) := by
  unfold State.leaveHoldover
  repeat' first
    | with_reducible assumption
    | with_reducible apply State.startSwitch_keeps
    | split

/-- `State.loseSelected` keeps. -/
theorem State.loseSelected_keeps {s0 : State} (s : State) (h : Keeps s0 s) : Keeps s0 (State.loseSelected s) := by
  unfold State.loseSelected
  repeat' first
    | with_reducible assumption
    | with_reducible apply State.modClk_keeps
    | with_reducible apply State.leaveHoldover_keeps
    | with_reducible apply State.event_keeps
    | with_reducible apply State.err_keeps

/-- `State.loseSource` keeps. -/
theorem State.loseSource_keeps {s0 : State} (s : State) (i : Nat) (h : Keeps s0 s) : Keeps s0 (State.loseSource s i) := by
  unfold State.loseSource
  repeat' first
    | with_reducible assumption
    | with_reducible apply State.modClk_keeps
    | with_reducible apply State.loseSelected_keeps
    | (extract_lets +onlyGivenNames t; (with_reducible refine keeps_cut (s0 := s0) (t := t) ?_ ?_); rotate_left; intro ht; (try clear_value t); rotate_left; subst t)
    | extract_lets +onlyGivenNames t
    | split

/-- `execRefLoss` keeps. -/
theorem execRefLoss_keeps {s0 : State} (s : State) (h : Keeps s0 s) : KeepsRes s0 (execRefLoss s) := by
  unfold execRefLoss
  repeat' first
    | with_reducible assumption
    | with_reducible apply State.loseSource_keeps
    | extract_lets +onlyGivenNames t
    | with_reducible refine keepsRes_next ?_
    | split

/-- `State.askSwitch` keeps. -/
theorem State.askSwitch_keeps {s0 : State} (s : State) (h : Keeps s0 s) : Keeps s0 (State.askSwitch s) := by
  unfold State.askSwitch
  repeat' first
    | extract_lets +onlyGivenNames t
    | ((with_reducible refine keeps_of_mk ?_); (with_reducible refine keeps_of ?_); with_reducible assumption)

/-- `State.wantSwitch` keeps. -/
theorem State.wantSwitch_keeps {s0 : State} (s : State) (h : Keeps s0 s) : Keeps s0 (State.wantSwitch s) := by
  unfold State.wantSwitch
  repeat' first
    | with_reducible assumption
    | with_reducible apply State.askSwitch_keeps
    | with_reducible apply State.modClk_keeps
    | extract_lets +onlyGivenNames t
    | split

/-- `State.countSwitch` keeps. -/
theorem State.countSwitch_keeps {s0 : State} (s : State) (h : Keeps s0 s) : Keeps s0 (State.countSwitch s) := by
  unfold State.countSwitch
  repeat' first
    | with_reducible assumption
    | with_reducible apply State.startSwitch_keeps
    | with_reducible apply State.modClk_keeps
    | extract_lets +onlyGivenNames t
    | split

/-- `State.windowOf` keeps. -/
theorem State.windowOf_keeps {s0 : State} (s : State) (i : Nat) (r : WindowResult) (h : Keeps s0 s) : Keeps s0 (State.windowOf s i r) := by
  unfold State.windowOf
  repeat' first
    | with_reducible assumption
    | with_reducible apply State.modClk_keeps
    | with_reducible apply State.loseSource_keeps
    | (extract_lets +onlyGivenNames t; (with_reducible refine keeps_cut (s0 := s0) (t := t) ?_ ?_); rotate_left; intro ht; (try clear_value t); rotate_left; subst t)
    | extract_lets +onlyGivenNames t
    | split

/-- `execRefMonitorWindow` keeps. -/
theorem execRefMonitorWindow_keeps {s0 : State} (a : WindowResult) (b : WindowResult) (f : WindowResult) (s : State) (h : Keeps s0 s) : KeepsRes s0 (execRefMonitorWindow a b f s) := by
  unfold execRefMonitorWindow
  repeat' first
    | with_reducible assumption
    | with_reducible apply State.wantSwitch_keeps
    | with_reducible apply State.leaveHoldover_keeps
    | with_reducible apply State.windowOf_keeps
    | with_reducible refine keepsRes_next ?_

/-- `execPllSwitchComplete` keeps. -/
theorem execPllSwitchComplete_keeps {s0 : State} (s : State) (h : Keeps s0 s) : KeepsRes s0 (execPllSwitchComplete s) := by
  unfold execPllSwitchComplete
  repeat' first
    | with_reducible assumption
    | with_reducible apply State.wantSwitch_keeps
    | with_reducible apply State.event_keeps
    | with_reducible apply State.modClk_keeps
    | extract_lets +onlyGivenNames t
    | with_reducible refine keepsRes_next ?_
    | split

/-- `State.testSource` keeps. -/
theorem State.testSource_keeps {s0 : State} (s : State) (i : Nat) (r : TestResult) (h : Keeps s0 s) : Keeps s0 (State.testSource s i r) := by
  unfold State.testSource
  repeat' first
    | with_reducible assumption
    | with_reducible apply State.modClk_keeps
    | with_reducible apply State.event_keeps
    | with_reducible apply State.err_keeps
    | (extract_lets +onlyGivenNames t; (with_reducible refine keeps_cut (s0 := s0) (t := t) ?_ ?_); rotate_left; intro ht; (try clear_value t); rotate_left; subst t)
    | extract_lets +onlyGivenNames t
    | split

/-- `State.testSources` keeps. -/
theorem State.testSources_keeps {s0 : State} (s : State) (a : TestResult) (b : TestResult) (f : TestResult) (h : Keeps s0 s) : Keeps s0 (State.testSources s a b f) := by
  unfold State.testSources
  repeat' first
    | with_reducible assumption
    | with_reducible apply State.wantSwitch_keeps
    | with_reducible apply State.leaveHoldover_keeps
    | with_reducible apply State.testSource_keeps

/-- `execJitterTestComplete` keeps. -/
theorem execJitterTestComplete_keeps {s0 : State} (a : TestResult) (b : TestResult) (f : TestResult) (s : State) (h : Keeps s0 s) : KeepsRes s0 (execJitterTestComplete a b f s) := by
  unfold execJitterTestComplete
  repeat' first
    | with_reducible assumption
    | with_reducible apply State.testSources_keeps
    | extract_lets +onlyGivenNames t
    | with_reducible refine keepsRes_next ?_
    | split

/-- `State.slotFails` keeps. -/
theorem State.slotFails_keeps {s0 : State} (s : State) (k : Nat) (event : Nat) (h : Keeps s0 s) : Keeps s0 (State.slotFails s k event) := by
  unfold State.slotFails
  repeat' first
    | with_reducible assumption
    | with_reducible apply State.history_keeps
    | with_reducible apply State.retireUnit_keeps
    | with_reducible apply State.unitLeave_keeps
    | (extract_lets +onlyGivenNames t; (with_reducible refine keeps_cut (s0 := s0) (t := t) ?_ ?_); rotate_left; intro ht; (try clear_value t); rotate_left; subst t)
    | extract_lets +onlyGivenNames t
    | ((with_reducible refine keeps_of_mk ?_); (with_reducible refine keeps_of ?_); with_reducible assumption)
    | dsimp -zeta only
    | split

/-- `execGenUnlock` keeps. -/
theorem execGenUnlock_keeps {s0 : State} (gen : Generator) (s : State) (h : Keeps s0 s) : KeepsRes s0 (execGenUnlock gen s) := by
  unfold execGenUnlock
  repeat' first
    | intro _
    | with_reducible assumption
    | with_reducible apply State.modClk_keeps
    | with_reducible apply State.event_keeps
    | with_reducible apply State.err_keeps
    | with_reducible apply State.setDom_keeps
    | with_reducible apply State.slotFails_keeps
    | with_reducible apply State.leaveUp_keeps
    | with_reducible apply State.loseSource_keeps
    | with_reducible apply State.devFault_keeps
    | (extract_lets +onlyGivenNames t; (with_reducible refine keeps_cut (s0 := s0) (t := t) ?_ ?_); rotate_left; intro ht; (try clear_value t); rotate_left; subst t)
    | with_reducible refine keeps_foldl ?_ _ ?_
    | with_reducible refine keepsRes_next ?_
    | dsimp -zeta only
    | split

/-- `State.modHud` keeps. -/
theorem State.modHud_keeps {s0 : State} (s : State) (f : HuddleSt → HuddleSt) (h : Keeps s0 s) : Keeps s0 (State.modHud s f) := by
  unfold State.modHud
  repeat' ((with_reducible refine keeps_of_mk ?_); (with_reducible refine keeps_of ?_); with_reducible assumption)

/-- `State.sendTick` keeps. -/
theorem State.sendTick_keeps {s0 : State} (s : State) (device : Nat) (op : Nat) (child : Nat) (pay : List Sys2Proof.Byte) (h : Keeps s0 s) : Keeps s0 (State.sendTick s device op child pay) := by
  unfold State.sendTick
  repeat' first
    | with_reducible assumption
    | with_reducible apply State.sendTwice_keeps

/-- `State.sendSync` keeps. -/
theorem State.sendSync_keeps {s0 : State} (s : State) (h : Keeps s0 s) : Keeps s0 (State.sendSync s) := by
  unfold State.sendSync
  repeat' first
    | with_reducible assumption
    | with_reducible apply State.modHud_keeps
    | with_reducible apply State.sendTick_keeps

/-- `State.tickHoldover` keeps. -/
theorem State.tickHoldover_keeps {s0 : State} (s : State) (h : Keeps s0 s) : Keeps s0 (State.tickHoldover s) := by
  unfold State.tickHoldover
  repeat' first
    | with_reducible assumption
    | with_reducible apply State.modHud_keeps
    | with_reducible apply State.event_keeps
    | with_reducible apply State.err_keeps
    | (extract_lets +onlyGivenNames t; (with_reducible refine keeps_cut (s0 := s0) (t := t) ?_ ?_); rotate_left; intro ht; (try clear_value t); rotate_left; subst t)
    | split

/-- `State.closeBurst` keeps. -/
theorem State.closeBurst_keeps {s0 : State} (s : State) (h : Keeps s0 s) : Keeps s0 (State.closeBurst s) := by
  unfold State.closeBurst
  repeat' first
    | with_reducible assumption
    | with_reducible apply State.modHud_keeps
    | with_reducible apply State.tryBarrier_keeps
    | (extract_lets +onlyGivenNames t; (with_reducible refine keeps_cut (s0 := s0) (t := t) ?_ ?_); rotate_left; intro ht; (try clear_value t); rotate_left; subst t)
    | extract_lets +onlyGivenNames t
    | ((with_reducible refine keeps_of_mk ?_); (with_reducible refine keeps_of ?_); with_reducible assumption)
    | split

/-- `execTickSyncBurst` keeps. -/
theorem execTickSyncBurst_keeps {s0 : State} (s : State) (h : Keeps s0 s) : KeepsRes s0 (execTickSyncBurst s) := by
  unfold execTickSyncBurst
  repeat' first
    | with_reducible assumption
    | with_reducible apply State.sendSync_keeps
    | with_reducible apply State.modHud_keeps
    | with_reducible apply State.closeBurst_keeps
    | extract_lets +onlyGivenNames t
    | with_reducible refine keepsRes_next ?_
    | split

/-- `execTSync` keeps. -/
theorem execTSync_keeps {s0 : State} (lane : Fin 144) (p : Packet) (s : State) (h : Keeps s0 s) : KeepsRes s0 (execTSync lane p s) := by
  unfold execTSync
  repeat' first
    | intro _
    | with_reducible assumption
    | with_reducible apply State.onceRx_keeps
    | with_reducible apply State.sendTick_keeps
    | extract_lets +onlyGivenNames t
    | with_reducible refine keepsRes_next ?_
    | split

/-- `execTReply` keeps. -/
theorem execTReply_keeps {s0 : State} (lane : Fin 144) (p : Packet) (s : State) (h : Keeps s0 s) : KeepsRes s0 (execTReply lane p s) := by
  unfold execTReply
  repeat' first
    | intro _
    | with_reducible assumption
    | with_reducible apply State.onceRx_keeps
    | with_reducible apply State.modHud_keeps
    | with_reducible apply State.closeBurst_keeps
    | with_reducible apply State.tickHoldover_keeps
    | (extract_lets +onlyGivenNames t; (with_reducible refine keeps_cut (s0 := s0) (t := t) ?_ ?_); rotate_left; intro ht; (try clear_value t); rotate_left; subst t)
    | extract_lets +onlyGivenNames t
    | with_reducible refine keepsRes_next ?_
    | split

/-- `execTickParentSilent` keeps. -/
theorem execTickParentSilent_keeps {s0 : State} (s : State) (h : Keeps s0 s) : KeepsRes s0 (execTickParentSilent s) := by
  unfold execTickParentSilent
  repeat' first
    | with_reducible assumption
    | with_reducible apply State.tickHoldover_keeps
    | with_reducible apply State.modHud_keeps
    | with_reducible apply State.tryBarrier_keeps
    | (extract_lets +onlyGivenNames t; (with_reducible refine keeps_cut (s0 := s0) (t := t) ?_ ?_); rotate_left; intro ht; (try clear_value t); rotate_left; subst t)
    | extract_lets +onlyGivenNames t
    | with_reducible refine keepsRes_next ?_
    | split

/-- `State.applyChange` keeps. -/
theorem State.applyChange_keeps {s0 : State} (s : State) (c : SyncChange) (h : Keeps s0 s) : Keeps s0 (State.applyChange s c) := by
  unfold State.applyChange
  repeat' first
    | with_reducible assumption
    | with_reducible apply State.setEffective_keeps
    | with_reducible apply State.schedule_keeps
    | with_reducible apply State.leaveHoldover_keeps
    | with_reducible apply State.countSwitch_keeps
    | with_reducible apply State.modClk_keeps
    | (extract_lets +onlyGivenNames t; (with_reducible refine keeps_cut (s0 := s0) (t := t) ?_ ?_); rotate_left; intro ht; (try clear_value t); rotate_left; subst t)
    | extract_lets +onlyGivenNames t
    | ((with_reducible refine keeps_of_mk ?_); (with_reducible refine keeps_of ?_); with_reducible assumption)
    | dsimp -zeta only
    | split

/-- `State.returnOne` keeps. -/
theorem State.returnOne_keeps {s0 : State} (s : State) (h : Keeps s0 s) : Keeps s0 (State.returnOne s) := by
  unfold State.returnOne
  repeat' first
    | with_reducible assumption
    | with_reducible apply State.setEffective_keeps
    | with_reducible apply State.prepare_keeps
    | (extract_lets +onlyGivenNames t; (with_reducible refine keeps_cut (s0 := s0) (t := t) ?_ ?_); rotate_left; intro ht; (try clear_value t); rotate_left; subst t)
    | extract_lets +onlyGivenNames t
    | ((with_reducible refine keeps_of_mk ?_); (with_reducible refine keeps_of ?_); with_reducible assumption)
    | split

/-- `execSyncCount` keeps. -/
theorem execSyncCount_keeps {s0 : State} (s : State) (h : Keeps s0 s) : KeepsRes s0 (execSyncCount s) := by
  unfold execSyncCount
  repeat' first
    | intro _
    | with_reducible assumption
    | with_reducible apply State.modHud_keeps
    | with_reducible apply State.applyChange_keeps
    | with_reducible apply State.changeDomains_keeps
    | with_reducible apply State.returnOne_keeps
    | (extract_lets +onlyGivenNames t; (with_reducible refine keeps_cut (s0 := s0) (t := t) ?_ ?_); rotate_left; intro ht; (try clear_value t); rotate_left; subst t)
    | extract_lets +onlyGivenNames t
    | with_reducible refine keeps_foldl ?_ _ ?_
    | with_reducible refine keepsRes_next ?_
    | split

/-- `State.refreshTarget` keeps. -/
theorem State.refreshTarget_keeps {s0 : State} (s : State) (h : Keeps s0 s) : Keeps s0 (State.refreshTarget s) := by
  unfold State.refreshTarget
  repeat' first
    | with_reducible assumption
    | extract_lets +onlyGivenNames t
    | ((with_reducible refine keeps_of_mk ?_); (with_reducible refine keeps_of ?_); with_reducible assumption)
    | split

/-- `State.sendRelay` keeps. -/
theorem State.sendRelay_keeps {s0 : State} (s : State) (device : Nat) (op : Nat) (child : Nat) (up : Nat) (down : Nat) (h : Keeps s0 s) : Keeps s0 (State.sendRelay s device op child up down) := by
  unfold State.sendRelay
  repeat' first
    | with_reducible assumption
    | with_reducible apply State.sendTwice_keeps

/-- `execRelayRoundStart` keeps. -/
theorem execRelayRoundStart_keeps {s0 : State} (s : State) (h : Keeps s0 s) : KeepsRes s0 (execRelayRoundStart s) := by
  unfold execRelayRoundStart
  repeat' first
    | with_reducible assumption
    | with_reducible apply State.modHud_keeps
    | with_reducible apply State.refreshTarget_keeps
    | with_reducible apply State.sendRelay_keeps
    | (extract_lets +onlyGivenNames t; (with_reducible refine keeps_cut (s0 := s0) (t := t) ?_ ?_); rotate_left; intro ht; (try clear_value t); rotate_left; subst t)
    | extract_lets +onlyGivenNames t
    | with_reducible refine keepsRes_next ?_
    | dsimp -zeta only
    | split

/-- `State.takeGrant` keeps. -/
theorem State.takeGrant_keeps {s0 : State} (s : State) (up : Nat) (down : Nat) (h : Keeps s0 s) : Keeps s0 (State.takeGrant s up down) := by
  unfold State.takeGrant
  repeat' first
    | with_reducible assumption
    | with_reducible apply State.modHud_keeps

/-- `State.giveGrant` keeps. -/
theorem State.giveGrant_keeps {s0 : State} (s : State) (up : Nat) (down : Nat) (h : Keeps s0 s) : Keeps s0 (State.giveGrant s up down) := by
  unfold State.giveGrant
  repeat' first
    | intro _
    | with_reducible assumption
    | with_reducible apply State.modHud_keeps
    | with_reducible apply State.takeGrant_keeps
    | with_reducible apply State.sendRelay_keeps
    | extract_lets +onlyGivenNames t
    | with_reducible refine keeps_foldl ?_ _ ?_
    | split

/-- `execRelayLevelDeadline` keeps. -/
theorem execRelayLevelDeadline_keeps {s0 : State} (s : State) (h : Keeps s0 s) : KeepsRes s0 (execRelayLevelDeadline s) := by
  unfold execRelayLevelDeadline
  repeat' first
    | with_reducible assumption
    | with_reducible apply State.modHud_keeps
    | with_reducible apply State.sendRelay_keeps
    | with_reducible apply State.giveGrant_keeps
    | (extract_lets +onlyGivenNames t; (with_reducible refine keeps_cut (s0 := s0) (t := t) ?_ ?_); rotate_left; intro ht; (try clear_value t); rotate_left; subst t)
    | extract_lets +onlyGivenNames t
    | with_reducible refine keepsRes_next ?_
    | split

/-- `execRReq` keeps. -/
theorem execRReq_keeps {s0 : State} (lane : Fin 144) (p : Packet) (s : State) (h : Keeps s0 s) : KeepsRes s0 (execRReq lane p s) := by
  unfold execRReq
  repeat' first
    | intro _
    | with_reducible assumption
    | with_reducible apply State.onceRx_keeps
    | with_reducible apply State.modHud_keeps
    | extract_lets +onlyGivenNames t
    | with_reducible refine keepsRes_next ?_
    | split

/-- `execRGrant` keeps. -/
theorem execRGrant_keeps {s0 : State} (lane : Fin 144) (p : Packet) (s : State) (h : Keeps s0 s) : KeepsRes s0 (execRGrant lane p s) := by
  unfold execRGrant
  repeat' first
    | intro _
    | with_reducible assumption
    | with_reducible apply State.onceRx_keeps
    | with_reducible apply State.modHud_keeps
    | with_reducible apply State.giveGrant_keeps
    | extract_lets +onlyGivenNames t
    | with_reducible refine keepsRes_next ?_
    | split

end Sys2Proof.Machine
end

