-- ==== Sys2Proof/Laws/KeepsPower.lean ====
section
/-!
SUPPORT. Power, protection, thermal control, register rules and boot: each operation keeps (Keeps of Sys2Proof/Safety.lean).
-/
namespace Sys2Proof.Machine

set_option Elab.async false
set_option linter.tactic.unusedName false

/-- `execDroopReading` keeps. -/
theorem execDroopReading_keeps {s0 : State} (slot : Fin 288) (mv : List Nat) (s : State) (h : Keeps s0 s) : KeepsRes s0 (execDroopReading slot mv s) := by
  unfold execDroopReading
  repeat' first
    | with_reducible assumption
    | with_reducible apply State.setDom_keeps
    | extract_lets +onlyGivenNames t
    | with_reducible refine keepsRes_next ?_
    | split

/-- `execBoostRelease` keeps. -/
theorem execBoostRelease_keeps {s0 : State} (slot : Fin 288) (s : State) (h : Keeps s0 s) : KeepsRes s0 (execBoostRelease slot s) := by
  unfold execBoostRelease
  repeat' first
    | with_reducible assumption
    | with_reducible apply State.setDom_keeps
    | extract_lets +onlyGivenNames t
    | with_reducible refine keepsRes_next ?_
    | split

/-- `execDroopHigh` keeps. -/
theorem execDroopHigh_keeps {s0 : State} (slot : Fin 288) (cycles : Nat) (stretched : Nat) (s : State) (h : Keeps s0 s) : KeepsRes s0 (execDroopHigh slot cycles stretched s) := by
  unfold execDroopHigh
  repeat' first
    | with_reducible assumption
    | with_reducible apply State.setDom_keeps
    | with_reducible apply State.err_keeps
    | with_reducible apply State.event_keeps
    | with_reducible apply State.demand_keeps
    | with_reducible apply State.history_keeps
    | with_reducible apply State.retireUnit_keeps
    | with_reducible apply State.releaseLoop_keeps
    | (extract_lets +onlyGivenNames t; (with_reducible refine keeps_cut (s0 := s0) (t := t) ?_ ?_); rotate_left; intro ht; (try clear_value t); rotate_left; subst t)
    | extract_lets +onlyGivenNames t
    | ((with_reducible refine keeps_of_mk ?_); (with_reducible refine keeps_of ?_); with_reducible assumption)
    | with_reducible refine keepsRes_next ?_
    | dsimp -zeta only
    | split

/-- `execVoltageTransitionComplete` keeps. -/
theorem execVoltageTransitionComplete_keeps {s0 : State} (slot : Fin 288) (s : State) (h : Keeps s0 s) : KeepsRes s0 (execVoltageTransitionComplete slot s) := by
  unfold execVoltageTransitionComplete
  repeat' first
    | with_reducible assumption
    | with_reducible apply State.setDom_keeps
    | extract_lets +onlyGivenNames t
    | with_reducible refine keepsRes_next ?_
    | split

/-- `State.wakeDom` keeps. -/
theorem State.wakeDom_keeps {s0 : State} (s : State) (k : Nat) (h : Keeps s0 s) : Keeps s0 (State.wakeDom s k) := by
  unfold State.wakeDom
  repeat' first
    | with_reducible assumption
    | with_reducible apply State.setDom_keeps

/-- `State.blankCluster` keeps. -/
theorem State.blankCluster_keeps {s0 : State} (s : State) (c : Nat) (h : Keeps s0 s) : Keeps s0 (State.blankCluster s c) := by
  unfold State.blankCluster
  dsimp only
  exact keeps_of_mk (keeps_mem (State.setCl_keeps _ _ _ h) tabFilter_wf tabFilter_wf)

/-- `State.wakeOff` keeps. -/
theorem State.wakeOff_keeps {s0 : State} (s : State) (k : Nat) (cal : List (Nat × Nat)) (h : Keeps s0 s) : Keeps s0 (State.wakeOff s k cal) := by
  unfold State.wakeOff
  repeat' first
    | with_reducible assumption
    | with_reducible apply State.wakeDom_keeps
    | with_reducible apply State.setDom_keeps
    | with_reducible apply State.blankCluster_keeps
    | (extract_lets +onlyGivenNames t; (with_reducible refine keeps_cut (s0 := s0) (t := t) ?_ ?_); rotate_left; intro ht; (try clear_value t); rotate_left; subst t)
    | extract_lets +onlyGivenNames t
    | split

/-- `execSlotModeChange` keeps. -/
theorem execSlotModeChange_keeps {s0 : State} (slot : Fin 288) (on : Bool) (cal : List (Nat × Nat)) (s : State) (h : Keeps s0 s) : KeepsRes s0 (execSlotModeChange slot on cal s) := by
  unfold execSlotModeChange
  repeat' first
    | with_reducible assumption
    | with_reducible apply State.wakeDom_keeps
    | with_reducible apply State.wakeOff_keeps
    | with_reducible apply State.flushCache_keeps
    | with_reducible apply State.setDom_keeps
    | (extract_lets +onlyGivenNames t; (with_reducible refine keeps_cut (s0 := s0) (t := t) ?_ ?_); rotate_left; intro ht; (try clear_value t); rotate_left; subst t)
    | extract_lets +onlyGivenNames t
    | with_reducible refine keepsRes_next ?_
    | split

/-- `State.dropToP7` keeps. -/
theorem State.dropToP7_keeps {s0 : State} (s : State) (h : Keeps s0 s) : Keeps s0 (State.dropToP7 s) := by
  unfold State.dropToP7
  repeat' first
    | with_reducible assumption
    | with_reducible apply State.onDomains_keeps
    | (extract_lets +onlyGivenNames t; (with_reducible refine keeps_cut (s0 := s0) (t := t) ?_ ?_); rotate_left; intro ht; (try clear_value t); rotate_left; subst t)
    | extract_lets +onlyGivenNames t
    | ((with_reducible refine keeps_of_mk ?_); (with_reducible refine keeps_of ?_); with_reducible assumption)

/-- `State.countAlert` keeps. -/
theorem State.countAlert_keeps {s0 : State} (s : State) (h : Keeps s0 s) : Keeps s0 (State.countAlert s) := by
  unfold State.countAlert
  repeat' first
    | with_reducible apply State.total_keeps
    | extract_lets +onlyGivenNames t
    | ((with_reducible refine keeps_of_mk ?_); (with_reducible refine keeps_of ?_); with_reducible assumption)

/-- `execPwrAlertTaken` keeps. -/
theorem execPwrAlertTaken_keeps {s0 : State} (s : State) (h : Keeps s0 s) : KeepsRes s0 (execPwrAlertTaken s) := by
  unfold execPwrAlertTaken
  repeat' first
    | with_reducible assumption
    | with_reducible apply State.countAlert_keeps
    | with_reducible apply State.demand_keeps
    | with_reducible apply State.dropToP7_keeps
    | with_reducible apply State.event_keeps
    | with_reducible apply State.err_keeps
    | (extract_lets +onlyGivenNames t; (with_reducible refine keeps_cut (s0 := s0) (t := t) ?_ ?_); rotate_left; intro ht; (try clear_value t); rotate_left; subst t)
    | extract_lets +onlyGivenNames t
    | ((with_reducible refine keeps_of_mk ?_); (with_reducible refine keeps_of ?_); with_reducible assumption)
    | with_reducible refine keepsRes_next ?_
    | split

/-- `execPwrAlertRelease` keeps. -/
theorem execPwrAlertRelease_keeps {s0 : State} (s : State) (h : Keeps s0 s) : KeepsRes s0 (execPwrAlertRelease s) := by
  unfold execPwrAlertRelease
  repeat' first
    | with_reducible assumption
    | with_reducible apply State.event_keeps
    | with_reducible apply State.releaseLoop_keeps
    | extract_lets +onlyGivenNames t
    | ((with_reducible refine keeps_of_mk ?_); (with_reducible refine keeps_of ?_); with_reducible assumption)
    | with_reducible refine keepsRes_next ?_
    | split

/-- `State.flashWrite` keeps. -/
theorem State.flashWrite_keeps {s0 : State} (s : State) (a : Nat) (bs : List Sys2Proof.Byte) (h : Keeps s0 s) : Keeps s0 (State.flashWrite s a bs) := by
  unfold State.flashWrite
  repeat' ((with_reducible refine keeps_of_mk ?_); (with_reducible refine keeps_of ?_); with_reducible assumption)

/-- `State.flashErase` keeps. -/
theorem State.flashErase_keeps {s0 : State} (s : State) (a : Nat) (n : Nat) (h : Keeps s0 s) : Keeps s0 (State.flashErase s a n) := by
  unfold State.flashErase
  repeat' ((with_reducible refine keeps_of_mk ?_); (with_reducible refine keeps_of ?_); with_reducible assumption)

/-- `State.vinOff` keeps. -/
theorem State.vinOff_keeps {s0 : State} (s : State) (h : Keeps s0 s) : Keeps s0 (State.vinOff s) := by
  unfold State.vinOff
  repeat' first
    | extract_lets +onlyGivenNames t
    | ((with_reducible refine keeps_of_mk ?_); (with_reducible refine keeps_of ?_); with_reducible assumption)

/-- `State.startGasp` keeps. -/
theorem State.startGasp_keeps {s0 : State} (s : State) (cause : Nat) (h : Keeps s0 s) : Keeps s0 (State.startGasp s cause) := by
  unfold State.startGasp
  repeat' first
    | extract_lets +onlyGivenNames t
    | ((with_reducible refine keeps_of_mk ?_); (with_reducible refine keeps_of ?_); with_reducible assumption)

/-- `State.dropSends` keeps. -/
theorem State.dropSends_keeps {s0 : State} (s : State) (h : Keeps s0 s) : Keeps s0 (State.dropSends s) := by
  unfold State.dropSends
  repeat' first
    | extract_lets +onlyGivenNames t
    | ((with_reducible refine keeps_of_mk ?_); (with_reducible refine keeps_of ?_); with_reducible assumption)

/-- `execVinFailTaken` keeps. -/
theorem execVinFailTaken_keeps {s0 : State} (s : State) (h : Keeps s0 s) : KeepsRes s0 (execVinFailTaken s) := by
  have g : Keeps s0 { s with pwr := { s.pwr with vinFail := true, saveAt := s.now } } := h
  unfold execVinFailTaken
  refine keepsRes_next ?_
  split
  · exact h
  · extract_lets _ t
    replace g : Keeps s0 t := g
    clear_value t
    split
    · exact keeps_of_mk (keeps_of (State.vinOff_keeps _ g))
    · exact keeps_of_mk (keeps_of (State.dropSends_keeps _ (State.dropToP7_keeps _ (State.startGasp_keeps _ _ g))))

/-- `execVinFailGlitch` keeps. -/
theorem execVinFailGlitch_keeps {s0 : State} (s : State) (h : Keeps s0 s) : KeepsRes s0 (execVinFailGlitch s) := by
  unfold execVinFailGlitch
  repeat' first
    | with_reducible assumption
    | extract_lets +onlyGivenNames t
    | ((with_reducible refine keeps_of_mk ?_); (with_reducible refine keeps_of ?_); with_reducible assumption)
    | with_reducible refine keepsRes_next ?_
    | split

/-- `execSaveDomainsOff` keeps. -/
theorem execSaveDomainsOff_keeps {s0 : State} (s : State) (h : Keeps s0 s) : KeepsRes s0 (execSaveDomainsOff s) := by
  unfold execSaveDomainsOff
  repeat' first
    | with_reducible assumption
    | extract_lets +onlyGivenNames t
    | ((with_reducible refine keeps_of_mk ?_); (with_reducible refine keeps_of ?_); with_reducible assumption)
    | with_reducible refine keepsRes_next ?_
    | split

/-- `State.endGasp` keeps. -/
theorem State.endGasp_keeps {s0 : State} (s : State) (deadline : Bool) (h : Keeps s0 s) : Keeps s0 (State.endGasp s deadline) := by
  unfold State.endGasp
  repeat' first
    | extract_lets +onlyGivenNames t
    | ((with_reducible refine keeps_of_mk ?_); (with_reducible refine keeps_of ?_); with_reducible assumption)

/-- `execFlushEnd` keeps. -/
theorem execFlushEnd_keeps {s0 : State} (s : State) (h : Keeps s0 s) : KeepsRes s0 (execFlushEnd s) := by
  unfold execFlushEnd
  repeat' first
    | with_reducible assumption
    | with_reducible apply State.vinOff_keeps
    | with_reducible apply State.endGasp_keeps
    | extract_lets +onlyGivenNames t
    | with_reducible refine keepsRes_next ?_
    | split

/-- `execLastGaspProgrammed` keeps. -/
theorem execLastGaspProgrammed_keeps {s0 : State} (s : State) (h : Keeps s0 s) : KeepsRes s0 (execLastGaspProgrammed s) := by
  unfold execLastGaspProgrammed
  repeat' first
    | with_reducible assumption
    | with_reducible apply State.flashWrite_keeps
    | (extract_lets +onlyGivenNames t; (with_reducible refine keeps_cut (s0 := s0) (t := t) ?_ ?_); rotate_left; intro ht; (try clear_value t); rotate_left; subst t)
    | extract_lets +onlyGivenNames t
    | ((with_reducible refine keeps_of_mk ?_); (with_reducible refine keeps_of ?_); with_reducible assumption)
    | with_reducible refine keepsRes_next ?_
    | split

/-- `State.saveNow` keeps. -/
theorem State.saveNow_keeps {s0 : State} (s : State) (cause : Nat) (h : Keeps s0 s) : Keeps s0 (State.saveNow s cause) := by
  have g : Keeps s0 { s with pwr := { s.pwr with saveAt := s.now } } := h
  unfold State.saveNow
  extract_lets _ t
  replace g : Keeps s0 t := g
  clear_value t
  split
  · exact keeps_of_mk (keeps_of (State.vinOff_keeps _ g))
  · exact keeps_of_mk (keeps_of (State.vinOff_keeps _ (State.endGasp_keeps _ _
      (State.dropSends_keeps _ (State.dropToP7_keeps _ (State.startGasp_keeps _ _ g))))))

/-- `State.cutSave` keeps. -/
theorem State.cutSave_keeps {s0 : State} (s : State) (f : Gasp → Gasp) (h : Keeps s0 s) : Keeps s0 (State.cutSave s f) := by
  unfold State.cutSave
  repeat' first
    | with_reducible assumption
    | with_reducible apply State.vinOff_keeps
    | with_reducible apply State.endGasp_keeps
    | (extract_lets +onlyGivenNames t; (with_reducible refine keeps_cut (s0 := s0) (t := t) ?_ ?_); rotate_left; intro ht; (try clear_value t); rotate_left; subst t)
    | extract_lets +onlyGivenNames t
    | ((with_reducible refine keeps_of_mk ?_); (with_reducible refine keeps_of ?_); with_reducible assumption)
    | split

/-- `execBrownout` keeps. -/
theorem execBrownout_keeps {s0 : State} (s : State) (h : Keeps s0 s) : KeepsRes s0 (execBrownout s) := by
  unfold execBrownout
  repeat' first
    | with_reducible assumption
    | with_reducible apply State.saveNow_keeps
    | with_reducible apply State.cutSave_keeps
    | extract_lets +onlyGivenNames t
    | with_reducible refine keepsRes_next ?_
    | split

/-- `execOvervolt` keeps. -/
theorem execOvervolt_keeps {s0 : State} (s : State) (h : Keeps s0 s) : KeepsRes s0 (execOvervolt s) := by
  have g : Keeps s0 { s with pwr := { s.pwr with ovSeen := true } } := ⟨h.1, h.2.1, h.2.2.1, fun _ => rfl⟩
  unfold execOvervolt
  extract_lets _ t
  refine keepsRes_next ?_
  replace g : Keeps s0 t := g
  clear_value t
  split
  · exact g
  · split
    · exact State.saveNow_keeps _ _ g
    · exact State.cutSave_keeps _ _ g

/-- `execVauxLow` keeps. -/
theorem execVauxLow_keeps {s0 : State} (s : State) (h : Keeps s0 s) : KeepsRes s0 (execVauxLow s) := by
  unfold execVauxLow
  refine keepsRes_next ?_
  split
  · exact h
  · exact keeps_of_mk (keeps_of (State.dropSends_keeps _ (State.vinOff_keeps _ h)))

/-- `State.tripSave` keeps. -/
theorem State.tripSave_keeps {s0 : State} (s : State) (h : Keeps s0 s) : Keeps s0 (State.tripSave s) := by
  unfold State.tripSave
  repeat' first
    | with_reducible assumption
    | with_reducible apply State.cutSave_keeps

/-- `execPkgWSample` keeps. -/
theorem execPkgWSample_keeps {s0 : State} (w : Sys2Proof.W16) (s : State) (h : Keeps s0 s) : KeepsRes s0 (execPkgWSample w s) := by
  unfold execPkgWSample
  repeat' first
    | with_reducible assumption
    | extract_lets +onlyGivenNames t
    | ((with_reducible refine keeps_of_mk ?_); (with_reducible refine keeps_of ?_); with_reducible assumption)
    | with_reducible refine keepsRes_next ?_
    | split

/-- `execCapLoopCheck` keeps. -/
theorem execCapLoopCheck_keeps {s0 : State} (s : State) (h : Keeps s0 s) : KeepsRes s0 (execCapLoopCheck s) := by
  unfold execCapLoopCheck
  repeat' first
    | with_reducible assumption
    | with_reducible apply State.demand_keeps
    | with_reducible apply State.event_keeps
    | with_reducible apply State.releaseLoop_keeps
    | extract_lets +onlyGivenNames t
    | with_reducible refine keepsRes_next ?_
    | split

/-- `execHysteresisExpire` keeps. -/
theorem execHysteresisExpire_keeps {s0 : State} (s : State) (h : Keeps s0 s) : KeepsRes s0 (execHysteresisExpire s) := by
  unfold execHysteresisExpire
  repeat' first
    | with_reducible assumption
    | with_reducible apply State.prepare_keeps
    | with_reducible apply State.schedule_keeps
    | (extract_lets +onlyGivenNames t; (with_reducible refine keeps_cut (s0 := s0) (t := t) ?_ ?_); rotate_left; intro ht; (try clear_value t); rotate_left; subst t)
    | extract_lets +onlyGivenNames t
    | ((with_reducible refine keeps_of_mk ?_); (with_reducible refine keeps_of ?_); with_reducible assumption)
    | with_reducible refine keepsRes_next ?_
    | split

/-- `execKeepwarmAdjust` keeps. -/
theorem execKeepwarmAdjust_keeps {s0 : State} (w : Sys2Proof.W16) (s : State) (h : Keeps s0 s) : KeepsRes s0 (execKeepwarmAdjust w s) := by
  unfold execKeepwarmAdjust
  repeat' first
    | with_reducible apply State.total_keeps
    | extract_lets +onlyGivenNames t
    | ((with_reducible refine keeps_of_mk ?_); (with_reducible refine keeps_of ?_); with_reducible assumption)
    | with_reducible refine keepsRes_next ?_

/-- `State.throttleRow` keeps. -/
theorem State.throttleRow_keeps {s0 : State} (s : State) (tj : Nat) (h : Keeps s0 s) : Keeps s0 (State.throttleRow s tj) := by
  unfold State.throttleRow
  repeat' first
    | with_reducible assumption
    | with_reducible apply State.demand_keeps
    | with_reducible apply State.event_keeps
    | with_reducible apply State.total_keeps
    | with_reducible apply State.releaseLoop_keeps
    | (extract_lets +onlyGivenNames t; (with_reducible refine keeps_cut (s0 := s0) (t := t) ?_ ?_); rotate_left; intro ht; (try clear_value t); rotate_left; subst t)
    | extract_lets +onlyGivenNames t
    | ((with_reducible refine keeps_of_mk ?_); (with_reducible refine keeps_of ?_); with_reducible assumption)
    | split

/-- `State.hotRow` keeps. -/
theorem State.hotRow_keeps {s0 : State} (s : State) (tj : Nat) (h : Keeps s0 s) : Keeps s0 (State.hotRow s tj) := by
  unfold State.hotRow
  repeat' first
    | with_reducible assumption
    | with_reducible apply State.demand_keeps
    | with_reducible apply State.dropToP7_keeps
    | with_reducible apply State.total_keeps
    | with_reducible apply State.releaseLoop_keeps
    | extract_lets +onlyGivenNames t
    | ((with_reducible refine keeps_of_mk ?_); (with_reducible refine keeps_of ?_); with_reducible assumption)
    | split

/-- `execTjSample` keeps. -/
theorem execTjSample_keeps {s0 : State} (tj : BitVec 12) (s : State) (h : Keeps s0 s) : KeepsRes s0 (execTjSample tj s) := by
  unfold execTjSample
  repeat' first
    | with_reducible assumption
    | with_reducible apply State.err_keeps
    | with_reducible apply State.throttleRow_keeps
    | with_reducible apply State.hotRow_keeps
    | (extract_lets +onlyGivenNames t; (with_reducible refine keeps_cut (s0 := s0) (t := t) ?_ ?_); rotate_left; intro ht; (try clear_value t); rotate_left; subst t)
    | extract_lets +onlyGivenNames t
    | ((with_reducible refine keeps_of_mk ?_); (with_reducible refine keeps_of ?_); with_reducible assumption)
    | with_reducible refine keepsRes_next ?_
    | split

/-- `execThermtrip` keeps. -/
theorem execThermtrip_keeps {s0 : State} (s : State) (h : Keeps s0 s) : KeepsRes s0 (execThermtrip s) := by
  unfold execThermtrip
  refine keepsRes_next ?_
  split
  · exact h
  · have g := State.vinOff_keeps _ (State.dropSends_keeps _ (State.tripSave_keeps _ h))
    exact ⟨g.1, g.2.1, fun _ => rfl, g.2.2.2⟩

/-- `State.coolRow` keeps. -/
theorem State.coolRow_keeps {s0 : State} (s : State) (h : Keeps s0 s) : Keeps s0 (State.coolRow s) := by
  unfold State.coolRow
  repeat' first
    | with_reducible assumption
    | with_reducible apply State.demand_keeps
    | with_reducible apply State.event_keeps
    | with_reducible apply State.releaseLoop_keeps
    | (extract_lets +onlyGivenNames t; (with_reducible refine keeps_cut (s0 := s0) (t := t) ?_ ?_); rotate_left; intro ht; (try clear_value t); rotate_left; subst t)
    | extract_lets +onlyGivenNames t
    | ((with_reducible refine keeps_of_mk ?_); (with_reducible refine keeps_of ?_); with_reducible assumption)
    | split

/-- `execCoolantEval` keeps. -/
theorem execCoolantEval_keeps {s0 : State} (s : State) (h : Keeps s0 s) : KeepsRes s0 (execCoolantEval s) := by
  unfold execCoolantEval
  repeat' first
    | with_reducible assumption
    | with_reducible apply State.event_keeps
    | with_reducible apply State.coolRow_keeps
    | (extract_lets +onlyGivenNames t; (with_reducible refine keeps_cut (s0 := s0) (t := t) ?_ ?_); rotate_left; intro ht; (try clear_value t); rotate_left; subst t)
    | extract_lets +onlyGivenNames t
    | ((with_reducible refine keeps_of_mk ?_); (with_reducible refine keeps_of ?_); with_reducible assumption)
    | with_reducible refine keepsRes_next ?_
    | split

/-- `State.setHb` keeps. -/
theorem State.setHb_keeps {s0 : State} (s : State) (h' : HbState) (h : Keeps s0 s) : Keeps s0 (State.setHb s h') := by
  unfold State.setHb
  repeat' first
    | with_reducible assumption
    | with_reducible apply State.event_keeps
    | with_reducible apply State.err_keeps
    | (extract_lets +onlyGivenNames t; (with_reducible refine keeps_cut (s0 := s0) (t := t) ?_ ?_); rotate_left; intro ht; (try clear_value t); rotate_left; subst t)
    | extract_lets +onlyGivenNames t
    | ((with_reducible refine keeps_of_mk ?_); (with_reducible refine keeps_of ?_); with_reducible assumption)
    | split

/-- `execHeatBalanceCheck` keeps. -/
theorem execHeatBalanceCheck_keeps {s0 : State} (s : State) (h : Keeps s0 s) : KeepsRes s0 (execHeatBalanceCheck s) := by
  unfold execHeatBalanceCheck
  repeat' first
    | with_reducible assumption
    | with_reducible apply State.setHb_keeps
    | (extract_lets +onlyGivenNames t; (with_reducible refine keeps_cut (s0 := s0) (t := t) ?_ ?_); rotate_left; intro ht; (try clear_value t); rotate_left; subst t)
    | extract_lets +onlyGivenNames t
    | ((with_reducible refine keeps_of_mk ?_); (with_reducible refine keeps_of ?_); with_reducible assumption)
    | with_reducible refine keepsRes_next ?_
    | split

/-- `execRampHoldCheck` keeps. -/
theorem execRampHoldCheck_keeps {s0 : State} (s : State) (h : Keeps s0 s) : KeepsRes s0 (execRampHoldCheck s) := by
  unfold execRampHoldCheck
  repeat' first
    | with_reducible assumption
    | extract_lets +onlyGivenNames t
    | ((with_reducible refine keeps_of_mk ?_); (with_reducible refine keeps_of ?_); with_reducible assumption)
    | with_reducible refine keepsRes_next ?_
    | split

/-- `execForecastForm` keeps. -/
theorem execForecastForm_keeps {s0 : State} (s : State) (h : Keeps s0 s) : KeepsRes s0 (execForecastForm s) := by
  unfold execForecastForm
  repeat' first
    | with_reducible assumption
    | extract_lets +onlyGivenNames t
    | ((with_reducible refine keeps_of_mk ?_); (with_reducible refine keeps_of ?_); with_reducible assumption)
    | with_reducible refine keepsRes_next ?_
    | split

/-- `State.setRelayCfg` keeps. -/
theorem State.setRelayCfg_keeps {s0 : State} (s : State) (w : Nat) (h : Keeps s0 s) : Keeps s0 (State.setRelayCfg s w) := by
  unfold State.setRelayCfg
  repeat' first
    | with_reducible assumption
    | with_reducible apply State.modHud_keeps

/-- `State.setRelaySite` keeps. -/
theorem State.setRelaySite_keeps {s0 : State} (s : State) (w : Nat) (h : Keeps s0 s) : Keeps s0 (State.setRelaySite s w) := by
  unfold State.setRelaySite
  repeat' first
    | with_reducible assumption
    | with_reducible apply State.modHud_keeps

/-- `State.setRefCfg` keeps. -/
theorem State.setRefCfg_keeps {s0 : State} (s : State) (w : Nat) (h : Keeps s0 s) : Keeps s0 (State.setRefCfg s w) := by
  unfold State.setRefCfg
  repeat' first
    | extract_lets +onlyGivenNames t
    | ((with_reducible refine keeps_of_mk ?_); (with_reducible refine keeps_of ?_); with_reducible assumption)

/-- `State.setPart` keeps. -/
theorem State.setPart_keeps {s0 : State} (s : State) (k : Nat) (p : Nat) (w : Nat) (h : Keeps s0 s) : Keeps s0 (State.setPart s k p w) := by
  unfold State.setPart
  repeat' first
    | with_reducible assumption
    | with_reducible apply State.setStack_keeps

/-- `State.setClassMap` keeps. -/
theorem State.setClassMap_keeps {s0 : State} (s : State) (k : Nat) (w : Nat) (h : Keeps s0 s) : Keeps s0 (State.setClassMap s k w) := by
  unfold State.setClassMap
  repeat' first
    | with_reducible assumption
    | with_reducible apply State.setStack_keeps

/-- `State.setFabCfg` keeps. -/
theorem State.setFabCfg_keeps {s0 : State} (s : State) (w : Nat) (h : Keeps s0 s) : Keeps s0 (State.setFabCfg s w) := by
  unfold State.setFabCfg
  repeat' first
    | extract_lets +onlyGivenNames t
    | ((with_reducible refine keeps_of_mk ?_); (with_reducible refine keeps_of ?_); with_reducible assumption)

/-- `State.setFabTune` keeps. -/
theorem State.setFabTune_keeps {s0 : State} (s : State) (w : Nat) (h : Keeps s0 s) : Keeps s0 (State.setFabTune s w) := by
  unfold State.setFabTune
  repeat' first
    | extract_lets +onlyGivenNames t
    | ((with_reducible refine keeps_of_mk ?_); (with_reducible refine keeps_of ?_); with_reducible assumption)

/-- `State.startTick` keeps. -/
theorem State.startTick_keeps {s0 : State} (s : State) (root : Nat) (root2 : Nat) (h : Keeps s0 s) : Keeps s0 (State.startTick s root root2) := by
  unfold State.startTick
  repeat' first
    | with_reducible assumption
    | with_reducible apply State.modHud_keeps

/-- `State.restart` keeps. -/
theorem State.restart_keeps {s0 : State} (s : State) (cause : Nat) (h : Keeps s0 s) : Keeps s0 (State.restart s cause) := by
  exact ⟨h.1, fun _ => rfl, h.2.2.1, h.2.2.2⟩

/-- `State.uartLine` keeps. -/
theorem State.uartLine_keeps {s0 : State} (s : State) (h : Keeps s0 s) : Keeps s0 (State.uartLine s) := by
  unfold State.uartLine
  repeat' first
    | extract_lets +onlyGivenNames t
    | ((with_reducible refine keeps_of_mk ?_); (with_reducible refine keeps_of ?_); with_reducible assumption)

/-- `State.journalAdd` keeps. -/
theorem State.journalAdd_keeps {s0 : State} (s : State) (op : Nat) (addr : Nat) (len : Nat) (h : Keeps s0 s) : Keeps s0 (State.journalAdd s op addr len) := by
  unfold State.journalAdd
  repeat' first
    | with_reducible assumption
    | with_reducible apply State.flashWrite_keeps
    | with_reducible apply State.flashErase_keeps
    | split

/-- `State.journalClose` keeps. -/
theorem State.journalClose_keeps {s0 : State} (s : State) (op : Nat) (addr : Nat) (h : Keeps s0 s) : Keeps s0 (State.journalClose s op addr) := by
  unfold State.journalClose
  repeat' first
    | intro _
    | with_reducible assumption
    | with_reducible apply State.flashWrite_keeps
    | extract_lets +onlyGivenNames t
    | with_reducible refine keeps_foldl ?_ _ ?_
    | split

/-- `State.eraseJ` keeps. -/
theorem State.eraseJ_keeps {s0 : State} (s : State) (a : Nat) (n : Nat) (h : Keeps s0 s) : Keeps s0 (State.eraseJ s a n) := by
  unfold State.eraseJ
  repeat' first
    | with_reducible assumption
    | with_reducible apply State.journalClose_keeps
    | with_reducible apply State.flashErase_keeps
    | with_reducible apply State.journalAdd_keeps

/-- `State.writeJ` keeps. -/
theorem State.writeJ_keeps {s0 : State} (s : State) (a : Nat) (bs : List Sys2Proof.Byte) (h : Keeps s0 s) : Keeps s0 (State.writeJ s a bs) := by
  unfold State.writeJ
  repeat' first
    | with_reducible assumption
    | with_reducible apply State.journalClose_keeps
    | with_reducible apply State.flashWrite_keeps
    | with_reducible apply State.journalAdd_keeps

/-- `State.journalReplay` keeps. -/
theorem State.journalReplay_keeps {s0 : State} (s : State) (h : Keeps s0 s) : Keeps s0 (State.journalReplay s) := by
  unfold State.journalReplay
  repeat' first
    | intro _
    | with_reducible assumption
    | with_reducible apply State.flashErase_keeps
    | with_reducible apply State.flashWrite_keeps
    | (extract_lets +onlyGivenNames t; (with_reducible refine keeps_cut (s0 := s0) (t := t) ?_ ?_); rotate_left; intro ht; (try clear_value t); rotate_left; subst t)
    | extract_lets +onlyGivenNames t
    | with_reducible refine keeps_foldl ?_ _ ?_
    | split

/-- `State.mgmtPort` keeps. -/
theorem State.mgmtPort_keeps {s0 : State} (s : State) (h : Keeps s0 s) : Keeps s0 (State.mgmtPort s) := by
  unfold State.mgmtPort
  repeat' first
    | extract_lets +onlyGivenNames t
    | ((with_reducible refine keeps_of_mk ?_); (with_reducible refine keeps_of ?_); with_reducible assumption)

/-- `State.romPort` keeps. -/
theorem State.romPort_keeps {s0 : State} (s : State) (h : Keeps s0 s) : Keeps s0 (State.romPort s) := by
  unfold State.romPort
  repeat' first
    | with_reducible apply State.mgmtPort_keeps
    | extract_lets +onlyGivenNames t
    | ((with_reducible refine keeps_of_mk ?_); (with_reducible refine keeps_of ?_); with_reducible assumption)

/-- `State.applyBcr` keeps. -/
theorem State.applyBcr_keeps {s0 : State} (s : State) (h : Keeps s0 s) : Keeps s0 (State.applyBcr s) := by
  unfold State.applyBcr
  repeat' first
    | intro _
    | with_reducible assumption
    | with_reducible apply State.err_keeps
    | with_reducible apply State.mgmtPort_keeps
    | (extract_lets +onlyGivenNames t; (with_reducible refine keeps_cut (s0 := s0) (t := t) ?_ ?_); rotate_left; intro ht; (try clear_value t); rotate_left; subst t)
    | extract_lets +onlyGivenNames t
    | ((with_reducible refine keeps_of_mk ?_); (with_reducible refine keeps_of ?_); with_reducible assumption)
    | with_reducible refine keeps_foldl ?_ _ ?_
    | dsimp -zeta only
    | split
    | (simp only [keeps_mk]; with_reducible refine keeps_of ?_)

/-- `State.readRepair` keeps. -/
theorem State.readRepair_keeps {s0 : State} (s : State) (h : Keeps s0 s) : Keeps s0 (State.readRepair s) := by
  unfold State.readRepair
  repeat' first
    | with_reducible apply State.err_keeps
    | extract_lets +onlyGivenNames t
    | ((with_reducible refine keeps_of_mk ?_); (with_reducible refine keeps_of ?_); with_reducible assumption)
    | split

/-- `State.joinSpare` keeps. -/
theorem State.joinSpare_keeps {s0 : State} (s : State) (k : Nat) (c : Nat) (h : Keeps s0 s) : Keeps s0 (State.joinSpare s k c) := by
  unfold State.joinSpare
  repeat' first
    | with_reducible assumption
    | with_reducible apply State.unitTo_keeps
    | with_reducible apply State.wakeDom_keeps
    | with_reducible apply State.setUnit_keeps
    | with_reducible apply State.unitJoin_keeps
    | with_reducible apply State.blankCluster_keeps
    | with_reducible apply State.err_keeps
    | extract_lets +onlyGivenNames t
    | (simp only [keeps_mk]; with_reducible refine keeps_of ?_)

/-- `State.mapSpare` keeps. -/
theorem State.mapSpare_keeps {s0 : State} (s : State) (c : Nat) (h : Keeps s0 s) : Keeps s0 (State.mapSpare s c) := by
  unfold State.mapSpare
  repeat' first
    | intro _
    | with_reducible assumption
    | with_reducible apply State.joinSpare_keeps
    | with_reducible apply State.history_keeps
    | with_reducible apply State.retireUnit_keeps
    | with_reducible apply State.unitTo_keeps
    | with_reducible apply State.err_keeps
    | (extract_lets +onlyGivenNames t; (with_reducible refine keeps_cut (s0 := s0) (t := t.1) ?_ ?_); rotate_left; intro ht; (try clear_value t); rotate_left; subst t)
    | extract_lets +onlyGivenNames t
    | with_reducible refine keeps_foldl_fst ?_ _ ?_
    | dsimp -zeta only
    | split

/-- `State.mapSpares` keeps. -/
theorem State.mapSpares_keeps {s0 : State} (s : State) (h : Keeps s0 s) : Keeps s0 (State.mapSpares s) := by
  unfold State.mapSpares
  repeat' first
    | intro _
    | with_reducible assumption
    | with_reducible apply State.mapSpare_keeps
    | extract_lets +onlyGivenNames t
    | with_reducible refine keeps_foldl ?_ _ ?_
    | split

/-- `execSysResetAssert` keeps. -/
theorem execSysResetAssert_keeps {s0 : State} (s : State) (h : Keeps s0 s) : KeepsRes s0 (execSysResetAssert s) := by
  unfold execSysResetAssert
  repeat' first
    | with_reducible assumption
    | with_reducible apply State.restart_keeps
    | extract_lets +onlyGivenNames t
    | with_reducible refine keepsRes_next ?_
    | split

/-- `State.romRef` keeps. -/
theorem State.romRef_keeps {s0 : State} (s : State) (h : Keeps s0 s) : Keeps s0 (State.romRef s) := by
  unfold State.romRef
  repeat' first
    | with_reducible assumption
    | with_reducible apply State.modClk_keeps
    | extract_lets +onlyGivenNames t
    | split

/-- `execSysResetDeassert` keeps. -/
theorem execSysResetDeassert_keeps {s0 : State} (bootSel : BitVec 2) (s : State) (h : Keeps s0 s) : KeepsRes s0 (execSysResetDeassert bootSel s) := by
  unfold execSysResetDeassert
  repeat' first
    | with_reducible assumption
    | with_reducible apply State.romRef_keeps
    | extract_lets +onlyGivenNames t
    | ((with_reducible refine keeps_of_mk ?_); (with_reducible refine keeps_of ?_); with_reducible assumption)
    | with_reducible refine keepsRes_next ?_
    | split

/-- `execWatchdogExpire` keeps. -/
theorem execWatchdogExpire_keeps {s0 : State} (s : State) (h : Keeps s0 s) : KeepsRes s0 (execWatchdogExpire s) := by
  unfold execWatchdogExpire
  repeat' first
    | with_reducible assumption
    | with_reducible apply State.restart_keeps
    | (extract_lets +onlyGivenNames t; (with_reducible refine keeps_cut (s0 := s0) (t := t) ?_ ?_); rotate_left; intro ht; (try clear_value t); rotate_left; subst t)
    | extract_lets +onlyGivenNames t
    | ((with_reducible refine keeps_of_mk ?_); (with_reducible refine keeps_of ?_); with_reducible assumption)
    | with_reducible refine keepsRes_next ?_
    | split

/-- `execVauxRemoved` keeps. -/
theorem execVauxRemoved_keeps (s t : State) (h : execVauxRemoved s = .next t) : t.pending = s.pending ∧ t.memOk = true := by
  unfold execVauxRemoved at h
  injection h with h
  subst h
  exact ⟨rfl, rfl⟩

/-- `execRefWaitRetry` keeps. -/
theorem execRefWaitRetry_keeps {s0 : State} (s : State) (h : Keeps s0 s) : KeepsRes s0 (execRefWaitRetry s) := by
  unfold execRefWaitRetry
  repeat' first
    | with_reducible assumption
    | with_reducible apply State.uartLine_keeps
    | extract_lets +onlyGivenNames t
    | with_reducible refine keepsRes_next ?_
    | split

/-- `State.recovery` keeps. -/
theorem State.recovery_keeps {s0 : State} (s : State) (h : Keeps s0 s) : Keeps s0 (State.recovery s) := by
  unfold State.recovery
  repeat' first
    | with_reducible apply State.romPort_keeps
    | extract_lets +onlyGivenNames t
    | ((with_reducible refine keeps_of_mk ?_); (with_reducible refine keeps_of ?_); with_reducible assumption)

/-- `execPllFirstLock` keeps. -/
theorem execPllFirstLock_keeps {s0 : State} (s : State) (h : Keeps s0 s) : KeepsRes s0 (execPllFirstLock s) := by
  unfold execPllFirstLock
  repeat' first
    | with_reducible assumption
    | with_reducible apply State.modClk_keeps
    | with_reducible apply State.recovery_keeps
    | with_reducible apply State.romPort_keeps
    | (extract_lets +onlyGivenNames t; (with_reducible refine keeps_cut (s0 := s0) (t := t) ?_ ?_); rotate_left; intro ht; (try clear_value t); rotate_left; subst t)
    | extract_lets +onlyGivenNames t
    | ((with_reducible refine keeps_of_mk ?_); (with_reducible refine keeps_of ?_); with_reducible assumption)
    | with_reducible refine keepsRes_next ?_
    | split

/-- `execTftpBoot` keeps. -/
theorem execTftpBoot_keeps {s0 : State} (image : Option (List Sys2Proof.Byte)) (s : State) (h : Keeps s0 s) : KeepsRes s0 (execTftpBoot image s) := by
  unfold execTftpBoot
  repeat' first
    | with_reducible assumption
    | with_reducible apply State.recovery_keeps
    | extract_lets +onlyGivenNames t
    | ((with_reducible refine keeps_of_mk ?_); (with_reducible refine keeps_of ?_); with_reducible assumption)
    | with_reducible refine keepsRes_next ?_
    | split

/-- `State.startNganor` keeps. -/
theorem State.startNganor_keeps {s0 : State} (s : State) (b : List Sys2Proof.Byte) (slot : Nat) (fallback : Bool) (h : Keeps s0 s) : Keeps s0 (State.startNganor s b slot fallback) := by
  unfold State.startNganor
  repeat' first
    | extract_lets +onlyGivenNames t
    | ((with_reducible refine keeps_of_mk ?_); (with_reducible refine keeps_of ?_); with_reducible assumption)

/-- `State.readGasp` keeps. -/
theorem State.readGasp_keeps {s0 : State} (s : State) (h : Keeps s0 s) : Keeps s0 (State.readGasp s) := by
  unfold State.readGasp
  repeat' first
    | with_reducible assumption
    | with_reducible apply State.eraseJ_keeps
    | with_reducible apply State.writeJ_keeps
    | (extract_lets +onlyGivenNames t; (with_reducible refine keeps_cut (s0 := s0) (t := t) ?_ ?_); rotate_left; intro ht; (try clear_value t); rotate_left; subst t)
    | extract_lets +onlyGivenNames t
    | ((with_reducible refine keeps_of_mk ?_); (with_reducible refine keeps_of ?_); with_reducible assumption)
    | split

/-- `State.bootUnits` keeps. -/
theorem State.bootUnits_keeps {s0 : State} (s : State) (cal : List (Nat × Nat)) (h : Keeps s0 s) : Keeps s0 (State.bootUnits s cal) := by
  unfold State.bootUnits
  repeat' first
    | intro _
    | with_reducible assumption
    | with_reducible apply State.setCl_keeps
    | with_reducible apply State.setSlice_keeps
    | with_reducible apply State.history_keeps
    | with_reducible apply State.retireUnit_keeps
    | (extract_lets +onlyGivenNames t; (with_reducible refine keeps_cut (s0 := s0) (t := t) ?_ ?_); rotate_left; intro ht; (try clear_value t); rotate_left; subst t)
    | extract_lets +onlyGivenNames t
    | ((with_reducible refine keeps_of_mk ?_); (with_reducible refine keeps_of ?_); with_reducible assumption)
    | with_reducible refine keeps_foldl ?_ _ ?_
    | dsimp -zeta only
    | split

/-- `State.firmwareStage` keeps. -/
theorem State.firmwareStage_keeps {s0 : State} (s : State) (cal : List (Nat × Nat)) (h : Keeps s0 s) : Keeps s0 (State.firmwareStage s cal) := by
  unfold State.firmwareStage
  repeat' first
    | with_reducible assumption
    | with_reducible apply State.mapSpares_keeps
    | with_reducible apply State.bootUnits_keeps
    | with_reducible apply State.readRepair_keeps
    | with_reducible apply State.readGasp_keeps
    | with_reducible apply State.applyBcr_keeps
    | with_reducible apply State.journalReplay_keeps
    | (extract_lets +onlyGivenNames t; (with_reducible refine keeps_cut (s0 := s0) (t := t) ?_ ?_); rotate_left; intro ht; (try clear_value t); rotate_left; subst t)
    | extract_lets +onlyGivenNames t
    | ((with_reducible refine keeps_of_mk ?_); (with_reducible refine keeps_of ?_); with_reducible assumption)

/-- `execFirmwareVerify` keeps. -/
theorem execFirmwareVerify_keeps {s0 : State} (cal : List (Nat × Nat)) (s : State) (h : Keeps s0 s) : KeepsRes s0 (execFirmwareVerify cal s) := by
  unfold execFirmwareVerify
  repeat' first
    | with_reducible assumption
    | with_reducible apply State.firmwareStage_keeps
    | with_reducible apply State.startNganor_keeps
    | with_reducible apply State.recovery_keeps
    | extract_lets +onlyGivenNames t
    | with_reducible refine keepsRes_next ?_
    | split

/-- `execHbmTrainingComplete` keeps. -/
theorem execHbmTrainingComplete_keeps {s0 : State} (failed : List Nat) (s : State) (h : Keeps s0 s) : KeepsRes s0 (execHbmTrainingComplete failed s) := by
  unfold execHbmTrainingComplete
  repeat' first
    | intro _
    | with_reducible assumption
    | with_reducible apply State.history_keeps
    | with_reducible apply State.retireUnit_keeps
    | with_reducible apply State.setLane_keeps
    | (extract_lets +onlyGivenNames t; (with_reducible refine keeps_cut (s0 := s0) (t := t) ?_ ?_); rotate_left; intro ht; (try clear_value t); rotate_left; subst t)
    | extract_lets +onlyGivenNames t
    | ((with_reducible refine keeps_of_mk ?_); (with_reducible refine keeps_of ?_); with_reducible assumption)
    | with_reducible refine keeps_foldl ?_ _ ?_
    | with_reducible refine keepsRes_next ?_
    | dsimp -zeta only
    | split

/-- `execOpticalStageEnd` keeps. -/
theorem execOpticalStageEnd_keeps {s0 : State} (s : State) (h : Keeps s0 s) : KeepsRes s0 (execOpticalStageEnd s) := by
  unfold execOpticalStageEnd
  repeat' first
    | with_reducible assumption
    | with_reducible apply State.startTick_keeps
    | with_reducible apply State.setFabTune_keeps
    | with_reducible apply State.setFabCfg_keeps
    | (extract_lets +onlyGivenNames t; (with_reducible refine keeps_cut (s0 := s0) (t := t) ?_ ?_); rotate_left; intro ht; (try clear_value t); rotate_left; subst t)
    | extract_lets +onlyGivenNames t
    | ((with_reducible refine keeps_of_mk ?_); (with_reducible refine keeps_of ?_); with_reducible assumption)
    | with_reducible refine keepsRes_next ?_
    | split

/-- `execBistStageComplete` keeps. -/
theorem execBistStageComplete_keeps {s0 : State} (failed : List (Nat × Nat)) (s : State) (h : Keeps s0 s) : KeepsRes s0 (execBistStageComplete failed s) := by
  unfold execBistStageComplete
  repeat' first
    | intro _
    | with_reducible assumption
    | with_reducible apply State.retireUnit_keeps
    | with_reducible apply State.err_keeps
    | with_reducible apply State.mapSpares_keeps
    | (extract_lets +onlyGivenNames t; (with_reducible refine keeps_cut (s0 := s0) (t := t) ?_ ?_); rotate_left; intro ht; (try clear_value t); rotate_left; subst t)
    | extract_lets +onlyGivenNames t
    | ((with_reducible refine keeps_of_mk ?_); (with_reducible refine keeps_of ?_); with_reducible assumption)
    | with_reducible refine keeps_foldl ?_ _ ?_
    | with_reducible refine keepsRes_next ?_
    | split

/-- `State.gratuitousArp` keeps. -/
theorem State.gratuitousArp_keeps {s0 : State} (s : State) (h : Keeps s0 s) : Keeps s0 (State.gratuitousArp s) := by
  unfold State.gratuitousArp
  repeat' first
    | with_reducible assumption
    | extract_lets +onlyGivenNames t
    | ((with_reducible refine keeps_of_mk ?_); (with_reducible refine keeps_of ?_); with_reducible assumption)
    | split

/-- `execAnnounce` keeps. -/
theorem execAnnounce_keeps {s0 : State} (s : State) (h : Keeps s0 s) : KeepsRes s0 (execAnnounce s) := by
  unfold execAnnounce
  repeat' first
    | with_reducible assumption
    | with_reducible apply State.gratuitousArp_keeps
    | with_reducible apply State.uartLine_keeps
    | extract_lets +onlyGivenNames t
    | ((with_reducible refine keeps_of_mk ?_); (with_reducible refine keeps_of ?_); with_reducible assumption)
    | with_reducible refine keepsRes_next ?_
    | split

end Sys2Proof.Machine
end

