-- ==== Sys2Proof/Laws/KeepsPorts.lean ====
section
/-!
SUPPORT. Mailboxes, interfaces and RoCEv2: each operation keeps (Keeps of Sys2Proof/Safety.lean).
-/
namespace Sys2Proof.Machine

set_option Elab.async false
set_option linter.tactic.unusedName false

/-- `State.modBox` keeps. -/
theorem State.modBox_keeps {s0 : State} (s : State) (m : Nat) (f : Mailbox → Mailbox) (h : Keeps s0 s) : Keeps s0 (State.modBox s m f) := by
  unfold State.modBox
  repeat' first
    | with_reducible assumption
    | with_reducible apply State.setBox_keeps

/-- `State.writeReq` keeps. -/
theorem State.writeReq_keeps {s0 : State} (s : State) (m : Nat) (off : Nat) (bs : List Sys2Proof.Byte) (h : Keeps s0 s) : Keeps s0 (State.writeReq s m off bs) := by
  unfold State.writeReq
  repeat' first
    | with_reducible assumption
    | with_reducible apply State.setBox_keeps
    | extract_lets +onlyGivenNames t
    | split

/-- `State.unbindBox` keeps. -/
theorem State.unbindBox_keeps {s0 : State} (s : State) (m : Nat) (h : Keeps s0 s) : Keeps s0 (State.unbindBox s m) := by
  unfold State.unbindBox
  repeat' first
    | with_reducible assumption
    | with_reducible apply State.setBox_keeps
    | with_reducible apply State.event_keeps
    | (extract_lets +onlyGivenNames t; (with_reducible refine keeps_cut (s0 := s0) (t := t) ?_ ?_); rotate_left; intro ht; (try clear_value t); rotate_left; subst t)
    | extract_lets +onlyGivenNames t
    | split

/-- `State.mbSend` keeps. -/
theorem State.mbSend_keeps {s0 : State} (s : State) (f : MbFrame) (h : Keeps s0 s) : Keeps s0 (State.mbSend s f) := by
  unfold State.mbSend
  repeat' first
    | extract_lets +onlyGivenNames t
    | ((with_reducible refine keeps_of_mk ?_); (with_reducible refine keeps_of ?_); with_reducible assumption)

/-- `State.statusFrame` keeps. -/
theorem State.statusFrame_keeps {s0 : State} (s : State) (m : Nat) (to_ : Option Owner) (h : Keeps s0 s) : Keeps s0 (State.statusFrame s m to_) := by
  unfold State.statusFrame
  repeat' first
    | with_reducible assumption
    | with_reducible apply State.mbSend_keeps

/-- `State.respond` keeps. -/
theorem State.respond_keeps {s0 : State} (s : State) (m : Nat) (a : Answer) (h : Keeps s0 s) : Keeps s0 (State.respond s m a) := by
  unfold State.respond
  repeat' first
    | with_reducible assumption
    | with_reducible apply State.setBox_keeps
    | with_reducible apply State.arriveIf_keeps
    | with_reducible apply State.statusFrame_keeps
    | with_reducible apply State.unbindBox_keeps
    | (extract_lets +onlyGivenNames t; (with_reducible refine keeps_cut (s0 := s0) (t := t) ?_ ?_); rotate_left; intro ht; (try clear_value t); rotate_left; subst t)
    | extract_lets +onlyGivenNames t
    | split

/-- `State.ring` keeps. -/
theorem State.ring_keeps {s0 : State} (s : State) (m : Nat) (ev : Option (Nat × Nat)) (h : Keeps s0 s) : Keeps s0 (State.ring s m ev) := by
  unfold State.ring
  repeat' first
    | with_reducible assumption
    | with_reducible apply State.setBox_keeps
    | with_reducible apply State.respond_keeps
    | (extract_lets +onlyGivenNames t; (with_reducible refine keeps_cut (s0 := s0) (t := t) ?_ ?_); rotate_left; intro ht; (try clear_value t); rotate_left; subst t)
    | extract_lets +onlyGivenNames t
    | ((with_reducible refine keeps_of_mk ?_); (with_reducible refine keeps_of ?_); with_reducible assumption)
    | split

/-- `State.abortCmd` keeps. -/
theorem State.abortCmd_keeps {s0 : State} (s : State) (m : Nat) (tag : Nat) (seq : Nat) (h : Keeps s0 s) : Keeps s0 (State.abortCmd s m tag seq) := by
  unfold State.abortCmd
  repeat' first
    | with_reducible assumption
    | with_reducible apply State.setBox_keeps
    | with_reducible apply State.respond_keeps
    | extract_lets +onlyGivenNames t
    | split

/-- `State.releaseBox` keeps. -/
theorem State.releaseBox_keeps {s0 : State} (s : State) (m : Nat) (h : Keeps s0 s) : Keeps s0 (State.releaseBox s m) := by
  unfold State.releaseBox
  repeat' first
    | with_reducible assumption
    | with_reducible apply State.unbindBox_keeps
    | with_reducible apply State.setBox_keeps
    | extract_lets +onlyGivenNames t
    | split

/-- `State.doorbell` keeps. -/
theorem State.doorbell_keeps {s0 : State} (s : State) (c : Nat) (v : Nat) (m : Nat) (h : Keeps s0 s) : Keeps s0 (State.doorbell s c v m) := by
  unfold State.doorbell
  repeat' first
    | with_reducible assumption
    | with_reducible apply State.ring_keeps
    | with_reducible apply State.abortCmd_keeps
    | with_reducible apply State.releaseBox_keeps
    | split

/-- `execRing` keeps. -/
theorem execRing_keeps {s0 : State} (c : BitVec 8) (v : Sys2Proof.W64) (m : Fin 16) (s : State) (h : Keeps s0 s) : KeepsRes s0 (execRing c v m s) := by
  unfold execRing
  repeat' first
    | with_reducible assumption
    | with_reducible apply State.doorbell_keeps
    | extract_lets +onlyGivenNames t
    | with_reducible refine keepsRes_next ?_
    | split

/-- `execAbort` keeps. -/
theorem execAbort_keeps {s0 : State} (c : BitVec 8) (v : Sys2Proof.W64) (m : Fin 16) (s : State) (h : Keeps s0 s) : KeepsRes s0 (execAbort c v m s) := by
  unfold execAbort
  repeat' first
    | with_reducible assumption
    | with_reducible apply State.doorbell_keeps
    | extract_lets +onlyGivenNames t
    | with_reducible refine keepsRes_next ?_
    | split

/-- `execRelease` keeps. -/
theorem execRelease_keeps {s0 : State} (c : BitVec 8) (v : Sys2Proof.W64) (m : Fin 16) (s : State) (h : Keeps s0 s) : KeepsRes s0 (execRelease c v m s) := by
  unfold execRelease
  repeat' first
    | with_reducible assumption
    | with_reducible apply State.doorbell_keeps
    | extract_lets +onlyGivenNames t
    | with_reducible refine keepsRes_next ?_
    | split

/-- `State.claim` keeps. -/
theorem State.claim_keeps {s0 : State} (s : State) (c : Nat) (m : Nat) (h : Keeps s0 s) : Keeps s0 (State.claim s c m).1:= by
  unfold State.claim
  repeat' first
    | with_reducible assumption
    | with_reducible apply State.modBox_keeps
    | extract_lets +onlyGivenNames t
    | dsimp -zeta only
    | split

/-- `execMbClaim` keeps. -/
theorem execMbClaim_keeps {s0 : State} (c : BitVec 8) (m : Fin 16) (s : State) (h : Keeps s0 s) : KeepsRes s0 (execMbClaim c m s) := by
  unfold execMbClaim
  repeat' first
    | with_reducible assumption
    | with_reducible apply State.claim_keeps
    | extract_lets +onlyGivenNames t
    | with_reducible refine keepsRes_next ?_
    | dsimp -zeta only
    | split
    | (simp only [keeps_mk]; with_reducible refine keeps_of ?_)

/-- `State.atPoint` keeps. -/
theorem State.atPoint_keeps {s0 : State} (s : State) (m : Nat) (op : Nat) (f : State → List Sys2Proof.Byte → State × Answer) (hf : ∀ y0 y1, Keeps s0 y0 → Keeps s0 (f y0 y1).1) (h : Keeps s0 s) : Keeps s0 (State.atPoint s m op f) := by
  unfold State.atPoint
  repeat' first
    | with_reducible assumption
    | with_reducible apply State.modBox_keeps
    | with_reducible apply hf
    | (extract_lets +onlyGivenNames t; (with_reducible refine keeps_cut (s0 := s0) (t := t) ?_ ?_); rotate_left; intro ht; (try clear_value t); rotate_left; subst t)
    | extract_lets +onlyGivenNames t
    | ((with_reducible refine keeps_of_mk ?_); (with_reducible refine keeps_of ?_); with_reducible assumption)
    | dsimp -zeta only
    | split

/-- `State.readAt` keeps. -/
theorem State.readAt_keeps {s0 : State} (s : State) (m : Nat) (op : Nat) (f : State → List Sys2Proof.Byte → Answer) (h : Keeps s0 s) : Keeps s0 (State.readAt s m op f) := by
  unfold State.readAt
  repeat' first
    | intro _
    | with_reducible assumption
    | with_reducible apply State.atPoint_keeps

/-- `State.atPointWhen` keeps. -/
theorem State.atPointWhen_keeps {s0 : State} (s : State) (m : Nat) (op : Nat) (p : List Sys2Proof.Byte → Bool) (f : State → List Sys2Proof.Byte → State × Answer) (hf : ∀ y0 y1, Keeps s0 y0 → Keeps s0 (f y0 y1).1) (h : Keeps s0 s) : Keeps s0 (State.atPointWhen s m op p f) := by
  unfold State.atPointWhen
  repeat' first
    | intro _
    | with_reducible assumption
    | with_reducible apply State.atPoint_keeps
    | with_reducible apply hf
    | split

/-- `State.afterResponse` keeps. -/
theorem State.afterResponse_keeps {s0 : State} (s : State) (op : Nat) (h : Keeps s0 s) : Keeps s0 (State.afterResponse s op) := by
  unfold State.afterResponse
  repeat' first
    | intro _
    | with_reducible assumption
    | with_reducible apply State.journalClose_keeps
    | with_reducible apply State.flashWrite_keeps
    | with_reducible apply State.restart_keeps
    | (extract_lets +onlyGivenNames t; (with_reducible refine keeps_cut (s0 := s0) (t := t) ?_ ?_); rotate_left; intro ht; (try clear_value t); rotate_left; subst t)
    | extract_lets +onlyGivenNames t
    | ((with_reducible refine keeps_of_mk ?_); (with_reducible refine keeps_of ?_); with_reducible assumption)
    | with_reducible refine keeps_foldl ?_ _ ?_
    | split

/-- `execCommandComplete` keeps. -/
theorem execCommandComplete_keeps {s0 : State} (m : Fin 16) (s : State) (h : Keeps s0 s) : KeepsRes s0 (execCommandComplete m s) := by
  unfold execCommandComplete
  repeat' first
    | with_reducible assumption
    | with_reducible apply State.afterResponse_keeps
    | with_reducible apply State.respond_keeps
    | extract_lets +onlyGivenNames t
    | with_reducible refine keepsRes_next ?_
    | split

/-- `execCommandBoundExpire` keeps. -/
theorem execCommandBoundExpire_keeps {s0 : State} (m : Fin 16) (s : State) (h : Keeps s0 s) : KeepsRes s0 (execCommandBoundExpire m s) := by
  unfold execCommandBoundExpire
  repeat' first
    | with_reducible assumption
    | with_reducible apply State.respond_keeps
    | extract_lets +onlyGivenNames t
    | with_reducible refine keepsRes_next ?_
    | split

/-- `execOwnerIdleTimeout` keeps. -/
theorem execOwnerIdleTimeout_keeps {s0 : State} (m : Fin 16) (s : State) (h : Keeps s0 s) : KeepsRes s0 (execOwnerIdleTimeout m s) := by
  unfold execOwnerIdleTimeout
  repeat' first
    | with_reducible assumption
    | with_reducible apply State.unbindBox_keeps
    | extract_lets +onlyGivenNames t
    | with_reducible refine keepsRes_next ?_
    | split

/-- `State.takeFrame` keeps. -/
theorem State.takeFrame_keeps {s0 : State} (s : State) (f : MbIn) (kind : Nat) (h : Keeps s0 s) : KeepsOpt s0 (State.takeFrame s f kind) := by
  unfold State.takeFrame
  repeat' first
    | with_reducible assumption
    | extract_lets +onlyGivenNames t
    | ((with_reducible refine keeps_of_mk ?_); (with_reducible refine keeps_of ?_); with_reducible assumption)
    | with_reducible refine keepsOpt_some ?_
    | with_reducible exact keepsOpt_none _
    | split

/-- `State.frame` keeps. -/
theorem State.frame_keeps {s0 : State} (s : State) (f : MbIn) (kind : Nat) (act : State → State) (hact : ∀ y0, Keeps s0 y0 → Keeps s0 (act y0)) (h : Keeps s0 s) : Keeps s0 (State.frame s f kind act) := by
  unfold State.frame
  repeat' first
    | with_reducible assumption
    | with_reducible apply State.takeFrame_keeps
    | with_reducible apply State.mbSend_keeps
    | with_reducible apply State.modBox_keeps
    | with_reducible apply hact
    | (extract_lets +onlyGivenNames t; (with_reducible refine keeps_cut (s0 := s0) (t := t) ?_ ?_); rotate_left; intro ht; (try clear_value t); rotate_left; subst t)
    | (extract_lets +onlyGivenNames t; have f : State → _ := t; clear f; subst t)
    | extract_lets +onlyGivenNames t
    | dsimp -zeta only
    | split
    | with_reducible refine of_some_eq (by assumption) ?_

/-- `execPut` keeps. -/
theorem execPut_keeps {s0 : State} (f : MbIn) (s : State) (h : Keeps s0 s) : KeepsRes s0 (execPut f s) := by
  unfold execPut
  repeat' first
    | intro _
    | with_reducible assumption
    | with_reducible apply State.frame_keeps
    | with_reducible apply State.statusFrame_keeps
    | with_reducible apply State.writeReq_keeps
    | with_reducible refine keepsRes_next ?_

/-- `execRingFrame` keeps. -/
theorem execRingFrame_keeps {s0 : State} (f : MbIn) (s : State) (h : Keeps s0 s) : KeepsRes s0 (execRingFrame f s) := by
  unfold execRingFrame
  repeat' first
    | intro _
    | with_reducible assumption
    | with_reducible apply State.frame_keeps
    | with_reducible apply State.statusFrame_keeps
    | with_reducible apply State.ring_keeps
    | with_reducible refine keepsRes_next ?_

/-- `execAbortFrame` keeps. -/
theorem execAbortFrame_keeps {s0 : State} (f : MbIn) (s : State) (h : Keeps s0 s) : KeepsRes s0 (execAbortFrame f s) := by
  unfold execAbortFrame
  repeat' first
    | intro _
    | with_reducible assumption
    | with_reducible apply State.frame_keeps
    | with_reducible apply State.statusFrame_keeps
    | with_reducible apply State.abortCmd_keeps
    | with_reducible refine keepsRes_next ?_

/-- `execGet` keeps. -/
theorem execGet_keeps {s0 : State} (f : MbIn) (s : State) (h : Keeps s0 s) : KeepsRes s0 (execGet f s) := by
  unfold execGet
  repeat' first
    | intro _
    | with_reducible assumption
    | with_reducible apply State.frame_keeps
    | with_reducible apply State.mbSend_keeps
    | with_reducible refine keepsRes_next ?_

/-- `execStat` keeps. -/
theorem execStat_keeps {s0 : State} (f : MbIn) (s : State) (h : Keeps s0 s) : KeepsRes s0 (execStat f s) := by
  unfold execStat
  repeat' first
    | intro _
    | with_reducible assumption
    | with_reducible apply State.frame_keeps
    | with_reducible apply State.statusFrame_keeps
    | with_reducible refine keepsRes_next ?_

/-- `execReleaseFrame` keeps. -/
theorem execReleaseFrame_keeps {s0 : State} (f : MbIn) (s : State) (h : Keeps s0 s) : KeepsRes s0 (execReleaseFrame f s) := by
  unfold execReleaseFrame
  repeat' first
    | intro _
    | with_reducible assumption
    | with_reducible apply State.frame_keeps
    | with_reducible apply State.statusFrame_keeps
    | with_reducible apply State.releaseBox_keeps
    | with_reducible refine keepsRes_next ?_

/-- `execEvack` keeps. -/
theorem execEvack_keeps {s0 : State} (f : MbIn) (s : State) (h : Keeps s0 s) : KeepsRes s0 (execEvack f s) := by
  unfold execEvack
  repeat' first
    | intro _
    | with_reducible assumption
    | with_reducible apply State.frame_keeps
    | with_reducible apply State.statusFrame_keeps
    | with_reducible apply State.modBox_keeps
    | with_reducible refine keepsRes_next ?_

/-- `State.pushEvents` keeps. -/
theorem State.pushEvents_keeps {s0 : State} (s : State) (m : Nat) (es : List EventRec) (h : Keeps s0 s) : Keeps s0 (State.pushEvents s m es) := by
  unfold State.pushEvents
  repeat' first
    | intro _
    | with_reducible assumption
    | with_reducible apply State.mbSend_keeps
    | with_reducible refine keeps_foldl ?_ _ ?_

/-- `execEventPush` keeps. -/
theorem execEventPush_keeps {s0 : State} (m : Fin 16) (s : State) (h : Keeps s0 s) : KeepsRes s0 (execEventPush m s) := by
  unfold execEventPush
  repeat' first
    | with_reducible assumption
    | with_reducible apply State.modBox_keeps
    | with_reducible apply State.pushEvents_keeps
    | extract_lets +onlyGivenNames t
    | with_reducible refine keepsRes_next ?_
    | split

/-- `State.mgmtSend` keeps. -/
theorem State.mgmtSend_keeps {s0 : State} (s : State) (kind : Nat) (peer : Nat) (b : List Sys2Proof.Byte) (h : Keeps s0 s) : Keeps s0 (State.mgmtSend s kind peer b) := by
  unfold State.mgmtSend
  repeat' first
    | extract_lets +onlyGivenNames t
    | ((with_reducible refine keeps_of_mk ?_); (with_reducible refine keeps_of ?_); with_reducible assumption)

/-- `State.arpLearn` keeps. -/
theorem State.arpLearn_keeps {s0 : State} (s : State) (ip : Nat) (mac : Nat) (h : Keeps s0 s) : Keeps s0 (State.arpLearn s ip mac) := by
  unfold State.arpLearn
  repeat' first
    | extract_lets +onlyGivenNames t
    | ((with_reducible refine keeps_of_mk ?_); (with_reducible refine keeps_of ?_); with_reducible assumption)
    | split

/-- `execArp` keeps. -/
theorem execArp_keeps {s0 : State} (f : MgmtFrame) (s : State) (h : Keeps s0 s) : KeepsRes s0 (execArp f s) := by
  unfold execArp
  repeat' first
    | with_reducible assumption
    | with_reducible apply State.arpLearn_keeps
    | with_reducible apply State.mgmtSend_keeps
    | (extract_lets +onlyGivenNames t; (with_reducible refine keeps_cut (s0 := s0) (t := t) ?_ ?_); rotate_left; intro ht; (try clear_value t); rotate_left; subst t)
    | extract_lets +onlyGivenNames t
    | with_reducible refine keepsRes_next ?_
    | split

/-- `execIcmpEcho` keeps. -/
theorem execIcmpEcho_keeps {s0 : State} (f : MgmtFrame) (s : State) (h : Keeps s0 s) : KeepsRes s0 (execIcmpEcho f s) := by
  unfold execIcmpEcho
  repeat' first
    | with_reducible assumption
    | with_reducible apply State.mgmtSend_keeps
    | (extract_lets +onlyGivenNames t; (with_reducible refine keeps_cut (s0 := s0) (t := t) ?_ ?_); rotate_left; intro ht; (try clear_value t); rotate_left; subst t)
    | extract_lets +onlyGivenNames t
    | ((with_reducible refine keeps_of_mk ?_); (with_reducible refine keeps_of ?_); with_reducible assumption)
    | with_reducible refine keepsRes_next ?_
    | split

/-- `execDhcpRenew` keeps. -/
theorem execDhcpRenew_keeps {s0 : State} (answer : Option (Nat × Nat)) (s : State) (h : Keeps s0 s) : KeepsRes s0 (execDhcpRenew answer s) := by
  unfold execDhcpRenew
  repeat' first
    | with_reducible assumption
    | extract_lets +onlyGivenNames t
    | ((with_reducible refine keeps_of_mk ?_); (with_reducible refine keeps_of ?_); with_reducible assumption)
    | with_reducible refine keepsRes_next ?_
    | split

/-- `execArpEntryAgeOut` keeps. -/
theorem execArpEntryAgeOut_keeps {s0 : State} (ip : Sys2Proof.W32) (s : State) (h : Keeps s0 s) : KeepsRes s0 (execArpEntryAgeOut ip s) := by
  unfold execArpEntryAgeOut
  repeat' first
    | extract_lets +onlyGivenNames t
    | ((with_reducible refine keeps_of_mk ?_); (with_reducible refine keeps_of ?_); with_reducible assumption)
    | with_reducible refine keepsRes_next ?_

/-- `State.smbReply` keeps. -/
theorem State.smbReply_keeps {s0 : State} (s : State) (acked : Bool) (b : List Sys2Proof.Byte) (h : Keeps s0 s) : Keeps s0 (State.smbReply s acked b) := by
  unfold State.smbReply
  repeat' first
    | extract_lets +onlyGivenNames t
    | ((with_reducible refine keeps_of_mk ?_); (with_reducible refine keeps_of ?_); with_reducible assumption)

/-- `State.pecError` keeps. -/
theorem State.pecError_keeps {s0 : State} (s : State) (h : Keeps s0 s) : Keeps s0 (State.pecError s) := by
  unfold State.pecError
  repeat' first
    | with_reducible apply State.smbReply_keeps
    | with_reducible apply State.total_keeps
    | extract_lets +onlyGivenNames t
    | ((with_reducible refine keeps_of_mk ?_); (with_reducible refine keeps_of ?_); with_reducible assumption)

/-- `execMbWrite` keeps. -/
theorem execMbWrite_keeps {s0 : State} (pecOk : Bool) (data : List Sys2Proof.Byte) (s : State) (h : Keeps s0 s) : KeepsRes s0 (execMbWrite pecOk data s) := by
  unfold execMbWrite
  repeat' first
    | with_reducible assumption
    | with_reducible apply State.smbReply_keeps
    | with_reducible apply State.pecError_keeps
    | with_reducible apply State.writeReq_keeps
    | (extract_lets +onlyGivenNames t; (with_reducible refine keeps_cut (s0 := s0) (t := t) ?_ ?_); rotate_left; intro ht; (try clear_value t); rotate_left; subst t)
    | extract_lets +onlyGivenNames t
    | with_reducible refine keepsRes_next ?_
    | split

/-- `execMbRdptr` keeps. -/
theorem execMbRdptr_keeps {s0 : State} (pecOk : Bool) (offset : Sys2Proof.W16) (s : State) (h : Keeps s0 s) : KeepsRes s0 (execMbRdptr pecOk offset s) := by
  unfold execMbRdptr
  repeat' first
    | with_reducible assumption
    | with_reducible apply State.smbReply_keeps
    | with_reducible apply State.pecError_keeps
    | extract_lets +onlyGivenNames t
    | ((with_reducible refine keeps_of_mk ?_); (with_reducible refine keeps_of ?_); with_reducible assumption)
    | with_reducible refine keepsRes_next ?_
    | split

/-- `execMbRead` keeps. -/
theorem execMbRead_keeps {s0 : State} (s : State) (h : Keeps s0 s) : KeepsRes s0 (execMbRead s) := by
  unfold execMbRead
  repeat' first
    | with_reducible assumption
    | with_reducible apply State.smbReply_keeps
    | extract_lets +onlyGivenNames t
    | ((with_reducible refine keeps_of_mk ?_); (with_reducible refine keeps_of ?_); with_reducible assumption)
    | with_reducible refine keepsRes_next ?_
    | split

/-- `execMbDoorbell` keeps. -/
theorem execMbDoorbell_keeps {s0 : State} (pecOk : Bool) (value : Sys2Proof.Byte) (s : State) (h : Keeps s0 s) : KeepsRes s0 (execMbDoorbell pecOk value s) := by
  unfold execMbDoorbell
  repeat' first
    | with_reducible assumption
    | with_reducible apply State.smbReply_keeps
    | with_reducible apply State.pecError_keeps
    | with_reducible apply State.ring_keeps
    | (extract_lets +onlyGivenNames t; (with_reducible refine keeps_cut (s0 := s0) (t := t) ?_ ?_); rotate_left; intro ht; (try clear_value t); rotate_left; subst t)
    | extract_lets +onlyGivenNames t
    | with_reducible refine keepsRes_next ?_
    | split

/-- `execMbStatus` keeps. -/
theorem execMbStatus_keeps {s0 : State} (s : State) (h : Keeps s0 s) : KeepsRes s0 (execMbStatus s) := by
  unfold execMbStatus
  repeat' first
    | with_reducible assumption
    | with_reducible apply State.smbReply_keeps
    | with_reducible refine keepsRes_next ?_

/-- `execCoolant` keeps. -/
theorem execCoolant_keeps {s0 : State} (pecOk : Bool) (data : List Sys2Proof.Byte) (s : State) (h : Keeps s0 s) : KeepsRes s0 (execCoolant pecOk data s) := by
  unfold execCoolant
  repeat' first
    | with_reducible assumption
    | with_reducible apply State.pecError_keeps
    | with_reducible apply State.smbReply_keeps
    | with_reducible apply State.total_keeps
    | extract_lets +onlyGivenNames t
    | ((with_reducible refine keeps_of_mk ?_); (with_reducible refine keeps_of ?_); with_reducible assumption)
    | with_reducible refine keepsRes_next ?_
    | split

/-- `execIdent` keeps. -/
theorem execIdent_keeps {s0 : State} (s : State) (h : Keeps s0 s) : KeepsRes s0 (execIdent s) := by
  unfold execIdent
  repeat' first
    | with_reducible assumption
    | with_reducible apply State.smbReply_keeps
    | with_reducible refine keepsRes_next ?_

/-- `State.pmbWords` keeps. -/
theorem State.pmbWords_keeps {s0 : State} (s : State) (words : List (Nat × Nat)) (h : Keeps s0 s) : Keeps s0 (State.pmbWords s words) := by
  unfold State.pmbWords
  repeat' first
    | extract_lets +onlyGivenNames t
    | ((with_reducible refine keeps_of_mk ?_); (with_reducible refine keeps_of ?_); with_reducible assumption)

/-- `State.pmbGood` keeps. -/
theorem State.pmbGood_keeps {s0 : State} (s : State) (words : List (Nat × Nat)) (h : Keeps s0 s) : Keeps s0 (State.pmbGood s words) := by
  unfold State.pmbGood
  repeat' first
    | with_reducible apply State.pmbWords_keeps
    | extract_lets +onlyGivenNames t
    | ((with_reducible refine keeps_of_mk ?_); (with_reducible refine keeps_of ?_); with_reducible assumption)

/-- `State.pmbBad` keeps. -/
theorem State.pmbBad_keeps {s0 : State} (s : State) (code : Nat) (h : Keeps s0 s) : Keeps s0 (State.pmbBad s code) := by
  unfold State.pmbBad
  repeat' first
    | with_reducible assumption
    | with_reducible apply State.event_keeps
    | with_reducible apply State.err_keeps
    | (extract_lets +onlyGivenNames t; (with_reducible refine keeps_cut (s0 := s0) (t := t) ?_ ?_); rotate_left; intro ht; (try clear_value t); rotate_left; subst t)
    | extract_lets +onlyGivenNames t
    | ((with_reducible refine keeps_of_mk ?_); (with_reducible refine keeps_of ?_); with_reducible assumption)
    | split

/-- `execPmbAlert` keeps. -/
theorem execPmbAlert_keeps {s0 : State} (words : List (Nat × Nat)) (s : State) (h : Keeps s0 s) : KeepsRes s0 (execPmbAlert words s) := by
  unfold execPmbAlert
  repeat' first
    | with_reducible assumption
    | with_reducible apply State.pmbGood_keeps
    | with_reducible apply State.err_keeps
    | (extract_lets +onlyGivenNames t; (with_reducible refine keeps_cut (s0 := s0) (t := t) ?_ ?_); rotate_left; intro ht; (try clear_value t); rotate_left; subst t)
    | extract_lets +onlyGivenNames t
    | ((with_reducible refine keeps_of_mk ?_); (with_reducible refine keeps_of ?_); with_reducible assumption)
    | with_reducible refine keepsRes_next ?_
    | split

/-- `execPmbusPoll` keeps. -/
theorem execPmbusPoll_keeps {s0 : State} (ok : Bool) (words : List (Nat × Nat)) (s : State) (h : Keeps s0 s) : KeepsRes s0 (execPmbusPoll ok words s) := by
  unfold execPmbusPoll
  repeat' first
    | with_reducible assumption
    | with_reducible apply State.pmbGood_keeps
    | with_reducible apply State.pmbBad_keeps
    | (extract_lets +onlyGivenNames t; (with_reducible refine keeps_cut (s0 := s0) (t := t) ?_ ?_); rotate_left; intro ht; (try clear_value t); rotate_left; subst t)
    | extract_lets +onlyGivenNames t
    | ((with_reducible refine keeps_of_mk ?_); (with_reducible refine keeps_of ?_); with_reducible assumption)
    | with_reducible refine keepsRes_next ?_
    | split

/-- `execPowerGainTrim` keeps. -/
theorem execPowerGainTrim_keeps {s0 : State} (pkgW : Sys2Proof.W16) (s : State) (h : Keeps s0 s) : KeepsRes s0 (execPowerGainTrim pkgW s) := by
  unfold execPowerGainTrim
  repeat' first
    | with_reducible assumption
    | extract_lets +onlyGivenNames t
    | ((with_reducible refine keeps_of_mk ?_); (with_reducible refine keeps_of ?_); with_reducible assumption)
    | with_reducible refine keepsRes_next ?_
    | split

/-- `State.tap` keeps. -/
theorem State.tap_keeps {s0 : State} (s : State) (i : TapInstr) (out : List Sys2Proof.Byte) (h : Keeps s0 s) : Keeps s0 (State.tap s i out) := by
  unfold State.tap
  repeat' first
    | extract_lets +onlyGivenNames t
    | ((with_reducible refine keeps_of_mk ?_); (with_reducible refine keeps_of ?_); with_reducible assumption)

/-- `execIdcode` keeps. -/
theorem execIdcode_keeps {s0 : State} (s : State) (h : Keeps s0 s) : KeepsRes s0 (execIdcode s) := by
  unfold execIdcode
  repeat' first
    | with_reducible assumption
    | with_reducible apply State.tap_keeps
    | with_reducible refine keepsRes_next ?_

/-- `execSamplePreload` keeps. -/
theorem execSamplePreload_keeps {s0 : State} (cells : List Bool) (s : State) (h : Keeps s0 s) : KeepsRes s0 (execSamplePreload cells s) := by
  unfold execSamplePreload
  repeat' first
    | with_reducible apply State.tap_keeps
    | extract_lets +onlyGivenNames t
    | ((with_reducible refine keeps_of_mk ?_); (with_reducible refine keeps_of ?_); with_reducible assumption)
    | with_reducible refine keepsRes_next ?_

/-- `execExtest` keeps. -/
theorem execExtest_keeps {s0 : State} (cells : List Bool) (s : State) (h : Keeps s0 s) : KeepsRes s0 (execExtest cells s) := by
  unfold execExtest
  repeat' first
    | with_reducible assumption
    | with_reducible apply State.tap_keeps
    | extract_lets +onlyGivenNames t
    | ((with_reducible refine keeps_of_mk ?_); (with_reducible refine keeps_of ?_); with_reducible assumption)
    | with_reducible refine keepsRes_next ?_
    | split

/-- `execClamp` keeps. -/
theorem execClamp_keeps {s0 : State} (s : State) (h : Keeps s0 s) : KeepsRes s0 (execClamp s) := by
  unfold execClamp
  repeat' first
    | with_reducible assumption
    | with_reducible apply State.tap_keeps
    | with_reducible refine keepsRes_next ?_

/-- `execHighz` keeps. -/
theorem execHighz_keeps {s0 : State} (s : State) (h : Keeps s0 s) : KeepsRes s0 (execHighz s) := by
  unfold execHighz
  repeat' first
    | with_reducible assumption
    | with_reducible apply State.tap_keeps
    | with_reducible refine keepsRes_next ?_

/-- `State.challenge` keeps. -/
theorem State.challenge_keeps {s0 : State} (s : State) (h : Keeps s0 s) : KeepsOptP s0 (State.challenge s) := by
  unfold State.challenge
  repeat' first
    | extract_lets +onlyGivenNames t
    | ((with_reducible refine keeps_of_mk ?_); (with_reducible refine keeps_of ?_); with_reducible assumption)
    | with_reducible refine keepsOptP_some ?_
    | with_reducible exact keepsOptP_none _
    | split

/-- `State.answerChallenge` keeps. -/
theorem State.answerChallenge_keeps {s0 : State} (s : State) (resp : List Sys2Proof.Byte) (h : Keeps s0 s) : Keeps s0 (State.answerChallenge s resp).1:= by
  unfold State.answerChallenge
  repeat' first
    | extract_lets +onlyGivenNames t
    | ((with_reducible refine keeps_of_mk ?_); (with_reducible refine keeps_of ?_); with_reducible assumption)
    | split

/-- `execUnlockChal` keeps. -/
theorem execUnlockChal_keeps {s0 : State} (s : State) (h : Keeps s0 s) : KeepsRes s0 (execUnlockChal s) := by
  unfold execUnlockChal
  repeat' first
    | with_reducible assumption
    | with_reducible apply State.challenge_keeps
    | with_reducible apply State.tap_keeps
    | extract_lets +onlyGivenNames t
    | with_reducible refine keepsRes_next ?_
    | split
    | with_reducible refine of_some_pair (by assumption) ?_

/-- `execUnlockResp` keeps. -/
theorem execUnlockResp_keeps {s0 : State} (response : List Sys2Proof.Byte) (s : State) (h : Keeps s0 s) : KeepsRes s0 (execUnlockResp response s) := by
  unfold execUnlockResp
  repeat' first
    | with_reducible assumption
    | with_reducible apply State.tap_keeps
    | with_reducible apply State.answerChallenge_keeps
    | with_reducible refine keepsRes_next ?_

/-- `execDebug` keeps. -/
theorem execDebug_keeps {s0 : State} (s : State) (h : Keeps s0 s) : KeepsRes s0 (execDebug s) := by
  unfold execDebug
  repeat' first
    | with_reducible assumption
    | with_reducible apply State.tap_keeps
    | with_reducible refine keepsRes_next ?_

/-- `execBypass` keeps. -/
theorem execBypass_keeps {s0 : State} (s : State) (h : Keeps s0 s) : KeepsRes s0 (execBypass s) := by
  unfold execBypass
  repeat' first
    | with_reducible assumption
    | with_reducible apply State.tap_keeps
    | with_reducible refine keepsRes_next ?_

/-- `execUartInfo` keeps. -/
theorem execUartInfo_keeps {s0 : State} (s : State) (h : Keeps s0 s) : KeepsRes s0 (execUartInfo s) := by
  unfold execUartInfo
  repeat' first
    | with_reducible assumption
    | with_reducible apply State.uartLine_keeps
    | extract_lets +onlyGivenNames t
    | with_reducible refine keepsRes_next ?_
    | split

/-- `State.bootFrom` keeps. -/
theorem State.bootFrom_keeps {s0 : State} (s : State) (source : Nat) (h : Keeps s0 s) : Keeps s0 (State.bootFrom s source) := by
  unfold State.bootFrom
  repeat' first
    | with_reducible assumption
    | with_reducible apply State.romPort_keeps
    | (extract_lets +onlyGivenNames t; (with_reducible refine keeps_cut (s0 := s0) (t := t) ?_ ?_); rotate_left; intro ht; (try clear_value t); rotate_left; subst t)
    | extract_lets +onlyGivenNames t
    | ((with_reducible refine keeps_of_mk ?_); (with_reducible refine keeps_of ?_); with_reducible assumption)
    | split

/-- `execUartBootQspi` keeps. -/
theorem execUartBootQspi_keeps {s0 : State} (s : State) (h : Keeps s0 s) : KeepsRes s0 (execUartBootQspi s) := by
  unfold execUartBootQspi
  repeat' first
    | with_reducible assumption
    | with_reducible apply State.bootFrom_keeps
    | with_reducible refine keepsRes_next ?_

/-- `execUartBootTftp` keeps. -/
theorem execUartBootTftp_keeps {s0 : State} (s : State) (h : Keeps s0 s) : KeepsRes s0 (execUartBootTftp s) := by
  unfold execUartBootTftp
  repeat' first
    | with_reducible assumption
    | with_reducible apply State.bootFrom_keeps
    | with_reducible refine keepsRes_next ?_

/-- `execUartReboot` keeps. -/
theorem execUartReboot_keeps {s0 : State} (s : State) (h : Keeps s0 s) : KeepsRes s0 (execUartReboot s) := by
  unfold execUartReboot
  repeat' first
    | with_reducible assumption
    | with_reducible apply State.restart_keeps
    | extract_lets +onlyGivenNames t
    | with_reducible refine keepsRes_next ?_
    | split

/-- `State.modIng` keeps. -/
theorem State.modIng_keeps {s0 : State} (s : State) (f : IngestSt → IngestSt) (h : Keeps s0 s) : Keeps s0 (State.modIng s f) := by
  unfold State.modIng
  repeat' ((with_reducible refine keeps_of_mk ?_); (with_reducible refine keeps_of ?_); with_reducible assumption)

/-- `State.setQp` keeps. -/
theorem State.setQp_keeps {s0 : State} (s : State) (n : Nat) (q : Qp) (h : Keeps s0 s) : Keeps s0 (State.setQp s n q) := by
  unfold State.setQp
  repeat' first
    | with_reducible assumption
    | with_reducible apply State.modIng_keeps

/-- `State.isStray` keeps. -/
theorem State.isStray_keeps {s0 : State} (s : State) (h : Keeps s0 s) : Keeps s0 (State.isStray s) := by
  unfold State.isStray
  repeat' first
    | with_reducible assumption
    | with_reducible apply State.modIng_keeps

/-- `State.roceSend` keeps. -/
theorem State.roceSend_keeps {s0 : State} (s : State) (o : RoceOut) (h : Keeps s0 s) : Keeps s0 (State.roceSend s o) := by
  unfold State.roceSend
  repeat' first
    | with_reducible assumption
    | with_reducible apply State.modIng_keeps

/-- `State.qpFails` keeps. -/
theorem State.qpFails_keeps {s0 : State} (s : State) (n : Nat) (syndrome : Nat) (h : Keeps s0 s) : Keeps s0 (State.qpFails s n syndrome) := by
  unfold State.qpFails
  repeat' first
    | with_reducible assumption
    | with_reducible apply State.modIng_keeps
    | with_reducible apply State.setQp_keeps
    | with_reducible apply State.failWindows_keeps
    | with_reducible apply State.event_keeps
    | with_reducible apply State.err_keeps
    | (extract_lets +onlyGivenNames t; (with_reducible refine keeps_cut (s0 := s0) (t := t) ?_ ?_); rotate_left; intro ht; (try clear_value t); rotate_left; subst t)
    | split

/-- `State.ceSeen` keeps. -/
theorem State.ceSeen_keeps {s0 : State} (s : State) (n : Nat) (ce : Bool) (h : Keeps s0 s) : Keeps s0 (State.ceSeen s n ce) := by
  unfold State.ceSeen
  repeat' first
    | with_reducible assumption
    | with_reducible apply State.roceSend_keeps
    | with_reducible apply State.modIng_keeps
    | with_reducible apply State.setQp_keeps
    | split

/-- `State.onQp` keeps. -/
theorem State.onQp_keeps {s0 : State} (s : State) (p : RocePkt) (f : State → Qp → State) (hf : ∀ y0 y1, Keeps s0 y0 → Keeps s0 (f y0 y1)) (h : Keeps s0 s) : Keeps s0 (State.onQp s p f) := by
  unfold State.onQp
  repeat' first
    | with_reducible assumption
    | with_reducible apply State.isStray_keeps
    | with_reducible apply State.ceSeen_keeps
    | with_reducible apply hf
    | (extract_lets +onlyGivenNames t; (with_reducible refine keeps_cut (s0 := s0) (t := t) ?_ ?_); rotate_left; intro ht; (try clear_value t); rotate_left; subst t)
    | split

/-- `State.roceAck` keeps. -/
theorem State.roceAck_keeps {s0 : State} (s : State) (n : Nat) (psn : Nat) (syndrome : Nat) (h : Keeps s0 s) : Keeps s0 (State.roceAck s n psn syndrome) := by
  unfold State.roceAck
  repeat' first
    | with_reducible assumption
    | with_reducible apply State.roceSend_keeps

/-- `State.nak` keeps. -/
theorem State.nak_keeps {s0 : State} (s : State) (n : Nat) (psn : Nat) (syndrome : Nat) (h : Keeps s0 s) : Keeps s0 (State.nak s n psn syndrome) := by
  unfold State.nak
  repeat' first
    | with_reducible assumption
    | with_reducible apply State.qpFails_keeps
    | with_reducible apply State.roceAck_keeps

/-- `State.inSequence` keeps. -/
theorem State.inSequence_keeps {s0 : State} (s : State) (p : RocePkt) (q : Qp) (f : State → Qp → State ⊕ Nat) (hf : ∀ y0 y1, Keeps s0 y0 → KeepsSum s0 (f y0 y1)) (h : Keeps s0 s) : Keeps s0 (State.inSequence s p q f) := by
  unfold State.inSequence
  repeat' first
    | with_reducible assumption
    | with_reducible apply State.roceAck_keeps
    | with_reducible apply State.nak_keeps
    | with_reducible apply hf
    | extract_lets +onlyGivenNames t
    | with_reducible refine of_inl_eq (by assumption) ?_
    | split

/-- `State.endMessage` keeps. -/
theorem State.endMessage_keeps {s0 : State} (s : State) (p : RocePkt) (h : Keeps s0 s) : Keeps s0 (State.endMessage s p) := by
  unfold State.endMessage
  repeat' first
    | with_reducible assumption
    | with_reducible apply State.roceAck_keeps
    | with_reducible apply State.setQp_keeps
    | split

/-- `State.finishWindow` keeps. -/
theorem State.finishWindow_keeps {s0 : State} (s : State) (w : Nat) (st : Nat) (h : Keeps s0 s) : Keeps s0 (State.finishWindow s w st) := by
  unfold State.finishWindow
  repeat' first
    | with_reducible assumption
    | with_reducible apply State.windowArrival_keeps
    | with_reducible apply State.setWindow_keeps

/-- `State.writePart` keeps. -/
theorem State.writePart_keeps {s0 : State} (s : State) (p : RocePkt) (q : Qp) (h : Keeps s0 s) : KeepsSum s0 (State.writePart s p q) := by
  unfold State.writePart
  repeat' first
    | with_reducible assumption
    | with_reducible apply State.setQp_keeps
    | with_reducible apply State.store_keeps
    | extract_lets +onlyGivenNames t
    | with_reducible refine keepsSum_inl ?_
    | with_reducible exact keepsSum_inr _ _
    | split

/-- `execRdmaWrite` keeps. -/
theorem execRdmaWrite_keeps {s0 : State} (p : RocePkt) (s : State) (h : Keeps s0 s) : KeepsRes s0 (execRdmaWrite p s) := by
  unfold execRdmaWrite
  repeat' first
    | intro _
    | with_reducible assumption
    | with_reducible apply State.onQp_keeps
    | with_reducible apply State.inSequence_keeps
    | with_reducible apply State.writePart_keeps
    | with_reducible apply State.endMessage_keeps
    | extract_lets +onlyGivenNames t
    | with_reducible refine keepsRes_next ?_
    | with_reducible refine keepsSum_inl ?_
    | with_reducible exact keepsSum_inr _ _
    | with_reducible refine of_inl_eq (by assumption) ?_
    | split

/-- `execRdmaWriteWithImmediate` keeps. -/
theorem execRdmaWriteWithImmediate_keeps {s0 : State} (p : RocePkt) (s : State) (h : Keeps s0 s) : KeepsRes s0 (execRdmaWriteWithImmediate p s) := by
  unfold execRdmaWriteWithImmediate
  repeat' first
    | intro _
    | with_reducible assumption
    | with_reducible apply State.onQp_keeps
    | with_reducible apply State.roceAck_keeps
    | with_reducible apply State.inSequence_keeps
    | with_reducible apply State.writePart_keeps
    | with_reducible apply State.finishWindow_keeps
    | with_reducible apply State.isStray_keeps
    | with_reducible apply State.endMessage_keeps
    | (extract_lets +onlyGivenNames t; (with_reducible refine keeps_cut (s0 := s0) (t := t) ?_ ?_); rotate_left; intro ht; (try clear_value t); rotate_left; subst t)
    | extract_lets +onlyGivenNames t
    | with_reducible refine keepsRes_next ?_
    | with_reducible refine keepsSum_inl ?_
    | with_reducible exact keepsSum_inr _ _
    | with_reducible refine of_inl_eq (by assumption) ?_
    | split

/-- `execWindowFail` keeps. -/
theorem execWindowFail_keeps {s0 : State} (p : RocePkt) (s : State) (h : Keeps s0 s) : KeepsRes s0 (execWindowFail p s) := by
  unfold execWindowFail
  repeat' first
    | intro _
    | with_reducible assumption
    | with_reducible apply State.onQp_keeps
    | with_reducible apply State.roceAck_keeps
    | with_reducible apply State.inSequence_keeps
    | with_reducible apply State.setQp_keeps
    | with_reducible apply State.isStray_keeps
    | with_reducible apply State.err_keeps
    | with_reducible apply State.finishWindow_keeps
    | with_reducible apply State.endMessage_keeps
    | (extract_lets +onlyGivenNames t; (with_reducible refine keeps_cut (s0 := s0) (t := t) ?_ ?_); rotate_left; intro ht; (try clear_value t); rotate_left; subst t)
    | extract_lets +onlyGivenNames t
    | with_reducible refine keepsRes_next ?_
    | with_reducible refine keepsSum_inl ?_
    | with_reducible exact keepsSum_inr _ _
    | split

/-- `execInvalidRequest` keeps. -/
theorem execInvalidRequest_keeps {s0 : State} (p : RocePkt) (s : State) (h : Keeps s0 s) : KeepsRes s0 (execInvalidRequest p s) := by
  unfold execInvalidRequest
  repeat' first
    | intro _
    | with_reducible assumption
    | with_reducible apply State.onQp_keeps
    | with_reducible apply State.inSequence_keeps
    | extract_lets +onlyGivenNames t
    | with_reducible refine keepsRes_next ?_
    | with_reducible exact keepsSum_inr _ _

/-- `execCnp` keeps. -/
theorem execCnp_keeps {s0 : State} (p : RocePkt) (s : State) (h : Keeps s0 s) : KeepsRes s0 (execCnp p s) := by
  unfold execCnp
  repeat' first
    | intro _
    | with_reducible assumption
    | with_reducible apply State.onQp_keeps
    | with_reducible apply State.modIng_keeps
    | with_reducible refine keepsRes_next ?_

/-- `State.resendQp` keeps. -/
theorem State.resendQp_keeps {s0 : State} (s : State) (n : Nat) (h : Keeps s0 s) : Keeps s0 (State.resendQp s n) := by
  unfold State.resendQp
  repeat' first
    | intro _
    | with_reducible assumption
    | with_reducible apply State.roceSend_keeps
    | with_reducible apply State.setQp_keeps
    | with_reducible refine keeps_foldl ?_ _ ?_
    | split

/-- `execRoceAck` keeps. -/
theorem execRoceAck_keeps {s0 : State} (p : RocePkt) (s : State) (h : Keeps s0 s) : KeepsRes s0 (execRoceAck p s) := by
  unfold execRoceAck
  repeat' first
    | intro _
    | with_reducible assumption
    | with_reducible apply State.onQp_keeps
    | with_reducible apply State.setQp_keeps
    | with_reducible apply State.qpFails_keeps
    | with_reducible apply State.resendQp_keeps
    | extract_lets +onlyGivenNames t
    | with_reducible refine keepsRes_next ?_
    | dsimp -zeta only
    | split
    | (clear_value t; split)
    | (subst t)

/-- `execRoceAckTimeout` keeps. -/
theorem execRoceAckTimeout_keeps {s0 : State} (qpn : Nat) (s : State) (h : Keeps s0 s) : KeepsRes s0 (execRoceAckTimeout qpn s) := by
  unfold execRoceAckTimeout
  repeat' first
    | with_reducible assumption
    | with_reducible apply State.qpFails_keeps
    | with_reducible apply State.resendQp_keeps
    | with_reducible apply State.setQp_keeps
    | extract_lets +onlyGivenNames t
    | with_reducible refine keepsRes_next ?_
    | split

/-- `State.refuseReq` keeps. -/
theorem State.refuseReq_keeps {s0 : State} (s : State) (c : Nat) (w : Nat) (h : Keeps s0 s) : Keeps s0 (State.refuseReq s c w) := by
  unfold State.refuseReq
  repeat' first
    | with_reducible assumption
    | with_reducible apply State.err_keeps
    | with_reducible apply State.modIng_keeps

/-- `State.sendOnly` keeps. -/
theorem State.sendOnly_keeps {s0 : State} (s : State) (n : Nat) (payload : List Sys2Proof.Byte) (h : Keeps s0 s) : Keeps s0 (State.sendOnly s n payload) := by
  unfold State.sendOnly
  repeat' first
    | with_reducible assumption
    | with_reducible apply State.roceSend_keeps
    | with_reducible apply State.setQp_keeps
    | split

/-- `State.requestWindow` keeps. -/
theorem State.requestWindow_keeps {s0 : State} (s : State) (c : Nat) (w : Nat) (cookie : Nat) (h : Keeps s0 s) : Keeps s0 (State.requestWindow s c w cookie) := by
  unfold State.requestWindow
  repeat' first
    | with_reducible assumption
    | with_reducible apply State.refuseReq_keeps
    | with_reducible apply State.load_keeps
    | with_reducible apply State.devFault_keeps
    | with_reducible apply State.modIng_keeps
    | with_reducible apply State.setWindow_keeps
    | with_reducible apply State.store_keeps
    | with_reducible apply State.sendOnly_keeps
    | with_reducible apply State.windowArrival_keeps
    | (extract_lets +onlyGivenNames t; (with_reducible refine keeps_cut (s0 := s0) (t := t) ?_ ?_); rotate_left; intro ht; (try clear_value t); rotate_left; subst t)
    | extract_lets +onlyGivenNames t
    | dsimp -zeta only
    | split

/-- `execIngestReq` keeps. -/
theorem execIngestReq_keeps {s0 : State} (c : BitVec 8) (v : Sys2Proof.W64) (s : State) (h : Keeps s0 s) : KeepsRes s0 (execIngestReq c v s) := by
  unfold execIngestReq
  repeat' first
    | with_reducible assumption
    | with_reducible apply State.requestWindow_keeps
    | extract_lets +onlyGivenNames t
    | with_reducible refine keepsRes_next ?_
    | split

end Sys2Proof.Machine
end

