-- ==== Sys2Proof/Laws/KeepsCmds.lean ====
section
/-!
SUPPORT. The commands of Nganor, register access, idle time and the step: each operation keeps (Keeps of Sys2Proof/Safety.lean).
-/
namespace Sys2Proof.Machine

set_option Elab.async false
set_option linter.tactic.unusedName false

/-- `State.jobStage` keeps. -/
theorem State.jobStage_keeps {s0 : State} (s : State) (b : List Sys2Proof.Byte) (h : Keeps s0 s) : Keeps s0 (State.jobStage s b).1:= by
  unfold State.jobStage
  repeat' first
    | with_reducible assumption
    | extract_lets +onlyGivenNames t
    | ((with_reducible refine keeps_of_mk ?_); (with_reducible refine keeps_of ?_); with_reducible assumption)
    | split

/-- `execJobStage` keeps. -/
theorem execJobStage_keeps {s0 : State} (m : Fin 16) (s : State) (h : Keeps s0 s) : KeepsRes s0 (execJobStage m s) := by
  unfold execJobStage
  repeat' first
    | intro _
    | with_reducible assumption
    | with_reducible apply State.atPoint_keeps
    | with_reducible apply State.jobStage_keeps
    | with_reducible refine keepsRes_next ?_

/-- `execJobUnstage` keeps. -/
theorem execJobUnstage_keeps {s0 : State} (m : Fin 16) (s : State) (h : Keeps s0 s) : KeepsRes s0 (execJobUnstage m s) := by
  unfold execJobUnstage
  repeat' first
    | intro _
    | with_reducible assumption
    | with_reducible apply State.atPoint_keeps
    | extract_lets +onlyGivenNames t
    | ((with_reducible refine keeps_of_mk ?_); (with_reducible refine keeps_of ?_); with_reducible assumption)
    | with_reducible refine keepsRes_next ?_
    | split

/-- `State.loadImage` keeps. -/
theorem State.loadImage_keeps {s0 : State} (s : State) (c : Nat) (img : List Sys2Proof.Byte) (h : Keeps s0 s) : Keeps s0 (State.loadImage s c img) := by
  unfold State.loadImage
  dsimp only
  exact keeps_of_mk (keeps_mem h (fun w => putBytes_wf (tabFilter_wf w)) tabFilter_wf)

/-- `State.loadImages` keeps. -/
theorem State.loadImages_keeps {s0 : State} (s : State) (h : Keeps s0 s) : Keeps s0 (State.loadImages s) := by
  unfold State.loadImages
  repeat' first
    | intro _
    | with_reducible assumption
    | with_reducible apply State.loadImage_keeps
    | with_reducible refine keeps_foldl ?_ _ ?_

/-- `State.regWrite` keeps. -/
theorem State.regWrite_keeps {s0 : State} (s : State) (p : Nat) (v : Nat) (h : Keeps s0 s) : Keeps s0 (State.regWrite s p v) := by
  unfold State.regWrite
  repeat' first
    | intro _
    | with_reducible assumption
    | with_reducible apply State.errReserved_keeps
    | with_reducible apply State.setPart_keeps
    | (extract_lets +onlyGivenNames t; (with_reducible refine keeps_cut (s0 := s0) (t := t) ?_ ?_); rotate_left; intro ht; (try clear_value t); rotate_left; subst t)
    | with_reducible refine keeps_foldl ?_ _ ?_
    | split

/-- `State.loadRegs` keeps. -/
theorem State.loadRegs_keeps {s0 : State} (s : State) (h : Keeps s0 s) : Keeps s0 (State.loadRegs s) := by
  unfold State.loadRegs
  repeat' first
    | intro _
    | with_reducible assumption
    | with_reducible apply State.setStack_keeps
    | with_reducible apply State.regWrite_keeps
    | with_reducible apply State.setClassMap_keeps
    | (extract_lets +onlyGivenNames t; (with_reducible refine keeps_cut (s0 := s0) (t := t) ?_ ?_); rotate_left; intro ht; (try clear_value t); rotate_left; subst t)
    | extract_lets +onlyGivenNames t
    | with_reducible refine keeps_foldl ?_ _ ?_
    | split

/-- `State.emptySlots` keeps. -/
theorem State.emptySlots_keeps {s0 : State} (s : State) (h : Keeps s0 s) : Keeps s0 (State.emptySlots s) := by
  unfold State.emptySlots
  repeat' first
    | intro _
    | with_reducible assumption
    | with_reducible apply State.store_keeps
    | extract_lets +onlyGivenNames t
    | with_reducible refine keeps_foldl ?_ _ ?_

/-- `State.newTree` keeps. -/
theorem State.newTree_keeps {s0 : State} (s : State) (h : Keeps s0 s) : Keeps s0 (State.newTree s) := by
  unfold State.newTree
  repeat' first
    | with_reducible assumption
    | with_reducible apply State.modHud_keeps

/-- `State.resync` keeps. -/
theorem State.resync_keeps {s0 : State} (s : State) (step : Nat) (h : Keeps s0 s) : Keeps s0 (State.resync s step) := by
  unfold State.resync
  repeat' first
    | extract_lets +onlyGivenNames t
    | ((with_reducible refine keeps_of_mk ?_); (with_reducible refine keeps_of ?_); with_reducible assumption)
    | split

/-- `State.loadStream` keeps. -/
theorem State.loadStream_keeps {s0 : State} (s : State) (h : Keeps s0 s) : Keeps s0 (State.loadStream s) := by
  unfold State.loadStream
  repeat' first
    | with_reducible assumption
    | with_reducible apply State.resync_keeps
    | (extract_lets +onlyGivenNames t; (with_reducible refine keeps_cut (s0 := s0) (t := t) ?_ ?_); rotate_left; intro ht; (try clear_value t); rotate_left; subst t)
    | extract_lets +onlyGivenNames t
    | ((with_reducible refine keeps_of_mk ?_); (with_reducible refine keeps_of ?_); with_reducible assumption)
    | split

/-- `State.loadWatch` keeps. -/
theorem State.loadWatch_keeps {s0 : State} (s : State) (h : Keeps s0 s) : Keeps s0 (State.loadWatch s) := by
  unfold State.loadWatch
  repeat' first
    | extract_lets +onlyGivenNames t
    | ((with_reducible refine keeps_of_mk ?_); (with_reducible refine keeps_of ?_); with_reducible assumption)

/-- `State.loadPower` keeps. -/
theorem State.loadPower_keeps {s0 : State} (s : State) (pIdle : Nat) (h : Keeps s0 s) : Keeps s0 (State.loadPower s pIdle) := by
  unfold State.loadPower
  repeat' first
    | with_reducible assumption
    | with_reducible apply State.total_keeps
    | (extract_lets +onlyGivenNames t; (with_reducible refine keeps_cut (s0 := s0) (t := t) ?_ ?_); rotate_left; intro ht; (try clear_value t); rotate_left; subst t)
    | extract_lets +onlyGivenNames t
    | ((with_reducible refine keeps_of_mk ?_); (with_reducible refine keeps_of ?_); with_reducible assumption)

/-- `State.loadOwners` keeps. -/
theorem State.loadOwners_keeps {s0 : State} (s : State) (h : Keeps s0 s) : Keeps s0 (State.loadOwners s) := by
  unfold State.loadOwners
  repeat' first
    | intro _
    | with_reducible assumption
    | with_reducible apply State.unbindBox_keeps
    | with_reducible apply State.dropClaims_keeps
    | extract_lets +onlyGivenNames t
    | with_reducible refine keeps_foldl ?_ _ ?_
    | split

/-- `State.applyLoad` keeps. -/
theorem State.applyLoad_keeps {s0 : State} (s : State) (pIdle : Nat) (h : Keeps s0 s) : Keeps s0 (State.applyLoad s pIdle) := by
  unfold State.applyLoad
  repeat' first
    | with_reducible assumption
    | with_reducible apply State.newTree_keeps
    | with_reducible apply State.loadRegs_keeps
    | with_reducible apply State.loadClusters_keeps
    | with_reducible apply State.loadImages_keeps
    | with_reducible apply State.loadOwners_keeps
    | with_reducible apply State.failWindows_keeps
    | with_reducible apply State.emptySlots_keeps
    | with_reducible apply State.loadWatch_keeps
    | with_reducible apply State.loadStream_keeps
    | with_reducible apply State.publishAll_keeps
    | with_reducible apply State.loadPower_keeps
    | extract_lets +onlyGivenNames t
    | (simp only [keeps_mk]; with_reducible refine keeps_of ?_)

/-- `State.jobLoad` keeps. -/
theorem State.jobLoad_keeps {s0 : State} (s : State) (pIdle : Nat) (b : List Sys2Proof.Byte) (h : Keeps s0 s) : Keeps s0 (State.jobLoad s pIdle b).1:= by
  unfold State.jobLoad
  repeat' first
    | with_reducible assumption
    | with_reducible apply State.applyLoad_keeps
    | extract_lets +onlyGivenNames t
    | ((with_reducible refine keeps_of_mk ?_); (with_reducible refine keeps_of ?_); with_reducible assumption)
    | split

/-- `execJobLoad` keeps. -/
theorem execJobLoad_keeps {s0 : State} (m : Fin 16) (pIdle : Sys2Proof.W16) (s : State) (h : Keeps s0 s) : KeepsRes s0 (execJobLoad m pIdle s) := by
  unfold execJobLoad
  repeat' first
    | intro _
    | with_reducible assumption
    | with_reducible apply State.atPoint_keeps
    | with_reducible apply State.jobLoad_keeps
    | with_reducible refine keepsRes_next ?_

/-- `State.enterStart` keeps. -/
theorem State.enterStart_keeps {s0 : State} (s : State) (n : Nat) (h : Keeps s0 s) : Keeps s0 (State.enterStart s n) := by
  unfold State.enterStart
  repeat' first
    | with_reducible apply State.tryBarrier_keeps
    | with_reducible apply State.startClusters_keeps
    | extract_lets +onlyGivenNames t
    | ((with_reducible refine keeps_of_mk ?_); (with_reducible refine keeps_of ?_); with_reducible assumption)

/-- `State.enterResume` keeps. -/
theorem State.enterResume_keeps {s0 : State} (s : State) (n : Nat) (h : Keeps s0 s) : Keeps s0 (State.enterResume s n) := by
  unfold State.enterResume
  repeat' first
    | with_reducible assumption
    | with_reducible apply State.newTree_keeps
    | with_reducible apply State.loadClusters_keeps
    | with_reducible apply State.enterStart_keeps
    | extract_lets +onlyGivenNames t
    | (simp only [keeps_mk]; with_reducible refine keeps_of ?_)

/-- `execJobStart` keeps. -/
theorem execJobStart_keeps {s0 : State} (m : Fin 16) (s : State) (h : Keeps s0 s) : KeepsRes s0 (execJobStart m s) := by
  unfold execJobStart
  repeat' first
    | intro _
    | with_reducible assumption
    | with_reducible apply State.atPoint_keeps
    | with_reducible apply State.enterStart_keeps
    | with_reducible apply State.enterResume_keeps
    | extract_lets +onlyGivenNames t
    | with_reducible refine keepsRes_next ?_
    | split

/-- `State.stopEnd` keeps. -/
theorem State.stopEnd_keeps {s0 : State} (s : State) (b : List Sys2Proof.Byte) (h : Keeps s0 s) : Keeps s0 (State.stopEnd s b).1:= by
  unfold State.stopEnd
  repeat' first
    | with_reducible assumption
    | (extract_lets +onlyGivenNames t; (with_reducible refine keeps_cut (s0 := s0) (t := t) ?_ ?_); rotate_left; intro ht; (try clear_value t); rotate_left; subst t)
    | extract_lets +onlyGivenNames t
    | ((with_reducible refine keeps_of_mk ?_); (with_reducible refine keeps_of ?_); with_reducible assumption)
    | split

/-- `execJobStopEnd` keeps. -/
theorem execJobStopEnd_keeps {s0 : State} (m : Fin 16) (s : State) (h : Keeps s0 s) : KeepsRes s0 (execJobStopEnd m s) := by
  unfold execJobStopEnd
  repeat' first
    | intro _
    | with_reducible assumption
    | with_reducible apply State.atPointWhen_keeps
    | with_reducible apply State.stopEnd_keeps
    | extract_lets +onlyGivenNames t
    | with_reducible refine keepsRes_next ?_
    | split

/-- `execJobStopAbort` keeps. -/
theorem execJobStopAbort_keeps {s0 : State} (m : Fin 16) (s : State) (h : Keeps s0 s) : KeepsRes s0 (execJobStopAbort m s) := by
  unfold execJobStopAbort
  repeat' first
    | intro _
    | with_reducible assumption
    | with_reducible apply State.atPointWhen_keeps
    | with_reducible apply State.stopJob_keeps
    | (extract_lets +onlyGivenNames t; (with_reducible refine keeps_cut (s0 := s0) (t := t) ?_ ?_); rotate_left; intro ht; (try clear_value t); rotate_left; subst t)
    | with_reducible refine keepsRes_next ?_
    | split

/-- `execJobPause` keeps. -/
theorem execJobPause_keeps {s0 : State} (m : Fin 16) (s : State) (h : Keeps s0 s) : KeepsRes s0 (execJobPause m s) := by
  unfold execJobPause
  repeat' first
    | intro _
    | with_reducible assumption
    | with_reducible apply State.atPoint_keeps
    | with_reducible apply State.pauseJob_keeps
    | extract_lets +onlyGivenNames t
    | with_reducible refine keepsRes_next ?_
    | split

/-- `execJobResume` keeps. -/
theorem execJobResume_keeps {s0 : State} (m : Fin 16) (s : State) (h : Keeps s0 s) : KeepsRes s0 (execJobResume m s) := by
  unfold execJobResume
  repeat' first
    | intro _
    | with_reducible assumption
    | with_reducible apply State.atPoint_keeps
    | with_reducible apply State.resumeJob_keeps
    | extract_lets +onlyGivenNames t
    | with_reducible refine keepsRes_next ?_
    | split

/-- `State.clearClusters` keeps. -/
theorem State.clearClusters_keeps {s0 : State} (s : State) (h : Keeps s0 s) : Keeps s0 (State.clearClusters s) := by
  unfold State.clearClusters
  repeat' first
    | intro _
    | with_reducible assumption
    | with_reducible apply State.modCl_keeps
    | with_reducible apply State.flushCache_keeps
    | with_reducible refine keeps_foldl ?_ _ ?_

/-- `State.jobUnload` keeps. -/
theorem State.jobUnload_keeps {s0 : State} (s : State) (h : Keeps s0 s) : Keeps s0 (State.jobUnload s).1:= by
  unfold State.jobUnload
  repeat' first
    | with_reducible assumption
    | with_reducible apply State.abortOps_keeps
    | with_reducible apply State.dropPosts_keeps
    | with_reducible apply State.clearClusters_keeps
    | with_reducible apply State.mapSpares_keeps
    | (extract_lets +onlyGivenNames t; (with_reducible refine keeps_cut (s0 := s0) (t := t) ?_ ?_); rotate_left; intro ht; (try clear_value t); rotate_left; subst t)
    | extract_lets +onlyGivenNames t
    | ((with_reducible refine keeps_of_mk ?_); (with_reducible refine keeps_of ?_); with_reducible assumption)
    | split

/-- `execJobUnload` keeps. -/
theorem execJobUnload_keeps {s0 : State} (m : Fin 16) (s : State) (h : Keeps s0 s) : KeepsRes s0 (execJobUnload m s) := by
  unfold execJobUnload
  repeat' first
    | intro _
    | with_reducible assumption
    | with_reducible apply State.atPoint_keeps
    | with_reducible apply State.jobUnload_keeps
    | with_reducible refine keepsRes_next ?_

/-- `execRegulatorSet` keeps. -/
theorem execRegulatorSet_keeps {s0 : State} (m : Fin 16) (s : State) (h : Keeps s0 s) : KeepsRes s0 (execRegulatorSet m s) := by
  unfold execRegulatorSet
  repeat' first
    | intro _
    | with_reducible assumption
    | with_reducible apply State.atPoint_keeps
    | with_reducible apply State.setClassMap_keeps
    | with_reducible apply State.setPart_keeps
    | extract_lets +onlyGivenNames t
    | with_reducible refine keeps_foldl ?_ _ ?_
    | with_reducible refine keepsRes_next ?_
    | split

/-- `execJobStatus` keeps. -/
theorem execJobStatus_keeps {s0 : State} (m : Fin 16) (s : State) (h : Keeps s0 s) : KeepsRes s0 (execJobStatus m s) := by
  unfold execJobStatus
  repeat' first
    | with_reducible assumption
    | with_reducible apply State.readAt_keeps
    | with_reducible refine keepsRes_next ?_

/-- `execRegulatorRead` keeps. -/
theorem execRegulatorRead_keeps {s0 : State} (m : Fin 16) (s : State) (h : Keeps s0 s) : KeepsRes s0 (execRegulatorRead m s) := by
  unfold execRegulatorRead
  repeat' first
    | with_reducible assumption
    | with_reducible apply State.readAt_keeps
    | with_reducible refine keepsRes_next ?_

/-- `execIdentify` keeps. -/
theorem execIdentify_keeps {s0 : State} (m : Fin 16) (s : State) (h : Keeps s0 s) : KeepsRes s0 (execIdentify m s) := by
  unfold execIdentify
  repeat' first
    | with_reducible assumption
    | with_reducible apply State.readAt_keeps
    | with_reducible refine keepsRes_next ?_

/-- `execDeviceStatus` keeps. -/
theorem execDeviceStatus_keeps {s0 : State} (m : Fin 16) (s : State) (h : Keeps s0 s) : KeepsRes s0 (execDeviceStatus m s) := by
  unfold execDeviceStatus
  repeat' first
    | with_reducible assumption
    | with_reducible apply State.readAt_keeps
    | with_reducible refine keepsRes_next ?_

/-- `execStepRead` keeps. -/
theorem execStepRead_keeps {s0 : State} (m : Fin 16) (s : State) (h : Keeps s0 s) : KeepsRes s0 (execStepRead m s) := by
  unfold execStepRead
  repeat' first
    | with_reducible assumption
    | with_reducible apply State.readAt_keeps
    | with_reducible refine keepsRes_next ?_

/-- `execWatchRead` keeps. -/
theorem execWatchRead_keeps {s0 : State} (m : Fin 16) (s : State) (h : Keeps s0 s) : KeepsRes s0 (execWatchRead m s) := by
  unfold execWatchRead
  repeat' first
    | with_reducible assumption
    | with_reducible apply State.readAt_keeps
    | with_reducible refine keepsRes_next ?_

/-- `execClusterHalt` keeps. -/
theorem execClusterHalt_keeps {s0 : State} (m : Fin 16) (s : State) (h : Keeps s0 s) : KeepsRes s0 (execClusterHalt m s) := by
  unfold execClusterHalt
  repeat' first
    | intro _
    | with_reducible assumption
    | with_reducible apply State.atPoint_keeps
    | with_reducible apply State.modCl_keeps
    | extract_lets +onlyGivenNames t
    | with_reducible refine keeps_foldl ?_ _ ?_
    | with_reducible refine keepsRes_next ?_
    | split

/-- `execClusterResume` keeps. -/
theorem execClusterResume_keeps {s0 : State} (m : Fin 16) (s : State) (h : Keeps s0 s) : KeepsRes s0 (execClusterResume m s) := by
  unfold execClusterResume
  repeat' first
    | intro _
    | with_reducible assumption
    | with_reducible apply State.atPoint_keeps
    | with_reducible apply State.modCl_keeps
    | (extract_lets +onlyGivenNames t; (with_reducible refine keeps_cut (s0 := s0) (t := t) ?_ ?_); rotate_left; intro ht; (try clear_value t); rotate_left; subst t)
    | with_reducible refine keeps_foldl ?_ _ ?_
    | with_reducible refine keepsRes_next ?_
    | split

/-- `execClusterRead` keeps. -/
theorem execClusterRead_keeps {s0 : State} (m : Fin 16) (s : State) (h : Keeps s0 s) : KeepsRes s0 (execClusterRead m s) := by
  unfold execClusterRead
  repeat' first
    | with_reducible assumption
    | with_reducible apply State.readAt_keeps
    | with_reducible refine keepsRes_next ?_

/-- `execPowerRead` keeps. -/
theorem execPowerRead_keeps {s0 : State} (m : Fin 16) (s : State) (h : Keeps s0 s) : KeepsRes s0 (execPowerRead m s) := by
  unfold execPowerRead
  repeat' first
    | with_reducible assumption
    | with_reducible apply State.readAt_keeps
    | with_reducible refine keepsRes_next ?_

/-- `execPowerTable` keeps. -/
theorem execPowerTable_keeps {s0 : State} (m : Fin 16) (s : State) (h : Keeps s0 s) : KeepsRes s0 (execPowerTable m s) := by
  unfold execPowerTable
  repeat' first
    | with_reducible assumption
    | with_reducible apply State.readAt_keeps
    | with_reducible refine keepsRes_next ?_

/-- `State.putReg` keeps. -/
theorem State.putReg_keeps {s0 : State} (s : State) (r : Reg) (w : Nat) (h : Keeps s0 s) : Keeps s0 (State.putReg s r w) := by
  unfold State.putReg
  repeat' first
    | with_reducible assumption
    | with_reducible apply State.setRelayCfg_keeps
    | with_reducible apply State.setRelaySite_keeps
    | with_reducible apply State.setRefCfg_keeps
    | with_reducible apply State.setPart_keeps
    | with_reducible apply State.setClassMap_keeps
    | with_reducible apply State.setFabCfg_keeps
    | with_reducible apply State.setFabTune_keeps
    | with_reducible apply State.modCl_keeps
    | extract_lets +onlyGivenNames t
    | ((with_reducible refine keeps_of_mk ?_); (with_reducible refine keeps_of ?_); with_reducible assumption)
    | split

/-- `execPowerConfig` keeps. -/
theorem execPowerConfig_keeps {s0 : State} (m : Fin 16) (s : State) (h : Keeps s0 s) : KeepsRes s0 (execPowerConfig m s) := by
  unfold execPowerConfig
  repeat' first
    | intro _
    | with_reducible assumption
    | with_reducible apply State.atPoint_keeps
    | with_reducible apply State.putReg_keeps
    | extract_lets +onlyGivenNames t
    | with_reducible refine keepsRes_next ?_
    | split

/-- `execVinSet` keeps. -/
theorem execVinSet_keeps {s0 : State} (m : Fin 16) (readVout : Option Sys2Proof.W16) (s : State) (h : Keeps s0 s) : KeepsRes s0 (execVinSet m readVout s) := by
  unfold execVinSet
  repeat' first
    | intro _
    | with_reducible assumption
    | with_reducible apply State.atPoint_keeps
    | with_reducible apply State.pmbBad_keeps
    | with_reducible apply State.pmbGood_keeps
    | (extract_lets +onlyGivenNames t; (with_reducible refine keeps_cut (s0 := s0) (t := t) ?_ ?_); rotate_left; intro ht; (try clear_value t); rotate_left; subst t)
    | extract_lets +onlyGivenNames t
    | ((with_reducible refine keeps_of_mk ?_); (with_reducible refine keeps_of ?_); with_reducible assumption)
    | with_reducible refine keepsRes_next ?_
    | split

/-- `execSlotRead` keeps. -/
theorem execSlotRead_keeps {s0 : State} (m : Fin 16) (s : State) (h : Keeps s0 s) : KeepsRes s0 (execSlotRead m s) := by
  unfold execSlotRead
  repeat' first
    | with_reducible assumption
    | with_reducible apply State.readAt_keeps
    | with_reducible refine keepsRes_next ?_

/-- `execStackRead` keeps. -/
theorem execStackRead_keeps {s0 : State} (m : Fin 16) (s : State) (h : Keeps s0 s) : KeepsRes s0 (execStackRead m s) := by
  unfold execStackRead
  repeat' first
    | with_reducible assumption
    | with_reducible apply State.readAt_keeps
    | with_reducible refine keepsRes_next ?_

/-- `execCounters` keeps. -/
theorem execCounters_keeps {s0 : State} (m : Fin 16) (s : State) (h : Keeps s0 s) : KeepsRes s0 (execCounters m s) := by
  unfold execCounters
  repeat' first
    | with_reducible assumption
    | with_reducible apply State.readAt_keeps
    | with_reducible refine keepsRes_next ?_

/-- `execForecast` keeps. -/
theorem execForecast_keeps {s0 : State} (m : Fin 16) (s : State) (h : Keeps s0 s) : KeepsRes s0 (execForecast m s) := by
  unfold execForecast
  repeat' first
    | with_reducible assumption
    | with_reducible apply State.readAt_keeps
    | with_reducible refine keepsRes_next ?_

/-- `execEventMask` keeps. -/
theorem execEventMask_keeps {s0 : State} (m : Fin 16) (s : State) (h : Keeps s0 s) : KeepsRes s0 (execEventMask m s) := by
  unfold execEventMask
  repeat' first
    | intro _
    | with_reducible assumption
    | with_reducible apply State.atPoint_keeps
    | with_reducible apply State.modBox_keeps
    | extract_lets +onlyGivenNames t
    | with_reducible refine keepsRes_next ?_
    | split

/-- `State.eventFetch` keeps. -/
theorem State.eventFetch_keeps {s0 : State} (s : State) (m : Nat) (b : List Sys2Proof.Byte) (h : Keeps s0 s) : Keeps s0 (State.eventFetch s m b).1:= by
  unfold State.eventFetch
  repeat' first
    | with_reducible assumption
    | with_reducible apply State.modBox_keeps
    | (extract_lets +onlyGivenNames t; (with_reducible refine keeps_cut (s0 := s0) (t := t) ?_ ?_); rotate_left; intro ht; (try clear_value t); rotate_left; subst t)
    | extract_lets +onlyGivenNames t
    | split

/-- `execEventFetch` keeps. -/
theorem execEventFetch_keeps {s0 : State} (m : Fin 16) (s : State) (h : Keeps s0 s) : KeepsRes s0 (execEventFetch m s) := by
  unfold execEventFetch
  repeat' first
    | intro _
    | with_reducible assumption
    | with_reducible apply State.atPoint_keeps
    | with_reducible apply State.eventFetch_keeps
    | with_reducible refine keepsRes_next ?_

/-- `State.twinBind` keeps. -/
theorem State.twinBind_keeps {s0 : State} (s : State) (b : List Sys2Proof.Byte) (h : Keeps s0 s) : Keeps s0 (State.twinBind s b).1:= by
  unfold State.twinBind
  repeat' first
    | with_reducible assumption
    | with_reducible apply State.resync_keeps
    | (extract_lets +onlyGivenNames t; (with_reducible refine keeps_cut (s0 := s0) (t := t) ?_ ?_); rotate_left; intro ht; (try clear_value t); rotate_left; subst t)
    | extract_lets +onlyGivenNames t
    | ((with_reducible refine keeps_of_mk ?_); (with_reducible refine keeps_of ?_); with_reducible assumption)
    | split

/-- `execTwinBind` keeps. -/
theorem execTwinBind_keeps {s0 : State} (m : Fin 16) (s : State) (h : Keeps s0 s) : KeepsRes s0 (execTwinBind m s) := by
  unfold execTwinBind
  repeat' first
    | intro _
    | with_reducible assumption
    | with_reducible apply State.atPoint_keeps
    | with_reducible apply State.twinBind_keeps
    | with_reducible refine keepsRes_next ?_

/-- `execTwinUnbind` keeps. -/
theorem execTwinUnbind_keeps {s0 : State} (m : Fin 16) (s : State) (h : Keeps s0 s) : KeepsRes s0 (execTwinUnbind m s) := by
  unfold execTwinUnbind
  repeat' first
    | intro _
    | with_reducible assumption
    | with_reducible apply State.atPoint_keeps
    | with_reducible apply State.event_keeps
    | with_reducible apply State.runTwinless_keeps
    | (extract_lets +onlyGivenNames t; (with_reducible refine keeps_cut (s0 := s0) (t := t) ?_ ?_); rotate_left; intro ht; (try clear_value t); rotate_left; subst t)
    | extract_lets +onlyGivenNames t
    | ((with_reducible refine keeps_of_mk ?_); (with_reducible refine keeps_of ?_); with_reducible assumption)
    | with_reducible refine keepsRes_next ?_
    | split

/-- `State.putBackup` keeps. -/
theorem State.putBackup_keeps {s0 : State} (s : State) (boff : Nat) (bs : List Sys2Proof.Byte) (h : Keeps s0 s) : Keeps s0 (State.putBackup s boff bs) := by
  unfold State.putBackup
  repeat' first
    | intro _
    | with_reducible assumption
    | with_reducible apply State.store_keeps
    | extract_lets +onlyGivenNames t
    | with_reducible refine keeps_foldl ?_ _ ?_
    | split

/-- `State.takeRestore` keeps. -/
theorem State.takeRestore_keeps {s0 : State} (s : State) (rs : List Record) (h : Keeps s0 s) : Keeps s0 (State.takeRestore s rs).1:= by
  unfold State.takeRestore
  repeat' first
    | intro _
    | with_reducible assumption
    | with_reducible apply State.putBackup_keeps
    | extract_lets +onlyGivenNames t
    | with_reducible refine keeps_foldl_fst ?_ _ ?_
    | dsimp -zeta only
    | split

/-- `State.restored` keeps. -/
theorem State.restored_keeps {s0 : State} (s : State) (target : Nat) (u : Nat) (h : Keeps s0 s) : Keeps s0 (State.restored s target u) := by
  unfold State.restored
  repeat' first
    | with_reducible assumption
    | with_reducible apply State.publishAll_keeps
    | with_reducible apply State.event_keeps
    | with_reducible apply State.resync_keeps
    | extract_lets +onlyGivenNames t
    | split
    | (simp only [keeps_mk]; with_reducible refine keeps_of ?_)

/-- `State.restore` keeps. -/
theorem State.restore_keeps {s0 : State} (s : State) (reply : Option Nat) (records : List Record) (b : List Sys2Proof.Byte) (h : Keeps s0 s) : Keeps s0 (State.restore s reply records b).1:= by
  unfold State.restore
  repeat' first
    | with_reducible assumption
    | with_reducible apply State.takeRestore_keeps
    | with_reducible apply State.restored_keeps
    | dsimp -zeta only
    | split

/-- `execRestore` keeps. -/
theorem execRestore_keeps {s0 : State} (m : Fin 16) (reply : Option Nat) (records : List Record) (s : State) (h : Keeps s0 s) : KeepsRes s0 (execRestore m reply records s) := by
  unfold execRestore
  repeat' first
    | intro _
    | with_reducible assumption
    | with_reducible apply State.atPoint_keeps
    | with_reducible apply State.restore_keeps
    | with_reducible refine keepsRes_next ?_

/-- `execExportSet` keeps. -/
theorem execExportSet_keeps {s0 : State} (m : Fin 16) (s : State) (h : Keeps s0 s) : KeepsRes s0 (execExportSet m s) := by
  unfold execExportSet
  repeat' first
    | intro _
    | with_reducible assumption
    | with_reducible apply State.atPoint_keeps
    | extract_lets +onlyGivenNames t
    | ((with_reducible refine keeps_of_mk ?_); (with_reducible refine keeps_of ?_); with_reducible assumption)
    | with_reducible refine keepsRes_next ?_
    | split

/-- `State.renameEntry` keeps. -/
theorem State.renameEntry_keeps {s0 : State} (s : State) (i : Nat) (old : Nat) (new : Nat) (h : Keeps s0 s) : Keeps s0 (State.renameEntry s i old new) := by
  unfold State.renameEntry
  repeat' first
    | with_reducible assumption
    | with_reducible apply State.store_keeps
    | extract_lets +onlyGivenNames t
    | split

/-- `State.rankUpdate` keeps. -/
theorem State.rankUpdate_keeps {s0 : State} (s : State) (b : List Sys2Proof.Byte) (h : Keeps s0 s) : Keeps s0 (State.rankUpdate s b).1:= by
  unfold State.rankUpdate
  repeat' first
    | intro _
    | with_reducible assumption
    | with_reducible apply State.store_keeps
    | with_reducible apply State.renameEntry_keeps
    | with_reducible apply State.modCl_keeps
    | (extract_lets +onlyGivenNames t; (with_reducible refine keeps_cut (s0 := s0) (t := t) ?_ ?_); rotate_left; intro ht; (try clear_value t); rotate_left; subst t)
    | extract_lets +onlyGivenNames t
    | ((with_reducible refine keeps_of_mk ?_); (with_reducible refine keeps_of ?_); with_reducible assumption)
    | with_reducible refine keeps_foldl ?_ _ ?_
    | split

/-- `execRankUpdate` keeps. -/
theorem execRankUpdate_keeps {s0 : State} (m : Fin 16) (s : State) (h : Keeps s0 s) : KeepsRes s0 (execRankUpdate m s) := by
  unfold execRankUpdate
  repeat' first
    | intro _
    | with_reducible assumption
    | with_reducible apply State.atPoint_keeps
    | with_reducible apply State.rankUpdate_keeps
    | with_reducible refine keepsRes_next ?_

/-- `execStreamRead` keeps. -/
theorem execStreamRead_keeps {s0 : State} (m : Fin 16) (s : State) (h : Keeps s0 s) : KeepsRes s0 (execStreamRead m s) := by
  unfold execStreamRead
  repeat' first
    | with_reducible assumption
    | with_reducible apply State.readAt_keeps
    | with_reducible refine keepsRes_next ?_

/-- `execUnitRead` keeps. -/
theorem execUnitRead_keeps {s0 : State} (m : Fin 16) (s : State) (h : Keeps s0 s) : KeepsRes s0 (execUnitRead m s) := by
  unfold execUnitRead
  repeat' first
    | with_reducible assumption
    | with_reducible apply State.readAt_keeps
    | with_reducible refine keepsRes_next ?_

/-- `execErrorRead` keeps. -/
theorem execErrorRead_keeps {s0 : State} (m : Fin 16) (s : State) (h : Keeps s0 s) : KeepsRes s0 (execErrorRead m s) := by
  unfold execErrorRead
  repeat' first
    | with_reducible assumption
    | with_reducible apply State.readAt_keeps
    | with_reducible refine keepsRes_next ?_

/-- `execLastGaspRead` keeps. -/
theorem execLastGaspRead_keeps {s0 : State} (m : Fin 16) (s : State) (h : Keeps s0 s) : KeepsRes s0 (execLastGaspRead m s) := by
  unfold execLastGaspRead
  repeat' first
    | with_reducible assumption
    | with_reducible apply State.readAt_keeps
    | with_reducible refine keepsRes_next ?_

/-- `State.bringUp` keeps. -/
theorem State.bringUp_keeps {s0 : State} (s : State) (u : Nat) (h : Keeps s0 s) : Keeps s0 (State.bringUp s u) := by
  unfold State.bringUp
  repeat' first
    | with_reducible assumption
    | with_reducible apply State.wakeDom_keeps
    | with_reducible apply State.unitJoin_keeps
    | with_reducible apply State.pumpAll_keeps
    | with_reducible apply State.event_keeps
    | with_reducible apply State.setLane_keeps
    | (extract_lets +onlyGivenNames t; (with_reducible refine keeps_cut (s0 := s0) (t := t) ?_ ?_); rotate_left; intro ht; (try clear_value t); rotate_left; subst t)
    | split

/-- `State.bringUpFails` keeps. -/
theorem State.bringUpFails_keeps {s0 : State} (s : State) (u : Nat) (h : Keeps s0 s) : Keeps s0 (State.bringUpFails s u) := by
  unfold State.bringUpFails
  repeat' first
    | with_reducible assumption
    | with_reducible apply State.unitTo_keeps
    | with_reducible apply State.setLane_keeps
    | (extract_lets +onlyGivenNames t; (with_reducible refine keeps_cut (s0 := s0) (t := t) ?_ ?_); rotate_left; intro ht; (try clear_value t); rotate_left; subst t)
    | split

/-- `State.makeSpare` keeps. -/
theorem State.makeSpare_keeps {s0 : State} (s : State) (u : Nat) (h : Keeps s0 s) : Keeps s0 (State.makeSpare s u) := by
  unfold State.makeSpare
  repeat' first
    | with_reducible assumption
    | with_reducible apply State.unitLeave_keeps
    | with_reducible apply State.setUnit_keeps
    | (extract_lets +onlyGivenNames t; (with_reducible refine keeps_cut (s0 := s0) (t := t) ?_ ?_); rotate_left; intro ht; (try clear_value t); rotate_left; subst t)
    | extract_lets +onlyGivenNames t
    | split

/-- `State.unitSet` keeps. -/
theorem State.unitSet_keeps {s0 : State} (s : State) (up : Bool) (b : List Sys2Proof.Byte) (h : Keeps s0 s) : Keeps s0 (State.unitSet s up b).1:= by
  unfold State.unitSet
  repeat' first
    | with_reducible assumption
    | with_reducible apply State.setUnit_keeps
    | with_reducible apply State.retireUnit_keeps
    | with_reducible apply State.bringUp_keeps
    | with_reducible apply State.bringUpFails_keeps
    | with_reducible apply State.makeSpare_keeps
    | with_reducible apply State.unitLeave_keeps
    | (extract_lets +onlyGivenNames t; have f : State → _ := t; clear f; subst t)
    | extract_lets +onlyGivenNames t
    | dsimp -zeta only
    | split

/-- `execUnitSet` keeps. -/
theorem execUnitSet_keeps {s0 : State} (m : Fin 16) (bringUp : Bool) (s : State) (h : Keeps s0 s) : KeepsRes s0 (execUnitSet m bringUp s) := by
  unfold execUnitSet
  repeat' first
    | intro _
    | with_reducible assumption
    | with_reducible apply State.atPoint_keeps
    | with_reducible apply State.unitSet_keeps
    | with_reducible refine keepsRes_next ?_

/-- `State.bistFails` keeps. -/
theorem State.bistFails_keeps {s0 : State} (s : State) (u : Nat) (misr : Nat) (expected : Nat) (act : Nat) (h : Keeps s0 s) : Keeps s0 (State.bistFails s u misr expected act) := by
  unfold State.bistFails
  repeat' first
    | with_reducible assumption
    | with_reducible apply State.err_keeps

/-- `State.bistEvent` keeps. -/
theorem State.bistEvent_keeps {s0 : State} (s : State) (u : Nat) (row : Nat) (h : Keeps s0 s) : Keeps s0 (State.bistEvent s u row) := by
  unfold State.bistEvent
  repeat' first
    | with_reducible assumption
    | with_reducible apply State.history_keeps
    | with_reducible apply State.retireUnit_keeps
    | with_reducible apply State.repairEntry_keeps
    | extract_lets +onlyGivenNames t
    | dsimp -zeta only
    | split

/-- `State.zeroStore` keeps. -/
theorem State.zeroStore_keeps {s0 : State} (s : State) (u : Nat) (h : Keeps s0 s) : Keeps s0 (State.zeroStore s u) := by
  unfold State.zeroStore
  dsimp only
  split
  · exact keeps_of_mk (keeps_mem h tabFilter_wf tabFilter_wf)
  · exact h

/-- `State.bist` keeps. -/
theorem State.bist_keeps {s0 : State} (s : State) (kind : Nat) (cls : Nat) (m1 : Nat) (m2 : Nat) (row : Nat) (b : List Sys2Proof.Byte) (h : Keeps s0 s) : Keeps s0 (State.bist s kind cls m1 m2 row b).1:= by
  unfold State.bist
  repeat' first
    | with_reducible assumption
    | with_reducible apply State.zeroStore_keeps
    | with_reducible apply State.bistFails_keeps
    | with_reducible apply State.bistEvent_keeps
    | with_reducible apply State.retireUnit_keeps
    | (extract_lets +onlyGivenNames t; (with_reducible refine keeps_cut (s0 := s0) (t := t) ?_ ?_); rotate_left; intro ht; (try clear_value t); rotate_left; subst t)
    | extract_lets +onlyGivenNames t
    | split

/-- `execBistLogic` keeps. -/
theorem execBistLogic_keeps {s0 : State} (m : Fin 16) (misr1 : Sys2Proof.W64) (misr2 : Sys2Proof.W64) (s : State) (h : Keeps s0 s) : KeepsRes s0 (execBistLogic m misr1 misr2 s) := by
  unfold execBistLogic
  repeat' first
    | intro _
    | with_reducible assumption
    | with_reducible apply State.atPointWhen_keeps
    | with_reducible apply State.bist_keeps
    | with_reducible refine keepsRes_next ?_

/-- `execBistMemorySlot` keeps. -/
theorem execBistMemorySlot_keeps {s0 : State} (m : Fin 16) (misr1 : Sys2Proof.W64) (misr2 : Sys2Proof.W64) (s : State) (h : Keeps s0 s) : KeepsRes s0 (execBistMemorySlot m misr1 misr2 s) := by
  unfold execBistMemorySlot
  repeat' first
    | intro _
    | with_reducible assumption
    | with_reducible apply State.atPointWhen_keeps
    | with_reducible apply State.bist_keeps
    | with_reducible refine keepsRes_next ?_

/-- `execBistMemoryWay` keeps. -/
theorem execBistMemoryWay_keeps {s0 : State} (m : Fin 16) (misr1 : Sys2Proof.W64) (misr2 : Sys2Proof.W64) (row : Sys2Proof.W16) (s : State) (h : Keeps s0 s) : KeepsRes s0 (execBistMemoryWay m misr1 misr2 row s) := by
  unfold execBistMemoryWay
  repeat' first
    | intro _
    | with_reducible assumption
    | with_reducible apply State.atPointWhen_keeps
    | with_reducible apply State.bist_keeps
    | with_reducible refine keepsRes_next ?_

/-- `execBistReferenceTest` keeps. -/
theorem execBistReferenceTest_keeps {s0 : State} (m : Fin 16) (a : TestResult) (b : TestResult) (f : TestResult) (s : State) (h : Keeps s0 s) : KeepsRes s0 (execBistReferenceTest m a b f s) := by
  unfold execBistReferenceTest
  repeat' first
    | intro _
    | with_reducible assumption
    | with_reducible apply State.atPointWhen_keeps
    | with_reducible apply State.testSources_keeps
    | (extract_lets +onlyGivenNames t; (with_reducible refine keeps_cut (s0 := s0) (t := t) ?_ ?_); rotate_left; intro ht; (try clear_value t); rotate_left; subst t)
    | with_reducible refine keepsRes_next ?_
    | split

/-- `execLogicCheck` keeps. -/
theorem execLogicCheck_keeps {s0 : State} (c : BitVec 8) (check : Sys2Proof.W32) (bist : Bool) (s : State) (h : Keeps s0 s) : KeepsRes s0 (execLogicCheck c check bist s) := by
  unfold execLogicCheck
  repeat' first
    | with_reducible assumption
    | with_reducible apply State.setFence_keeps
    | with_reducible apply State.history_keeps
    | with_reducible apply State.devFault_keeps
    | with_reducible apply State.retireUnit_keeps
    | with_reducible apply State.unitLeave_keeps
    | with_reducible apply State.unitJoin_keeps
    | (extract_lets +onlyGivenNames t; (with_reducible refine keeps_cut (s0 := s0) (t := t) ?_ ?_); rotate_left; intro ht; (try clear_value t); rotate_left; subst t)
    | (extract_lets +onlyGivenNames t; have f : State → _ := t; clear f; subst t)
    | extract_lets +onlyGivenNames t
    | ((with_reducible refine keeps_of_mk ?_); (with_reducible refine keeps_of ?_); with_reducible assumption)
    | with_reducible refine keepsRes_next ?_
    | dsimp -zeta only
    | split
    | (simp only [keeps_mk]; with_reducible refine keeps_of ?_)

/-- `execHardwareFence` keeps. -/
theorem execHardwareFence_keeps {s0 : State} (unit : Sys2Proof.W32) (set : Bool) (s : State) (h : Keeps s0 s) : KeepsRes s0 (execHardwareFence unit set s) := by
  unfold execHardwareFence
  repeat' first
    | with_reducible assumption
    | with_reducible apply State.err_keeps
    | with_reducible apply State.setFence_keeps
    | with_reducible apply State.setUnit_keeps
    | with_reducible apply State.unitLeave_keeps
    | (extract_lets +onlyGivenNames t; (with_reducible refine keeps_cut (s0 := s0) (t := t) ?_ ?_); rotate_left; intro ht; (try clear_value t); rotate_left; subst t)
    | extract_lets +onlyGivenNames t
    | ((with_reducible refine keeps_of_mk ?_); (with_reducible refine keeps_of ?_); with_reducible assumption)
    | with_reducible refine keepsRes_next ?_
    | split

/-- `execRepairRecordWrite` keeps. -/
theorem execRepairRecordWrite_keeps {s0 : State} (ok : Bool) (s : State) (h : Keeps s0 s) : KeepsRes s0 (execRepairRecordWrite ok s) := by
  unfold execRepairRecordWrite
  repeat' first
    | with_reducible assumption
    | with_reducible apply State.eraseJ_keeps
    | with_reducible apply State.writeJ_keeps
    | with_reducible apply State.err_keeps
    | (extract_lets +onlyGivenNames t; (with_reducible refine keeps_cut (s0 := s0) (t := t) ?_ ?_); rotate_left; intro ht; (try clear_value t); rotate_left; subst t)
    | extract_lets +onlyGivenNames t
    | ((with_reducible refine keeps_of_mk ?_); (with_reducible refine keeps_of ?_); with_reducible assumption)
    | with_reducible refine keepsRes_next ?_
    | split

/-- `execErrorRateWindow` keeps. -/
theorem execErrorRateWindow_keeps {s0 : State} (s : State) (h : Keeps s0 s) : KeepsRes s0 (execErrorRateWindow s) := by
  unfold execErrorRateWindow
  repeat' first
    | with_reducible assumption
    | with_reducible apply State.err_keeps
    | extract_lets +onlyGivenNames t
    | ((with_reducible refine keeps_of_mk ?_); (with_reducible refine keeps_of ?_); with_reducible assumption)
    | with_reducible refine keepsRes_next ?_
    | split

/-- `execFwInfo` keeps. -/
theorem execFwInfo_keeps {s0 : State} (m : Fin 16) (s : State) (h : Keeps s0 s) : KeepsRes s0 (execFwInfo m s) := by
  unfold execFwInfo
  repeat' first
    | with_reducible assumption
    | with_reducible apply State.readAt_keeps
    | with_reducible refine keepsRes_next ?_

/-- `State.fwWrite` keeps. -/
theorem State.fwWrite_keeps {s0 : State} (s : State) (b : List Sys2Proof.Byte) (h : Keeps s0 s) : Keeps s0 (State.fwWrite s b).1:= by
  unfold State.fwWrite
  repeat' first
    | intro _
    | with_reducible assumption
    | with_reducible apply State.eraseJ_keeps
    | with_reducible apply State.journalAdd_keeps
    | (extract_lets +onlyGivenNames t; (with_reducible refine keeps_cut (s0 := s0) (t := t) ?_ ?_); rotate_left; intro ht; (try clear_value t); rotate_left; subst t)
    | extract_lets +onlyGivenNames t
    | ((with_reducible refine keeps_of_mk ?_); (with_reducible refine keeps_of ?_); with_reducible assumption)
    | with_reducible refine keeps_foldl ?_ _ ?_
    | split

/-- `execFwWrite` keeps. -/
theorem execFwWrite_keeps {s0 : State} (m : Fin 16) (s : State) (h : Keeps s0 s) : KeepsRes s0 (execFwWrite m s) := by
  unfold execFwWrite
  repeat' first
    | intro _
    | with_reducible assumption
    | with_reducible apply State.atPoint_keeps
    | with_reducible apply State.fwWrite_keeps
    | with_reducible refine keepsRes_next ?_

/-- `State.fwActivate` keeps. -/
theorem State.fwActivate_keeps {s0 : State} (s : State) (b : List Sys2Proof.Byte) (h : Keeps s0 s) : Keeps s0 (State.fwActivate s b).1:= by
  unfold State.fwActivate
  repeat' first
    | with_reducible assumption
    | with_reducible apply State.writeJ_keeps
    | with_reducible apply State.eraseJ_keeps
    | extract_lets +onlyGivenNames t
    | split

/-- `execFwActivate` keeps. -/
theorem execFwActivate_keeps {s0 : State} (m : Fin 16) (s : State) (h : Keeps s0 s) : KeepsRes s0 (execFwActivate m s) := by
  unfold execFwActivate
  repeat' first
    | intro _
    | with_reducible assumption
    | with_reducible apply State.atPoint_keeps
    | with_reducible apply State.fwActivate_keeps
    | with_reducible refine keepsRes_next ?_

/-- `execReboot` keeps. -/
theorem execReboot_keeps {s0 : State} (m : Fin 16) (s : State) (h : Keeps s0 s) : KeepsRes s0 (execReboot m s) := by
  unfold execReboot
  repeat' first
    | intro _
    | with_reducible assumption
    | with_reducible apply State.atPoint_keeps
    | extract_lets +onlyGivenNames t
    | with_reducible refine keepsRes_next ?_
    | split

/-- `execDebugChallenge` keeps. -/
theorem execDebugChallenge_keeps {s0 : State} (m : Fin 16) (s : State) (h : Keeps s0 s) : KeepsRes s0 (execDebugChallenge m s) := by
  unfold execDebugChallenge
  repeat' first
    | intro _
    | with_reducible assumption
    | with_reducible apply State.atPoint_keeps
    | with_reducible apply State.challenge_keeps
    | extract_lets +onlyGivenNames t
    | with_reducible refine keepsRes_next ?_
    | dsimp -zeta only
    | split
    | with_reducible refine of_some_pair (by assumption) ?_

/-- `execDebugResponse` keeps. -/
theorem execDebugResponse_keeps {s0 : State} (m : Fin 16) (s : State) (h : Keeps s0 s) : KeepsRes s0 (execDebugResponse m s) := by
  unfold execDebugResponse
  repeat' first
    | intro _
    | with_reducible assumption
    | with_reducible apply State.atPoint_keeps
    | with_reducible apply State.answerChallenge_keeps
    | with_reducible refine keepsRes_next ?_

/-- `execFabricConfig` keeps. -/
theorem execFabricConfig_keeps {s0 : State} (m : Fin 16) (s : State) (h : Keeps s0 s) : KeepsRes s0 (execFabricConfig m s) := by
  unfold execFabricConfig
  repeat' first
    | intro _
    | with_reducible assumption
    | with_reducible apply State.atPoint_keeps
    | with_reducible apply State.startTick_keeps
    | with_reducible apply State.setFabTune_keeps
    | with_reducible apply State.setFabCfg_keeps
    | extract_lets +onlyGivenNames t
    | with_reducible refine keepsRes_next ?_
    | split

/-- `execFabricRead` keeps. -/
theorem execFabricRead_keeps {s0 : State} (m : Fin 16) (s : State) (h : Keeps s0 s) : KeepsRes s0 (execFabricRead m s) := by
  unfold execFabricRead
  repeat' first
    | with_reducible assumption
    | with_reducible apply State.readAt_keeps
    | with_reducible refine keepsRes_next ?_

/-- `State.laneSet` keeps. -/
theorem State.laneSet_keeps {s0 : State} (s : State) (b : List Sys2Proof.Byte) (h : Keeps s0 s) : Keeps s0 (State.laneSet s b).1:= by
  unfold State.laneSet
  repeat' first
    | with_reducible assumption
    | with_reducible apply State.leaveUp_keeps
    | with_reducible apply State.setLane_keeps
    | (extract_lets +onlyGivenNames t; have f : State → _ := t; clear f; subst t)
    | extract_lets +onlyGivenNames t
    | dsimp -zeta only
    | split

/-- `execLaneSetOut` keeps. -/
theorem execLaneSetOut_keeps {s0 : State} (m : Fin 16) (s : State) (h : Keeps s0 s) : KeepsRes s0 (execLaneSetOut m s) := by
  unfold execLaneSetOut
  repeat' first
    | intro _
    | with_reducible assumption
    | with_reducible apply State.atPointWhen_keeps
    | with_reducible apply State.laneSet_keeps
    | with_reducible refine keepsRes_next ?_

/-- `execLaneSetIn` keeps. -/
theorem execLaneSetIn_keeps {s0 : State} (m : Fin 16) (s : State) (h : Keeps s0 s) : KeepsRes s0 (execLaneSetIn m s) := by
  unfold execLaneSetIn
  repeat' first
    | intro _
    | with_reducible assumption
    | with_reducible apply State.atPointWhen_keeps
    | with_reducible apply State.laneSet_keeps
    | with_reducible refine keepsRes_next ?_

/-- `State.qpSet` keeps. -/
theorem State.qpSet_keeps {s0 : State} (s : State) (b : List Sys2Proof.Byte) (attrs : Bool) (psns : Bool) (suits : Option Qp → Bool) (f : State → Nat → State) (hf : ∀ y0 y1, Keeps s0 y0 → Keeps s0 (f y0 y1)) (h : Keeps s0 s) : Keeps s0 (State.qpSet s b attrs psns suits f).1:= by
  unfold State.qpSet
  repeat' first
    | with_reducible assumption
    | with_reducible apply hf
    | extract_lets +onlyGivenNames t
    | split

/-- `State.putQp` keeps. -/
theorem State.putQp_keeps {s0 : State} (s : State) (n : Nat) (q : Option Qp) (h : Keeps s0 s) : Keeps s0 (State.putQp s n q) := by
  unfold State.putQp
  repeat' first
    | extract_lets +onlyGivenNames t
    | ((with_reducible refine keeps_of_mk ?_); (with_reducible refine keeps_of ?_); with_reducible assumption)

/-- `execQpCreate` keeps. -/
theorem execQpCreate_keeps {s0 : State} (m : Fin 16) (s : State) (h : Keeps s0 s) : KeepsRes s0 (execQpCreate m s) := by
  unfold execQpCreate
  repeat' first
    | intro _
    | with_reducible assumption
    | with_reducible apply State.atPointWhen_keeps
    | with_reducible apply State.qpSet_keeps
    | with_reducible apply State.putQp_keeps
    | with_reducible refine keepsRes_next ?_

/-- `execQpModify` keeps. -/
theorem execQpModify_keeps {s0 : State} (m : Fin 16) (s : State) (h : Keeps s0 s) : KeepsRes s0 (execQpModify m s) := by
  unfold execQpModify
  repeat' first
    | intro _
    | with_reducible assumption
    | with_reducible apply State.atPointWhen_keeps
    | with_reducible apply State.qpSet_keeps
    | with_reducible apply State.putQp_keeps
    | with_reducible refine keepsRes_next ?_

/-- `execQpDestroy` keeps. -/
theorem execQpDestroy_keeps {s0 : State} (m : Fin 16) (s : State) (h : Keeps s0 s) : KeepsRes s0 (execQpDestroy m s) := by
  unfold execQpDestroy
  repeat' first
    | intro _
    | with_reducible assumption
    | with_reducible apply State.atPointWhen_keeps
    | with_reducible apply State.qpSet_keeps
    | with_reducible apply State.putQp_keeps
    | with_reducible refine keepsRes_next ?_

/-- `execQpReset` keeps. -/
theorem execQpReset_keeps {s0 : State} (m : Fin 16) (s : State) (h : Keeps s0 s) : KeepsRes s0 (execQpReset m s) := by
  unfold execQpReset
  repeat' first
    | intro _
    | with_reducible assumption
    | with_reducible apply State.atPointWhen_keeps
    | with_reducible apply State.qpSet_keeps
    | with_reducible apply State.putQp_keeps
    | with_reducible refine keepsRes_next ?_

/-- `execQpRead` keeps. -/
theorem execQpRead_keeps {s0 : State} (m : Fin 16) (s : State) (h : Keeps s0 s) : KeepsRes s0 (execQpRead m s) := by
  unfold execQpRead
  repeat' first
    | with_reducible assumption
    | with_reducible apply State.readAt_keeps
    | with_reducible refine keepsRes_next ?_

/-- `stateOf` keeps. -/
theorem stateOf_keeps {s0 : State} (r : Res) (s : State) (hr : KeepsRes s0 r) (h : Keeps s0 s) : Keeps s0 (stateOf r s) := by
  unfold stateOf
  split
  · exact hr.imp _ rfl
  · exact h

/-- `State.clearRc` keeps. -/
theorem State.clearRc_keeps {s0 : State} (s : State) (r : Reg) (mask : Nat) (h : Keeps s0 s) : Keeps s0 (State.clearRc s r mask) := by
  unfold State.clearRc
  repeat' first
    | with_reducible assumption
    | with_reducible apply State.modCl_keeps
    | with_reducible apply State.setStack_keeps
    | with_reducible apply State.setSlice_keeps
    | with_reducible apply State.setLane_keeps
    | with_reducible apply State.setDom_keeps
    | extract_lets +onlyGivenNames t
    | ((with_reducible refine keeps_of_mk ?_); (with_reducible refine keeps_of ?_); with_reducible assumption)
    | split

/-- `State.readReg` keeps. -/
theorem State.readReg_keeps {s0 : State} (s : State) (who : Option Nat) (r : Reg) (mask : Nat) (h : Keeps s0 s) : Keeps s0 (State.readReg s who r mask).1:= by
  unfold State.readReg
  repeat' first
    | with_reducible assumption
    | with_reducible apply State.claim_keeps
    | with_reducible apply State.clearRc_keeps
    | dsimp -zeta only
    | split

/-- `State.clearW1c` keeps. -/
theorem State.clearW1c_keeps {s0 : State} (s : State) (r : Reg) (w : Nat) (h : Keeps s0 s) : Keeps s0 (State.clearW1c s r w) := by
  unfold State.clearW1c
  repeat' first
    | with_reducible assumption
    | with_reducible apply State.modCl_keeps
    | with_reducible apply State.setStack_keeps
    | with_reducible apply State.setLane_keeps
    | extract_lets +onlyGivenNames t
    | ((with_reducible refine keeps_of_mk ?_); (with_reducible refine keeps_of ?_); with_reducible assumption)
    | split

/-- `State.writeCsr` keeps. -/
theorem State.writeCsr_keeps {s0 : State} (s : State) (r : Reg) (w : Nat) (h : Keeps s0 s) : Keeps s0 (State.writeCsr s r w) := by
  unfold State.writeCsr
  repeat' first
    | with_reducible assumption
    | with_reducible apply State.modCl_keeps
    | with_reducible apply State.tryReload_keeps
    | with_reducible apply State.clearW1c_keeps
    | (extract_lets +onlyGivenNames t; (with_reducible refine keeps_cut (s0 := s0) (t := t) ?_ ?_); rotate_left; intro ht; (try clear_value t); rotate_left; subst t)
    | extract_lets +onlyGivenNames t
    | split

/-- `State.progWrite` keeps. -/
theorem State.progWrite_keeps {s0 : State} (s : State) (c : Nat) (r : Reg) (mask : Nat) (w : Nat) (h : Keeps s0 s) : Keeps s0 (State.progWrite s c r mask w) := by
  unfold State.progWrite
  repeat' first
    | with_reducible assumption
    | with_reducible apply stateOf_keeps
    | with_reducible apply State.writeCsr_keeps
    | with_reducible apply State.modCl_keeps
    | with_reducible apply State.arrive_keeps
    | with_reducible apply State.setSlotHp_keeps
    | with_reducible apply execHpCtl_keeps
    | with_reducible apply execPhaseArrive_keeps
    | with_reducible apply execPubDoorbell_keeps
    | with_reducible apply execIngestReq_keeps
    | with_reducible apply State.doorbell_keeps
    | (extract_lets +onlyGivenNames t; have f : _ → State := t; clear f; subst t)
    | extract_lets +onlyGivenNames t
    | dsimp -zeta only
    | split

/-- `State.configure` keeps. -/
theorem State.configure_keeps {s0 : State} (s : State) (r : Reg) (a : Nat) (v : Nat) (h : Keeps s0 s) : Keeps s0 (State.configure s r a v) := by
  unfold State.configure
  repeat' first
    | with_reducible assumption
    | with_reducible apply State.errReserved_keeps
    | with_reducible apply State.putReg_keeps
    | (extract_lets +onlyGivenNames t; (with_reducible refine keeps_cut (s0 := s0) (t := t) ?_ ?_); rotate_left; intro ht; (try clear_value t); rotate_left; subst t)
    | extract_lets +onlyGivenNames t
    | split

/-- `State.hubWrite` keeps. -/
theorem State.hubWrite_keeps {s0 : State} (s : State) (r : Reg) (a : Nat) (mask : Nat) (w : Nat) (h : Keeps s0 s) : Keeps s0 (State.hubWrite s r a mask w) := by
  unfold State.hubWrite
  repeat' first
    | with_reducible assumption
    | with_reducible apply State.modCl_keeps
    | with_reducible apply State.writeCsr_keeps
    | with_reducible apply State.arrive_keeps
    | with_reducible apply State.configure_keeps
    | with_reducible apply State.clearW1c_keeps
    | extract_lets +onlyGivenNames t
    | split

/-- `execRcRead` keeps. -/
theorem execRcRead_keeps {s0 : State} (who : Option (BitVec 8)) (addr : BitVec 48) (s : State) (h : Keeps s0 s) : KeepsRes s0 (execRcRead who addr s) := by
  unfold execRcRead
  repeat' first
    | with_reducible assumption
    | with_reducible apply State.readReg_keeps
    | extract_lets +onlyGivenNames t
    | with_reducible refine keepsRes_next ?_
    | dsimp -zeta only
    | split
    | (simp only [keeps_mk]; with_reducible refine keeps_of ?_)

/-- `execRegisterWrite` keeps. -/
theorem execRegisterWrite_keeps {s0 : State} (who : Option (BitVec 8)) (addr : BitVec 48) (size : Nat) (v : Sys2Proof.W64) (s : State) (h : Keeps s0 s) : KeepsRes s0 (execRegisterWrite who addr size v s) := by
  unfold execRegisterWrite
  repeat' first
    | with_reducible assumption
    | with_reducible apply State.hubWrite_keeps
    | with_reducible apply State.progWrite_keeps
    | extract_lets +onlyGivenNames t
    | with_reducible refine keepsRes_next ?_
    | split
    | (clear_value t; split)
    | (subst t)

/-- `State.badAddress` keeps. -/
theorem State.badAddress_keeps {s0 : State} (s : State) (c : Nat) (a : Nat) (h : Keeps s0 s) : Keeps s0 (State.badAddress s c a) := by
  unfold State.badAddress
  repeat' first
    | with_reducible assumption
    | with_reducible apply State.ifault_keeps

/-- `execLd` keeps. -/
theorem execLd_keeps {s0 : State} (c : BitVec 8) (bits : BitVec 120) (ecc : Ecc) (s : State) (h : Keeps s0 s) : KeepsRes s0 (execLd c bits ecc s) := by
  unfold execLd
  repeat' first
    | intro _
    | with_reducible assumption
    | with_reducible apply State.issue_keeps
    | with_reducible apply State.readReg_keeps
    | with_reducible apply State.loadDone_keeps
    | with_reducible apply State.illegal_keeps
    | with_reducible apply State.badAddress_keeps
    | with_reducible apply State.scalarHbm_keeps
    | with_reducible apply State.ecc_keeps
    | with_reducible apply State.loadPoison_keeps
    | (extract_lets +onlyGivenNames t; (with_reducible refine keeps_cut (s0 := s0) (t := t) ?_ ?_); rotate_left; intro ht; (try clear_value t); rotate_left; subst t)
    | (extract_lets +onlyGivenNames t; have f : _ → State := t; clear f; subst t)
    | extract_lets +onlyGivenNames t
    | dsimp -zeta only
    | split

/-- `execSt` keeps. -/
theorem execSt_keeps {s0 : State} (c : BitVec 8) (bits : BitVec 120) (s : State) (h : Keeps s0 s) : KeepsRes s0 (execSt c bits s) := by
  unfold execSt
  repeat' first
    | intro _
    | with_reducible assumption
    | with_reducible apply State.issue_keeps
    | with_reducible apply State.modCl_keeps
    | with_reducible apply State.progWrite_keeps
    | with_reducible apply State.illegal_keeps
    | with_reducible apply State.badAddress_keeps
    | with_reducible apply State.scalarHbm_keeps
    | with_reducible apply State.store_keeps
    | with_reducible apply State.writeReq_keeps
    | (extract_lets +onlyGivenNames t; have f : State → _ := t; clear f; subst t)
    | (extract_lets +onlyGivenNames t; have f : _ → State := t; clear f; subst t)
    | extract_lets +onlyGivenNames t
    | dsimp -zeta only
    | split


/-- `State.countTick` keeps. -/
theorem State.countTick_keeps {s0 : State} (s : State) (h : Keeps s0 s) : Keeps s0 (State.countTick s) := by
  unfold State.countTick
  repeat' first
    | extract_lets +onlyGivenNames t
    | ((with_reducible refine keeps_of_mk ?_); (with_reducible refine keeps_of ?_); with_reducible assumption)
    | split

/-- `State.burstTick` keeps. -/
theorem State.burstTick_keeps {s0 : State} (s : State) (h : Keeps s0 s) : Keeps s0 (State.burstTick s) := by
  unfold State.burstTick
  repeat' first
    | with_reducible assumption
    | with_reducible apply State.sendSync_keeps
    | split

/-- `State.movePceil` keeps. -/
theorem State.movePceil_keeps {s0 : State} (s : State) (h : Keeps s0 s) : Keeps s0 (State.movePceil s) := by
  unfold State.movePceil
  repeat' first
    | with_reducible assumption
    | extract_lets +onlyGivenNames t
    | ((with_reducible refine keeps_of_mk ?_); (with_reducible refine keeps_of ?_); with_reducible assumption)
    | split

/-- `State.sendFrame` keeps. -/
theorem State.sendFrame_keeps {s0 : State} (s : State) (l : Nat) (h : Keeps s0 s) : Keeps s0 (State.sendFrame s l) := by
  unfold State.sendFrame
  repeat' first
    | with_reducible assumption
    | with_reducible apply State.setLane_keeps
    | (extract_lets +onlyGivenNames t; (with_reducible refine keeps_cut (s0 := s0) (t := t) ?_ ?_); rotate_left; intro ht; (try clear_value t); rotate_left; subst t)
    | extract_lets +onlyGivenNames t
    | ((with_reducible refine keeps_of_mk ?_); (with_reducible refine keeps_of ?_); with_reducible assumption)
    | split

/-- `State.transmit` keeps. -/
theorem State.transmit_keeps {s0 : State} (s : State) (h : Keeps s0 s) : Keeps s0 (State.transmit s) := by
  unfold State.transmit
  repeat' first
    | intro _
    | with_reducible assumption
    | with_reducible apply State.sendFrame_keeps
    | with_reducible refine keeps_foldl ?_ _ ?_
    | split

/-- `State.streamTick` keeps. -/
theorem State.streamTick_keeps {s0 : State} (s : State) (h : Keeps s0 s) : Keeps s0 (State.streamTick s) := by
  unfold State.streamTick
  repeat' first
    | with_reducible apply State.sendNext_keeps
    | extract_lets +onlyGivenNames t
    | ((with_reducible refine keeps_of_mk ?_); (with_reducible refine keeps_of ?_); with_reducible assumption)
    | split

/-- `State.countPhase` keeps. -/
theorem State.countPhase_keeps {s0 : State} (s : State) (h : Keeps s0 s) : Keeps s0 (State.countPhase s) := by
  unfold State.countPhase
  repeat' first
    | with_reducible assumption
    | extract_lets +onlyGivenNames t
    | ((with_reducible refine keeps_of_mk ?_); (with_reducible refine keeps_of ?_); with_reducible assumption)
    | split

/-- `State.sampleVin` keeps. -/
theorem State.sampleVin_keeps {s0 : State} (s : State) (h : Keeps s0 s) : Keeps s0 (State.sampleVin s) := by
  unfold State.sampleVin
  repeat' first
    | with_reducible assumption
    | extract_lets +onlyGivenNames t
    | ((with_reducible refine keeps_of_mk ?_); (with_reducible refine keeps_of ?_); with_reducible assumption)
    | split

/-- `State.countService` keeps. -/
theorem State.countService_keeps {s0 : State} (s : State) (h : Keeps s0 s) : Keeps s0 (State.countService s) := by
  unfold State.countService
  repeat' first
    | with_reducible assumption
    | (extract_lets +onlyGivenNames t; (with_reducible refine keeps_cut (s0 := s0) (t := t) ?_ ?_); rotate_left; intro ht; (try clear_value t); rotate_left; subst t)
    | extract_lets +onlyGivenNames t
    | ((with_reducible refine keeps_of_mk ?_); (with_reducible refine keeps_of ?_); with_reducible assumption)
    | split

/-- `State.drainUart` keeps. -/
theorem State.drainUart_keeps {s0 : State} (s : State) (h : Keeps s0 s) : Keeps s0 (State.drainUart s) := by
  unfold State.drainUart
  repeat' first
    | with_reducible assumption
    | extract_lets +onlyGivenNames t
    | ((with_reducible refine keeps_of_mk ?_); (with_reducible refine keeps_of ?_); with_reducible assumption)
    | split

/-- `State.idle` keeps. -/
theorem State.idle_keeps {s0 : State} (s : State) (h : Keeps s0 s) : Keeps s0 (State.idle s) := by
  unfold State.idle
  repeat' first
    | with_reducible assumption
    | with_reducible apply State.drainUart_keeps
    | with_reducible apply State.countService_keeps
    | with_reducible apply State.sampleVin_keeps
    | with_reducible apply State.countPhase_keeps
    | with_reducible apply State.streamTick_keeps
    | with_reducible apply State.transmit_keeps
    | with_reducible apply State.movePceil_keeps
    | with_reducible apply State.burstTick_keeps
    | with_reducible apply State.countTick_keeps
    | (extract_lets +onlyGivenNames t; (with_reducible refine keeps_cut (s0 := s0) (t := t) ?_ ?_); rotate_left; intro ht; (try clear_value t); rotate_left; subst t)
    | ((with_reducible refine keeps_of_mk ?_); (with_reducible refine keeps_of ?_); with_reducible assumption)
    | split


end Sys2Proof.Machine
end

