-- ==== Sys2Proof/Laws/State.lean ====
section
/-!
SUPPORT. What each setter of the state leaves as it was, one lemma per setter and field, and what a getter reads after its setter.
-/
namespace Sys2Proof.Machine

variable (s : State)

@[simp] theorem State.setCl_pending (c : Nat) (k : Cluster) : (s.setCl c k).pending = s.pending := rfl
@[simp] theorem State.setCl_now (c : Nat) (k : Cluster) : (s.setCl c k).now = s.now := rfl
@[simp] theorem State.setCl_tick (c : Nat) (k : Cluster) : (s.setCl c k).tick = s.tick := rfl
@[simp] theorem State.setCl_freeCtr (c : Nat) (k : Cluster) : (s.setCl c k).freeCtr = s.freeCtr := rfl
@[simp] theorem State.setCl_genBase (c : Nat) (k : Cluster) : (s.setCl c k).genBase = s.genBase := rfl
@[simp] theorem State.setCl_readout (c : Nat) (k : Cluster) : (s.setCl c k).readout = s.readout := rfl
@[simp] theorem State.setCl_mem (c : Nat) (k : Cluster) : (s.setCl c k).mem = s.mem := rfl
@[simp] theorem State.setCl_poison (c : Nat) (k : Cluster) : (s.setCl c k).poison = s.poison := rfl
@[simp] theorem State.setCl_memsys (c : Nat) (k : Cluster) : (s.setCl c k).memsys = s.memsys := rfl
@[simp] theorem State.setCl_fab (c : Nat) (k : Cluster) : (s.setCl c k).fab = s.fab := rfl
@[simp] theorem State.setCl_hud (c : Nat) (k : Cluster) : (s.setCl c k).hud = s.hud := rfl
@[simp] theorem State.setCl_ing (c : Nat) (k : Cluster) : (s.setCl c k).ing = s.ing := rfl
@[simp] theorem State.setCl_mgmt (c : Nat) (k : Cluster) : (s.setCl c k).mgmt = s.mgmt := rfl
@[simp] theorem State.setCl_smb (c : Nat) (k : Cluster) : (s.setCl c k).smb = s.smb := rfl
@[simp] theorem State.setCl_pmb (c : Nat) (k : Cluster) : (s.setCl c k).pmb = s.pmb := rfl
@[simp] theorem State.setCl_dbg (c : Nat) (k : Cluster) : (s.setCl c k).dbg = s.dbg := rfl
@[simp] theorem State.setCl_uart (c : Nat) (k : Cluster) : (s.setCl c k).uart = s.uart := rfl
@[simp] theorem State.setCl_job (c : Nat) (k : Cluster) : (s.setCl c k).job = s.job := rfl
@[simp] theorem State.setCl_step (c : Nat) (k : Cluster) : (s.setCl c k).step = s.step := rfl
@[simp] theorem State.setCl_watch (c : Nat) (k : Cluster) : (s.setCl c k).watch = s.watch := rfl
@[simp] theorem State.setCl_watchKept (c : Nat) (k : Cluster) : (s.setCl c k).watchKept = s.watchKept := rfl
@[simp] theorem State.setCl_ss (c : Nat) (k : Cluster) : (s.setCl c k).ss = s.ss := rfl
@[simp] theorem State.setCl_units (c : Nat) (k : Cluster) : (s.setCl c k).units = s.units := rfl
@[simp] theorem State.setCl_pwr (c : Nat) (k : Cluster) : (s.setCl c k).pwr = s.pwr := rfl
@[simp] theorem State.setCl_opp (c : Nat) (k : Cluster) : (s.setCl c k).opp = s.opp := rfl
@[simp] theorem State.setCl_clk (c : Nat) (k : Cluster) : (s.setCl c k).clk = s.clk := rfl
@[simp] theorem State.setCl_therm (c : Nat) (k : Cluster) : (s.setCl c k).therm = s.therm := rfl
@[simp] theorem State.setCl_mb (c : Nat) (k : Cluster) : (s.setCl c k).mb = s.mb := rfl
@[simp] theorem State.setCl_log (c : Nat) (k : Cluster) : (s.setCl c k).log = s.log := rfl
@[simp] theorem State.setCl_boot (c : Nat) (k : Cluster) : (s.setCl c k).boot = s.boot := rfl
@[simp] theorem State.setCl_ras (c : Nat) (k : Cluster) : (s.setCl c k).ras = s.ras := rfl
@[simp] theorem State.setCl_flash (c : Nat) (k : Cluster) : (s.setCl c k).flash = s.flash := rfl
@[simp] theorem State.setCl_totals (c : Nat) (k : Cluster) : (s.setCl c k).totals = s.totals := rfl

@[simp] theorem State.modCl_pending (c : Nat) (f : Cluster → Cluster) : (s.modCl c f).pending = s.pending := rfl
@[simp] theorem State.modCl_now (c : Nat) (f : Cluster → Cluster) : (s.modCl c f).now = s.now := rfl
@[simp] theorem State.modCl_tick (c : Nat) (f : Cluster → Cluster) : (s.modCl c f).tick = s.tick := rfl
@[simp] theorem State.modCl_freeCtr (c : Nat) (f : Cluster → Cluster) : (s.modCl c f).freeCtr = s.freeCtr := rfl
@[simp] theorem State.modCl_genBase (c : Nat) (f : Cluster → Cluster) : (s.modCl c f).genBase = s.genBase := rfl
@[simp] theorem State.modCl_readout (c : Nat) (f : Cluster → Cluster) : (s.modCl c f).readout = s.readout := rfl
@[simp] theorem State.modCl_mem (c : Nat) (f : Cluster → Cluster) : (s.modCl c f).mem = s.mem := rfl
@[simp] theorem State.modCl_poison (c : Nat) (f : Cluster → Cluster) : (s.modCl c f).poison = s.poison := rfl
@[simp] theorem State.modCl_memsys (c : Nat) (f : Cluster → Cluster) : (s.modCl c f).memsys = s.memsys := rfl
@[simp] theorem State.modCl_fab (c : Nat) (f : Cluster → Cluster) : (s.modCl c f).fab = s.fab := rfl
@[simp] theorem State.modCl_hud (c : Nat) (f : Cluster → Cluster) : (s.modCl c f).hud = s.hud := rfl
@[simp] theorem State.modCl_ing (c : Nat) (f : Cluster → Cluster) : (s.modCl c f).ing = s.ing := rfl
@[simp] theorem State.modCl_mgmt (c : Nat) (f : Cluster → Cluster) : (s.modCl c f).mgmt = s.mgmt := rfl
@[simp] theorem State.modCl_smb (c : Nat) (f : Cluster → Cluster) : (s.modCl c f).smb = s.smb := rfl
@[simp] theorem State.modCl_pmb (c : Nat) (f : Cluster → Cluster) : (s.modCl c f).pmb = s.pmb := rfl
@[simp] theorem State.modCl_dbg (c : Nat) (f : Cluster → Cluster) : (s.modCl c f).dbg = s.dbg := rfl
@[simp] theorem State.modCl_uart (c : Nat) (f : Cluster → Cluster) : (s.modCl c f).uart = s.uart := rfl
@[simp] theorem State.modCl_job (c : Nat) (f : Cluster → Cluster) : (s.modCl c f).job = s.job := rfl
@[simp] theorem State.modCl_step (c : Nat) (f : Cluster → Cluster) : (s.modCl c f).step = s.step := rfl
@[simp] theorem State.modCl_watch (c : Nat) (f : Cluster → Cluster) : (s.modCl c f).watch = s.watch := rfl
@[simp] theorem State.modCl_watchKept (c : Nat) (f : Cluster → Cluster) : (s.modCl c f).watchKept = s.watchKept := rfl
@[simp] theorem State.modCl_ss (c : Nat) (f : Cluster → Cluster) : (s.modCl c f).ss = s.ss := rfl
@[simp] theorem State.modCl_units (c : Nat) (f : Cluster → Cluster) : (s.modCl c f).units = s.units := rfl
@[simp] theorem State.modCl_pwr (c : Nat) (f : Cluster → Cluster) : (s.modCl c f).pwr = s.pwr := rfl
@[simp] theorem State.modCl_opp (c : Nat) (f : Cluster → Cluster) : (s.modCl c f).opp = s.opp := rfl
@[simp] theorem State.modCl_clk (c : Nat) (f : Cluster → Cluster) : (s.modCl c f).clk = s.clk := rfl
@[simp] theorem State.modCl_therm (c : Nat) (f : Cluster → Cluster) : (s.modCl c f).therm = s.therm := rfl
@[simp] theorem State.modCl_mb (c : Nat) (f : Cluster → Cluster) : (s.modCl c f).mb = s.mb := rfl
@[simp] theorem State.modCl_log (c : Nat) (f : Cluster → Cluster) : (s.modCl c f).log = s.log := rfl
@[simp] theorem State.modCl_boot (c : Nat) (f : Cluster → Cluster) : (s.modCl c f).boot = s.boot := rfl
@[simp] theorem State.modCl_ras (c : Nat) (f : Cluster → Cluster) : (s.modCl c f).ras = s.ras := rfl
@[simp] theorem State.modCl_flash (c : Nat) (f : Cluster → Cluster) : (s.modCl c f).flash = s.flash := rfl
@[simp] theorem State.modCl_totals (c : Nat) (f : Cluster → Cluster) : (s.modCl c f).totals = s.totals := rfl

@[simp] theorem State.setUnit_pending (u : Nat) (e : UnitEnt) : (s.setUnit u e).pending = s.pending := rfl
@[simp] theorem State.setUnit_now (u : Nat) (e : UnitEnt) : (s.setUnit u e).now = s.now := rfl
@[simp] theorem State.setUnit_tick (u : Nat) (e : UnitEnt) : (s.setUnit u e).tick = s.tick := rfl
@[simp] theorem State.setUnit_freeCtr (u : Nat) (e : UnitEnt) : (s.setUnit u e).freeCtr = s.freeCtr := rfl
@[simp] theorem State.setUnit_genBase (u : Nat) (e : UnitEnt) : (s.setUnit u e).genBase = s.genBase := rfl
@[simp] theorem State.setUnit_readout (u : Nat) (e : UnitEnt) : (s.setUnit u e).readout = s.readout := rfl
@[simp] theorem State.setUnit_mem (u : Nat) (e : UnitEnt) : (s.setUnit u e).mem = s.mem := rfl
@[simp] theorem State.setUnit_poison (u : Nat) (e : UnitEnt) : (s.setUnit u e).poison = s.poison := rfl
@[simp] theorem State.setUnit_clusters (u : Nat) (e : UnitEnt) : (s.setUnit u e).clusters = s.clusters := rfl
@[simp] theorem State.setUnit_memsys (u : Nat) (e : UnitEnt) : (s.setUnit u e).memsys = s.memsys := rfl
@[simp] theorem State.setUnit_fab (u : Nat) (e : UnitEnt) : (s.setUnit u e).fab = s.fab := rfl
@[simp] theorem State.setUnit_hud (u : Nat) (e : UnitEnt) : (s.setUnit u e).hud = s.hud := rfl
@[simp] theorem State.setUnit_ing (u : Nat) (e : UnitEnt) : (s.setUnit u e).ing = s.ing := rfl
@[simp] theorem State.setUnit_mgmt (u : Nat) (e : UnitEnt) : (s.setUnit u e).mgmt = s.mgmt := rfl
@[simp] theorem State.setUnit_smb (u : Nat) (e : UnitEnt) : (s.setUnit u e).smb = s.smb := rfl
@[simp] theorem State.setUnit_pmb (u : Nat) (e : UnitEnt) : (s.setUnit u e).pmb = s.pmb := rfl
@[simp] theorem State.setUnit_dbg (u : Nat) (e : UnitEnt) : (s.setUnit u e).dbg = s.dbg := rfl
@[simp] theorem State.setUnit_uart (u : Nat) (e : UnitEnt) : (s.setUnit u e).uart = s.uart := rfl
@[simp] theorem State.setUnit_job (u : Nat) (e : UnitEnt) : (s.setUnit u e).job = s.job := rfl
@[simp] theorem State.setUnit_step (u : Nat) (e : UnitEnt) : (s.setUnit u e).step = s.step := rfl
@[simp] theorem State.setUnit_watch (u : Nat) (e : UnitEnt) : (s.setUnit u e).watch = s.watch := rfl
@[simp] theorem State.setUnit_watchKept (u : Nat) (e : UnitEnt) : (s.setUnit u e).watchKept = s.watchKept := rfl
@[simp] theorem State.setUnit_ss (u : Nat) (e : UnitEnt) : (s.setUnit u e).ss = s.ss := rfl
@[simp] theorem State.setUnit_pwr (u : Nat) (e : UnitEnt) : (s.setUnit u e).pwr = s.pwr := rfl
@[simp] theorem State.setUnit_opp (u : Nat) (e : UnitEnt) : (s.setUnit u e).opp = s.opp := rfl
@[simp] theorem State.setUnit_clk (u : Nat) (e : UnitEnt) : (s.setUnit u e).clk = s.clk := rfl
@[simp] theorem State.setUnit_therm (u : Nat) (e : UnitEnt) : (s.setUnit u e).therm = s.therm := rfl
@[simp] theorem State.setUnit_mb (u : Nat) (e : UnitEnt) : (s.setUnit u e).mb = s.mb := rfl
@[simp] theorem State.setUnit_log (u : Nat) (e : UnitEnt) : (s.setUnit u e).log = s.log := rfl
@[simp] theorem State.setUnit_boot (u : Nat) (e : UnitEnt) : (s.setUnit u e).boot = s.boot := rfl
@[simp] theorem State.setUnit_ras (u : Nat) (e : UnitEnt) : (s.setUnit u e).ras = s.ras := rfl
@[simp] theorem State.setUnit_flash (u : Nat) (e : UnitEnt) : (s.setUnit u e).flash = s.flash := rfl
@[simp] theorem State.setUnit_totals (u : Nat) (e : UnitEnt) : (s.setUnit u e).totals = s.totals := rfl

@[simp] theorem State.setSlice_pending (n : Nat) (x : Slice) : (s.setSlice n x).pending = s.pending := rfl
@[simp] theorem State.setSlice_now (n : Nat) (x : Slice) : (s.setSlice n x).now = s.now := rfl
@[simp] theorem State.setSlice_tick (n : Nat) (x : Slice) : (s.setSlice n x).tick = s.tick := rfl
@[simp] theorem State.setSlice_freeCtr (n : Nat) (x : Slice) : (s.setSlice n x).freeCtr = s.freeCtr := rfl
@[simp] theorem State.setSlice_genBase (n : Nat) (x : Slice) : (s.setSlice n x).genBase = s.genBase := rfl
@[simp] theorem State.setSlice_readout (n : Nat) (x : Slice) : (s.setSlice n x).readout = s.readout := rfl
@[simp] theorem State.setSlice_mem (n : Nat) (x : Slice) : (s.setSlice n x).mem = s.mem := rfl
@[simp] theorem State.setSlice_poison (n : Nat) (x : Slice) : (s.setSlice n x).poison = s.poison := rfl
@[simp] theorem State.setSlice_clusters (n : Nat) (x : Slice) : (s.setSlice n x).clusters = s.clusters := rfl
@[simp] theorem State.setSlice_fab (n : Nat) (x : Slice) : (s.setSlice n x).fab = s.fab := rfl
@[simp] theorem State.setSlice_hud (n : Nat) (x : Slice) : (s.setSlice n x).hud = s.hud := rfl
@[simp] theorem State.setSlice_ing (n : Nat) (x : Slice) : (s.setSlice n x).ing = s.ing := rfl
@[simp] theorem State.setSlice_mgmt (n : Nat) (x : Slice) : (s.setSlice n x).mgmt = s.mgmt := rfl
@[simp] theorem State.setSlice_smb (n : Nat) (x : Slice) : (s.setSlice n x).smb = s.smb := rfl
@[simp] theorem State.setSlice_pmb (n : Nat) (x : Slice) : (s.setSlice n x).pmb = s.pmb := rfl
@[simp] theorem State.setSlice_dbg (n : Nat) (x : Slice) : (s.setSlice n x).dbg = s.dbg := rfl
@[simp] theorem State.setSlice_uart (n : Nat) (x : Slice) : (s.setSlice n x).uart = s.uart := rfl
@[simp] theorem State.setSlice_job (n : Nat) (x : Slice) : (s.setSlice n x).job = s.job := rfl
@[simp] theorem State.setSlice_step (n : Nat) (x : Slice) : (s.setSlice n x).step = s.step := rfl
@[simp] theorem State.setSlice_watch (n : Nat) (x : Slice) : (s.setSlice n x).watch = s.watch := rfl
@[simp] theorem State.setSlice_watchKept (n : Nat) (x : Slice) : (s.setSlice n x).watchKept = s.watchKept := rfl
@[simp] theorem State.setSlice_ss (n : Nat) (x : Slice) : (s.setSlice n x).ss = s.ss := rfl
@[simp] theorem State.setSlice_units (n : Nat) (x : Slice) : (s.setSlice n x).units = s.units := rfl
@[simp] theorem State.setSlice_pwr (n : Nat) (x : Slice) : (s.setSlice n x).pwr = s.pwr := rfl
@[simp] theorem State.setSlice_opp (n : Nat) (x : Slice) : (s.setSlice n x).opp = s.opp := rfl
@[simp] theorem State.setSlice_clk (n : Nat) (x : Slice) : (s.setSlice n x).clk = s.clk := rfl
@[simp] theorem State.setSlice_therm (n : Nat) (x : Slice) : (s.setSlice n x).therm = s.therm := rfl
@[simp] theorem State.setSlice_mb (n : Nat) (x : Slice) : (s.setSlice n x).mb = s.mb := rfl
@[simp] theorem State.setSlice_log (n : Nat) (x : Slice) : (s.setSlice n x).log = s.log := rfl
@[simp] theorem State.setSlice_boot (n : Nat) (x : Slice) : (s.setSlice n x).boot = s.boot := rfl
@[simp] theorem State.setSlice_ras (n : Nat) (x : Slice) : (s.setSlice n x).ras = s.ras := rfl
@[simp] theorem State.setSlice_flash (n : Nat) (x : Slice) : (s.setSlice n x).flash = s.flash := rfl
@[simp] theorem State.setSlice_totals (n : Nat) (x : Slice) : (s.setSlice n x).totals = s.totals := rfl

@[simp] theorem State.setStack_pending (n : Nat) (x : Stack) : (s.setStack n x).pending = s.pending := rfl
@[simp] theorem State.setStack_now (n : Nat) (x : Stack) : (s.setStack n x).now = s.now := rfl
@[simp] theorem State.setStack_tick (n : Nat) (x : Stack) : (s.setStack n x).tick = s.tick := rfl
@[simp] theorem State.setStack_freeCtr (n : Nat) (x : Stack) : (s.setStack n x).freeCtr = s.freeCtr := rfl
@[simp] theorem State.setStack_genBase (n : Nat) (x : Stack) : (s.setStack n x).genBase = s.genBase := rfl
@[simp] theorem State.setStack_readout (n : Nat) (x : Stack) : (s.setStack n x).readout = s.readout := rfl
@[simp] theorem State.setStack_mem (n : Nat) (x : Stack) : (s.setStack n x).mem = s.mem := rfl
@[simp] theorem State.setStack_poison (n : Nat) (x : Stack) : (s.setStack n x).poison = s.poison := rfl
@[simp] theorem State.setStack_clusters (n : Nat) (x : Stack) : (s.setStack n x).clusters = s.clusters := rfl
@[simp] theorem State.setStack_fab (n : Nat) (x : Stack) : (s.setStack n x).fab = s.fab := rfl
@[simp] theorem State.setStack_hud (n : Nat) (x : Stack) : (s.setStack n x).hud = s.hud := rfl
@[simp] theorem State.setStack_ing (n : Nat) (x : Stack) : (s.setStack n x).ing = s.ing := rfl
@[simp] theorem State.setStack_mgmt (n : Nat) (x : Stack) : (s.setStack n x).mgmt = s.mgmt := rfl
@[simp] theorem State.setStack_smb (n : Nat) (x : Stack) : (s.setStack n x).smb = s.smb := rfl
@[simp] theorem State.setStack_pmb (n : Nat) (x : Stack) : (s.setStack n x).pmb = s.pmb := rfl
@[simp] theorem State.setStack_dbg (n : Nat) (x : Stack) : (s.setStack n x).dbg = s.dbg := rfl
@[simp] theorem State.setStack_uart (n : Nat) (x : Stack) : (s.setStack n x).uart = s.uart := rfl
@[simp] theorem State.setStack_job (n : Nat) (x : Stack) : (s.setStack n x).job = s.job := rfl
@[simp] theorem State.setStack_step (n : Nat) (x : Stack) : (s.setStack n x).step = s.step := rfl
@[simp] theorem State.setStack_watch (n : Nat) (x : Stack) : (s.setStack n x).watch = s.watch := rfl
@[simp] theorem State.setStack_watchKept (n : Nat) (x : Stack) : (s.setStack n x).watchKept = s.watchKept := rfl
@[simp] theorem State.setStack_ss (n : Nat) (x : Stack) : (s.setStack n x).ss = s.ss := rfl
@[simp] theorem State.setStack_units (n : Nat) (x : Stack) : (s.setStack n x).units = s.units := rfl
@[simp] theorem State.setStack_pwr (n : Nat) (x : Stack) : (s.setStack n x).pwr = s.pwr := rfl
@[simp] theorem State.setStack_opp (n : Nat) (x : Stack) : (s.setStack n x).opp = s.opp := rfl
@[simp] theorem State.setStack_clk (n : Nat) (x : Stack) : (s.setStack n x).clk = s.clk := rfl
@[simp] theorem State.setStack_therm (n : Nat) (x : Stack) : (s.setStack n x).therm = s.therm := rfl
@[simp] theorem State.setStack_mb (n : Nat) (x : Stack) : (s.setStack n x).mb = s.mb := rfl
@[simp] theorem State.setStack_log (n : Nat) (x : Stack) : (s.setStack n x).log = s.log := rfl
@[simp] theorem State.setStack_boot (n : Nat) (x : Stack) : (s.setStack n x).boot = s.boot := rfl
@[simp] theorem State.setStack_ras (n : Nat) (x : Stack) : (s.setStack n x).ras = s.ras := rfl
@[simp] theorem State.setStack_flash (n : Nat) (x : Stack) : (s.setStack n x).flash = s.flash := rfl
@[simp] theorem State.setStack_totals (n : Nat) (x : Stack) : (s.setStack n x).totals = s.totals := rfl

@[simp] theorem State.setBox_pending (m : Nat) (x : Mailbox) : (s.setBox m x).pending = s.pending := rfl
@[simp] theorem State.setBox_now (m : Nat) (x : Mailbox) : (s.setBox m x).now = s.now := rfl
@[simp] theorem State.setBox_tick (m : Nat) (x : Mailbox) : (s.setBox m x).tick = s.tick := rfl
@[simp] theorem State.setBox_freeCtr (m : Nat) (x : Mailbox) : (s.setBox m x).freeCtr = s.freeCtr := rfl
@[simp] theorem State.setBox_genBase (m : Nat) (x : Mailbox) : (s.setBox m x).genBase = s.genBase := rfl
@[simp] theorem State.setBox_readout (m : Nat) (x : Mailbox) : (s.setBox m x).readout = s.readout := rfl
@[simp] theorem State.setBox_mem (m : Nat) (x : Mailbox) : (s.setBox m x).mem = s.mem := rfl
@[simp] theorem State.setBox_poison (m : Nat) (x : Mailbox) : (s.setBox m x).poison = s.poison := rfl
@[simp] theorem State.setBox_clusters (m : Nat) (x : Mailbox) : (s.setBox m x).clusters = s.clusters := rfl
@[simp] theorem State.setBox_memsys (m : Nat) (x : Mailbox) : (s.setBox m x).memsys = s.memsys := rfl
@[simp] theorem State.setBox_fab (m : Nat) (x : Mailbox) : (s.setBox m x).fab = s.fab := rfl
@[simp] theorem State.setBox_hud (m : Nat) (x : Mailbox) : (s.setBox m x).hud = s.hud := rfl
@[simp] theorem State.setBox_ing (m : Nat) (x : Mailbox) : (s.setBox m x).ing = s.ing := rfl
@[simp] theorem State.setBox_mgmt (m : Nat) (x : Mailbox) : (s.setBox m x).mgmt = s.mgmt := rfl
@[simp] theorem State.setBox_smb (m : Nat) (x : Mailbox) : (s.setBox m x).smb = s.smb := rfl
@[simp] theorem State.setBox_pmb (m : Nat) (x : Mailbox) : (s.setBox m x).pmb = s.pmb := rfl
@[simp] theorem State.setBox_dbg (m : Nat) (x : Mailbox) : (s.setBox m x).dbg = s.dbg := rfl
@[simp] theorem State.setBox_uart (m : Nat) (x : Mailbox) : (s.setBox m x).uart = s.uart := rfl
@[simp] theorem State.setBox_job (m : Nat) (x : Mailbox) : (s.setBox m x).job = s.job := rfl
@[simp] theorem State.setBox_step (m : Nat) (x : Mailbox) : (s.setBox m x).step = s.step := rfl
@[simp] theorem State.setBox_watch (m : Nat) (x : Mailbox) : (s.setBox m x).watch = s.watch := rfl
@[simp] theorem State.setBox_watchKept (m : Nat) (x : Mailbox) : (s.setBox m x).watchKept = s.watchKept := rfl
@[simp] theorem State.setBox_ss (m : Nat) (x : Mailbox) : (s.setBox m x).ss = s.ss := rfl
@[simp] theorem State.setBox_units (m : Nat) (x : Mailbox) : (s.setBox m x).units = s.units := rfl
@[simp] theorem State.setBox_pwr (m : Nat) (x : Mailbox) : (s.setBox m x).pwr = s.pwr := rfl
@[simp] theorem State.setBox_opp (m : Nat) (x : Mailbox) : (s.setBox m x).opp = s.opp := rfl
@[simp] theorem State.setBox_clk (m : Nat) (x : Mailbox) : (s.setBox m x).clk = s.clk := rfl
@[simp] theorem State.setBox_therm (m : Nat) (x : Mailbox) : (s.setBox m x).therm = s.therm := rfl
@[simp] theorem State.setBox_log (m : Nat) (x : Mailbox) : (s.setBox m x).log = s.log := rfl
@[simp] theorem State.setBox_boot (m : Nat) (x : Mailbox) : (s.setBox m x).boot = s.boot := rfl
@[simp] theorem State.setBox_ras (m : Nat) (x : Mailbox) : (s.setBox m x).ras = s.ras := rfl
@[simp] theorem State.setBox_flash (m : Nat) (x : Mailbox) : (s.setBox m x).flash = s.flash := rfl
@[simp] theorem State.setBox_totals (m : Nat) (x : Mailbox) : (s.setBox m x).totals = s.totals := rfl

@[simp] theorem State.setLane_pending (l : Nat) (x : LaneSt) : (s.setLane l x).pending = s.pending := rfl
@[simp] theorem State.setLane_now (l : Nat) (x : LaneSt) : (s.setLane l x).now = s.now := rfl
@[simp] theorem State.setLane_tick (l : Nat) (x : LaneSt) : (s.setLane l x).tick = s.tick := rfl
@[simp] theorem State.setLane_freeCtr (l : Nat) (x : LaneSt) : (s.setLane l x).freeCtr = s.freeCtr := rfl
@[simp] theorem State.setLane_genBase (l : Nat) (x : LaneSt) : (s.setLane l x).genBase = s.genBase := rfl
@[simp] theorem State.setLane_readout (l : Nat) (x : LaneSt) : (s.setLane l x).readout = s.readout := rfl
@[simp] theorem State.setLane_mem (l : Nat) (x : LaneSt) : (s.setLane l x).mem = s.mem := rfl
@[simp] theorem State.setLane_poison (l : Nat) (x : LaneSt) : (s.setLane l x).poison = s.poison := rfl
@[simp] theorem State.setLane_clusters (l : Nat) (x : LaneSt) : (s.setLane l x).clusters = s.clusters := rfl
@[simp] theorem State.setLane_memsys (l : Nat) (x : LaneSt) : (s.setLane l x).memsys = s.memsys := rfl
@[simp] theorem State.setLane_hud (l : Nat) (x : LaneSt) : (s.setLane l x).hud = s.hud := rfl
@[simp] theorem State.setLane_ing (l : Nat) (x : LaneSt) : (s.setLane l x).ing = s.ing := rfl
@[simp] theorem State.setLane_mgmt (l : Nat) (x : LaneSt) : (s.setLane l x).mgmt = s.mgmt := rfl
@[simp] theorem State.setLane_smb (l : Nat) (x : LaneSt) : (s.setLane l x).smb = s.smb := rfl
@[simp] theorem State.setLane_pmb (l : Nat) (x : LaneSt) : (s.setLane l x).pmb = s.pmb := rfl
@[simp] theorem State.setLane_dbg (l : Nat) (x : LaneSt) : (s.setLane l x).dbg = s.dbg := rfl
@[simp] theorem State.setLane_uart (l : Nat) (x : LaneSt) : (s.setLane l x).uart = s.uart := rfl
@[simp] theorem State.setLane_job (l : Nat) (x : LaneSt) : (s.setLane l x).job = s.job := rfl
@[simp] theorem State.setLane_step (l : Nat) (x : LaneSt) : (s.setLane l x).step = s.step := rfl
@[simp] theorem State.setLane_watch (l : Nat) (x : LaneSt) : (s.setLane l x).watch = s.watch := rfl
@[simp] theorem State.setLane_watchKept (l : Nat) (x : LaneSt) : (s.setLane l x).watchKept = s.watchKept := rfl
@[simp] theorem State.setLane_ss (l : Nat) (x : LaneSt) : (s.setLane l x).ss = s.ss := rfl
@[simp] theorem State.setLane_units (l : Nat) (x : LaneSt) : (s.setLane l x).units = s.units := rfl
@[simp] theorem State.setLane_pwr (l : Nat) (x : LaneSt) : (s.setLane l x).pwr = s.pwr := rfl
@[simp] theorem State.setLane_opp (l : Nat) (x : LaneSt) : (s.setLane l x).opp = s.opp := rfl
@[simp] theorem State.setLane_clk (l : Nat) (x : LaneSt) : (s.setLane l x).clk = s.clk := rfl
@[simp] theorem State.setLane_therm (l : Nat) (x : LaneSt) : (s.setLane l x).therm = s.therm := rfl
@[simp] theorem State.setLane_mb (l : Nat) (x : LaneSt) : (s.setLane l x).mb = s.mb := rfl
@[simp] theorem State.setLane_log (l : Nat) (x : LaneSt) : (s.setLane l x).log = s.log := rfl
@[simp] theorem State.setLane_boot (l : Nat) (x : LaneSt) : (s.setLane l x).boot = s.boot := rfl
@[simp] theorem State.setLane_ras (l : Nat) (x : LaneSt) : (s.setLane l x).ras = s.ras := rfl
@[simp] theorem State.setLane_flash (l : Nat) (x : LaneSt) : (s.setLane l x).flash = s.flash := rfl
@[simp] theorem State.setLane_totals (l : Nat) (x : LaneSt) : (s.setLane l x).totals = s.totals := rfl

@[simp] theorem State.setSend_pending (k : Nat) (x : SendCtx) : (s.setSend k x).pending = s.pending := rfl
@[simp] theorem State.setSend_now (k : Nat) (x : SendCtx) : (s.setSend k x).now = s.now := rfl
@[simp] theorem State.setSend_tick (k : Nat) (x : SendCtx) : (s.setSend k x).tick = s.tick := rfl
@[simp] theorem State.setSend_freeCtr (k : Nat) (x : SendCtx) : (s.setSend k x).freeCtr = s.freeCtr := rfl
@[simp] theorem State.setSend_genBase (k : Nat) (x : SendCtx) : (s.setSend k x).genBase = s.genBase := rfl
@[simp] theorem State.setSend_readout (k : Nat) (x : SendCtx) : (s.setSend k x).readout = s.readout := rfl
@[simp] theorem State.setSend_mem (k : Nat) (x : SendCtx) : (s.setSend k x).mem = s.mem := rfl
@[simp] theorem State.setSend_poison (k : Nat) (x : SendCtx) : (s.setSend k x).poison = s.poison := rfl
@[simp] theorem State.setSend_clusters (k : Nat) (x : SendCtx) : (s.setSend k x).clusters = s.clusters := rfl
@[simp] theorem State.setSend_memsys (k : Nat) (x : SendCtx) : (s.setSend k x).memsys = s.memsys := rfl
@[simp] theorem State.setSend_hud (k : Nat) (x : SendCtx) : (s.setSend k x).hud = s.hud := rfl
@[simp] theorem State.setSend_ing (k : Nat) (x : SendCtx) : (s.setSend k x).ing = s.ing := rfl
@[simp] theorem State.setSend_mgmt (k : Nat) (x : SendCtx) : (s.setSend k x).mgmt = s.mgmt := rfl
@[simp] theorem State.setSend_smb (k : Nat) (x : SendCtx) : (s.setSend k x).smb = s.smb := rfl
@[simp] theorem State.setSend_pmb (k : Nat) (x : SendCtx) : (s.setSend k x).pmb = s.pmb := rfl
@[simp] theorem State.setSend_dbg (k : Nat) (x : SendCtx) : (s.setSend k x).dbg = s.dbg := rfl
@[simp] theorem State.setSend_uart (k : Nat) (x : SendCtx) : (s.setSend k x).uart = s.uart := rfl
@[simp] theorem State.setSend_job (k : Nat) (x : SendCtx) : (s.setSend k x).job = s.job := rfl
@[simp] theorem State.setSend_step (k : Nat) (x : SendCtx) : (s.setSend k x).step = s.step := rfl
@[simp] theorem State.setSend_watch (k : Nat) (x : SendCtx) : (s.setSend k x).watch = s.watch := rfl
@[simp] theorem State.setSend_watchKept (k : Nat) (x : SendCtx) : (s.setSend k x).watchKept = s.watchKept := rfl
@[simp] theorem State.setSend_ss (k : Nat) (x : SendCtx) : (s.setSend k x).ss = s.ss := rfl
@[simp] theorem State.setSend_units (k : Nat) (x : SendCtx) : (s.setSend k x).units = s.units := rfl
@[simp] theorem State.setSend_pwr (k : Nat) (x : SendCtx) : (s.setSend k x).pwr = s.pwr := rfl
@[simp] theorem State.setSend_opp (k : Nat) (x : SendCtx) : (s.setSend k x).opp = s.opp := rfl
@[simp] theorem State.setSend_clk (k : Nat) (x : SendCtx) : (s.setSend k x).clk = s.clk := rfl
@[simp] theorem State.setSend_therm (k : Nat) (x : SendCtx) : (s.setSend k x).therm = s.therm := rfl
@[simp] theorem State.setSend_mb (k : Nat) (x : SendCtx) : (s.setSend k x).mb = s.mb := rfl
@[simp] theorem State.setSend_log (k : Nat) (x : SendCtx) : (s.setSend k x).log = s.log := rfl
@[simp] theorem State.setSend_boot (k : Nat) (x : SendCtx) : (s.setSend k x).boot = s.boot := rfl
@[simp] theorem State.setSend_ras (k : Nat) (x : SendCtx) : (s.setSend k x).ras = s.ras := rfl
@[simp] theorem State.setSend_flash (k : Nat) (x : SendCtx) : (s.setSend k x).flash = s.flash := rfl
@[simp] theorem State.setSend_totals (k : Nat) (x : SendCtx) : (s.setSend k x).totals = s.totals := rfl

@[simp] theorem State.setRecv_pending (k : Nat) (x : RecvCtx) : (s.setRecv k x).pending = s.pending := rfl
@[simp] theorem State.setRecv_now (k : Nat) (x : RecvCtx) : (s.setRecv k x).now = s.now := rfl
@[simp] theorem State.setRecv_tick (k : Nat) (x : RecvCtx) : (s.setRecv k x).tick = s.tick := rfl
@[simp] theorem State.setRecv_freeCtr (k : Nat) (x : RecvCtx) : (s.setRecv k x).freeCtr = s.freeCtr := rfl
@[simp] theorem State.setRecv_genBase (k : Nat) (x : RecvCtx) : (s.setRecv k x).genBase = s.genBase := rfl
@[simp] theorem State.setRecv_readout (k : Nat) (x : RecvCtx) : (s.setRecv k x).readout = s.readout := rfl
@[simp] theorem State.setRecv_mem (k : Nat) (x : RecvCtx) : (s.setRecv k x).mem = s.mem := rfl
@[simp] theorem State.setRecv_poison (k : Nat) (x : RecvCtx) : (s.setRecv k x).poison = s.poison := rfl
@[simp] theorem State.setRecv_clusters (k : Nat) (x : RecvCtx) : (s.setRecv k x).clusters = s.clusters := rfl
@[simp] theorem State.setRecv_memsys (k : Nat) (x : RecvCtx) : (s.setRecv k x).memsys = s.memsys := rfl
@[simp] theorem State.setRecv_hud (k : Nat) (x : RecvCtx) : (s.setRecv k x).hud = s.hud := rfl
@[simp] theorem State.setRecv_ing (k : Nat) (x : RecvCtx) : (s.setRecv k x).ing = s.ing := rfl
@[simp] theorem State.setRecv_mgmt (k : Nat) (x : RecvCtx) : (s.setRecv k x).mgmt = s.mgmt := rfl
@[simp] theorem State.setRecv_smb (k : Nat) (x : RecvCtx) : (s.setRecv k x).smb = s.smb := rfl
@[simp] theorem State.setRecv_pmb (k : Nat) (x : RecvCtx) : (s.setRecv k x).pmb = s.pmb := rfl
@[simp] theorem State.setRecv_dbg (k : Nat) (x : RecvCtx) : (s.setRecv k x).dbg = s.dbg := rfl
@[simp] theorem State.setRecv_uart (k : Nat) (x : RecvCtx) : (s.setRecv k x).uart = s.uart := rfl
@[simp] theorem State.setRecv_job (k : Nat) (x : RecvCtx) : (s.setRecv k x).job = s.job := rfl
@[simp] theorem State.setRecv_step (k : Nat) (x : RecvCtx) : (s.setRecv k x).step = s.step := rfl
@[simp] theorem State.setRecv_watch (k : Nat) (x : RecvCtx) : (s.setRecv k x).watch = s.watch := rfl
@[simp] theorem State.setRecv_watchKept (k : Nat) (x : RecvCtx) : (s.setRecv k x).watchKept = s.watchKept := rfl
@[simp] theorem State.setRecv_ss (k : Nat) (x : RecvCtx) : (s.setRecv k x).ss = s.ss := rfl
@[simp] theorem State.setRecv_units (k : Nat) (x : RecvCtx) : (s.setRecv k x).units = s.units := rfl
@[simp] theorem State.setRecv_pwr (k : Nat) (x : RecvCtx) : (s.setRecv k x).pwr = s.pwr := rfl
@[simp] theorem State.setRecv_opp (k : Nat) (x : RecvCtx) : (s.setRecv k x).opp = s.opp := rfl
@[simp] theorem State.setRecv_clk (k : Nat) (x : RecvCtx) : (s.setRecv k x).clk = s.clk := rfl
@[simp] theorem State.setRecv_therm (k : Nat) (x : RecvCtx) : (s.setRecv k x).therm = s.therm := rfl
@[simp] theorem State.setRecv_mb (k : Nat) (x : RecvCtx) : (s.setRecv k x).mb = s.mb := rfl
@[simp] theorem State.setRecv_log (k : Nat) (x : RecvCtx) : (s.setRecv k x).log = s.log := rfl
@[simp] theorem State.setRecv_boot (k : Nat) (x : RecvCtx) : (s.setRecv k x).boot = s.boot := rfl
@[simp] theorem State.setRecv_ras (k : Nat) (x : RecvCtx) : (s.setRecv k x).ras = s.ras := rfl
@[simp] theorem State.setRecv_flash (k : Nat) (x : RecvCtx) : (s.setRecv k x).flash = s.flash := rfl
@[simp] theorem State.setRecv_totals (k : Nat) (x : RecvCtx) : (s.setRecv k x).totals = s.totals := rfl

@[simp] theorem State.setDom_pending (k : Nat) (x : SlotPwr) : (s.setDom k x).pending = s.pending := rfl
@[simp] theorem State.setDom_now (k : Nat) (x : SlotPwr) : (s.setDom k x).now = s.now := rfl
@[simp] theorem State.setDom_tick (k : Nat) (x : SlotPwr) : (s.setDom k x).tick = s.tick := rfl
@[simp] theorem State.setDom_freeCtr (k : Nat) (x : SlotPwr) : (s.setDom k x).freeCtr = s.freeCtr := rfl
@[simp] theorem State.setDom_genBase (k : Nat) (x : SlotPwr) : (s.setDom k x).genBase = s.genBase := rfl
@[simp] theorem State.setDom_readout (k : Nat) (x : SlotPwr) : (s.setDom k x).readout = s.readout := rfl
@[simp] theorem State.setDom_mem (k : Nat) (x : SlotPwr) : (s.setDom k x).mem = s.mem := rfl
@[simp] theorem State.setDom_poison (k : Nat) (x : SlotPwr) : (s.setDom k x).poison = s.poison := rfl
@[simp] theorem State.setDom_clusters (k : Nat) (x : SlotPwr) : (s.setDom k x).clusters = s.clusters := rfl
@[simp] theorem State.setDom_memsys (k : Nat) (x : SlotPwr) : (s.setDom k x).memsys = s.memsys := rfl
@[simp] theorem State.setDom_fab (k : Nat) (x : SlotPwr) : (s.setDom k x).fab = s.fab := rfl
@[simp] theorem State.setDom_hud (k : Nat) (x : SlotPwr) : (s.setDom k x).hud = s.hud := rfl
@[simp] theorem State.setDom_ing (k : Nat) (x : SlotPwr) : (s.setDom k x).ing = s.ing := rfl
@[simp] theorem State.setDom_mgmt (k : Nat) (x : SlotPwr) : (s.setDom k x).mgmt = s.mgmt := rfl
@[simp] theorem State.setDom_smb (k : Nat) (x : SlotPwr) : (s.setDom k x).smb = s.smb := rfl
@[simp] theorem State.setDom_pmb (k : Nat) (x : SlotPwr) : (s.setDom k x).pmb = s.pmb := rfl
@[simp] theorem State.setDom_dbg (k : Nat) (x : SlotPwr) : (s.setDom k x).dbg = s.dbg := rfl
@[simp] theorem State.setDom_uart (k : Nat) (x : SlotPwr) : (s.setDom k x).uart = s.uart := rfl
@[simp] theorem State.setDom_job (k : Nat) (x : SlotPwr) : (s.setDom k x).job = s.job := rfl
@[simp] theorem State.setDom_step (k : Nat) (x : SlotPwr) : (s.setDom k x).step = s.step := rfl
@[simp] theorem State.setDom_watch (k : Nat) (x : SlotPwr) : (s.setDom k x).watch = s.watch := rfl
@[simp] theorem State.setDom_watchKept (k : Nat) (x : SlotPwr) : (s.setDom k x).watchKept = s.watchKept := rfl
@[simp] theorem State.setDom_ss (k : Nat) (x : SlotPwr) : (s.setDom k x).ss = s.ss := rfl
@[simp] theorem State.setDom_units (k : Nat) (x : SlotPwr) : (s.setDom k x).units = s.units := rfl
@[simp] theorem State.setDom_opp (k : Nat) (x : SlotPwr) : (s.setDom k x).opp = s.opp := rfl
@[simp] theorem State.setDom_clk (k : Nat) (x : SlotPwr) : (s.setDom k x).clk = s.clk := rfl
@[simp] theorem State.setDom_therm (k : Nat) (x : SlotPwr) : (s.setDom k x).therm = s.therm := rfl
@[simp] theorem State.setDom_mb (k : Nat) (x : SlotPwr) : (s.setDom k x).mb = s.mb := rfl
@[simp] theorem State.setDom_log (k : Nat) (x : SlotPwr) : (s.setDom k x).log = s.log := rfl
@[simp] theorem State.setDom_boot (k : Nat) (x : SlotPwr) : (s.setDom k x).boot = s.boot := rfl
@[simp] theorem State.setDom_ras (k : Nat) (x : SlotPwr) : (s.setDom k x).ras = s.ras := rfl
@[simp] theorem State.setDom_flash (k : Nat) (x : SlotPwr) : (s.setDom k x).flash = s.flash := rfl
@[simp] theorem State.setDom_totals (k : Nat) (x : SlotPwr) : (s.setDom k x).totals = s.totals := rfl

@[simp] theorem State.modHud_pending (f : HuddleSt → HuddleSt) : (s.modHud f).pending = s.pending := rfl
@[simp] theorem State.modHud_now (f : HuddleSt → HuddleSt) : (s.modHud f).now = s.now := rfl
@[simp] theorem State.modHud_tick (f : HuddleSt → HuddleSt) : (s.modHud f).tick = s.tick := rfl
@[simp] theorem State.modHud_freeCtr (f : HuddleSt → HuddleSt) : (s.modHud f).freeCtr = s.freeCtr := rfl
@[simp] theorem State.modHud_genBase (f : HuddleSt → HuddleSt) : (s.modHud f).genBase = s.genBase := rfl
@[simp] theorem State.modHud_readout (f : HuddleSt → HuddleSt) : (s.modHud f).readout = s.readout := rfl
@[simp] theorem State.modHud_mem (f : HuddleSt → HuddleSt) : (s.modHud f).mem = s.mem := rfl
@[simp] theorem State.modHud_poison (f : HuddleSt → HuddleSt) : (s.modHud f).poison = s.poison := rfl
@[simp] theorem State.modHud_clusters (f : HuddleSt → HuddleSt) : (s.modHud f).clusters = s.clusters := rfl
@[simp] theorem State.modHud_memsys (f : HuddleSt → HuddleSt) : (s.modHud f).memsys = s.memsys := rfl
@[simp] theorem State.modHud_fab (f : HuddleSt → HuddleSt) : (s.modHud f).fab = s.fab := rfl
@[simp] theorem State.modHud_ing (f : HuddleSt → HuddleSt) : (s.modHud f).ing = s.ing := rfl
@[simp] theorem State.modHud_mgmt (f : HuddleSt → HuddleSt) : (s.modHud f).mgmt = s.mgmt := rfl
@[simp] theorem State.modHud_smb (f : HuddleSt → HuddleSt) : (s.modHud f).smb = s.smb := rfl
@[simp] theorem State.modHud_pmb (f : HuddleSt → HuddleSt) : (s.modHud f).pmb = s.pmb := rfl
@[simp] theorem State.modHud_dbg (f : HuddleSt → HuddleSt) : (s.modHud f).dbg = s.dbg := rfl
@[simp] theorem State.modHud_uart (f : HuddleSt → HuddleSt) : (s.modHud f).uart = s.uart := rfl
@[simp] theorem State.modHud_job (f : HuddleSt → HuddleSt) : (s.modHud f).job = s.job := rfl
@[simp] theorem State.modHud_step (f : HuddleSt → HuddleSt) : (s.modHud f).step = s.step := rfl
@[simp] theorem State.modHud_watch (f : HuddleSt → HuddleSt) : (s.modHud f).watch = s.watch := rfl
@[simp] theorem State.modHud_watchKept (f : HuddleSt → HuddleSt) : (s.modHud f).watchKept = s.watchKept := rfl
@[simp] theorem State.modHud_ss (f : HuddleSt → HuddleSt) : (s.modHud f).ss = s.ss := rfl
@[simp] theorem State.modHud_units (f : HuddleSt → HuddleSt) : (s.modHud f).units = s.units := rfl
@[simp] theorem State.modHud_pwr (f : HuddleSt → HuddleSt) : (s.modHud f).pwr = s.pwr := rfl
@[simp] theorem State.modHud_opp (f : HuddleSt → HuddleSt) : (s.modHud f).opp = s.opp := rfl
@[simp] theorem State.modHud_clk (f : HuddleSt → HuddleSt) : (s.modHud f).clk = s.clk := rfl
@[simp] theorem State.modHud_therm (f : HuddleSt → HuddleSt) : (s.modHud f).therm = s.therm := rfl
@[simp] theorem State.modHud_mb (f : HuddleSt → HuddleSt) : (s.modHud f).mb = s.mb := rfl
@[simp] theorem State.modHud_log (f : HuddleSt → HuddleSt) : (s.modHud f).log = s.log := rfl
@[simp] theorem State.modHud_boot (f : HuddleSt → HuddleSt) : (s.modHud f).boot = s.boot := rfl
@[simp] theorem State.modHud_ras (f : HuddleSt → HuddleSt) : (s.modHud f).ras = s.ras := rfl
@[simp] theorem State.modHud_flash (f : HuddleSt → HuddleSt) : (s.modHud f).flash = s.flash := rfl
@[simp] theorem State.modHud_totals (f : HuddleSt → HuddleSt) : (s.modHud f).totals = s.totals := rfl

@[simp] theorem State.modIng_pending (f : IngestSt → IngestSt) : (s.modIng f).pending = s.pending := rfl
@[simp] theorem State.modIng_now (f : IngestSt → IngestSt) : (s.modIng f).now = s.now := rfl
@[simp] theorem State.modIng_tick (f : IngestSt → IngestSt) : (s.modIng f).tick = s.tick := rfl
@[simp] theorem State.modIng_freeCtr (f : IngestSt → IngestSt) : (s.modIng f).freeCtr = s.freeCtr := rfl
@[simp] theorem State.modIng_genBase (f : IngestSt → IngestSt) : (s.modIng f).genBase = s.genBase := rfl
@[simp] theorem State.modIng_readout (f : IngestSt → IngestSt) : (s.modIng f).readout = s.readout := rfl
@[simp] theorem State.modIng_mem (f : IngestSt → IngestSt) : (s.modIng f).mem = s.mem := rfl
@[simp] theorem State.modIng_poison (f : IngestSt → IngestSt) : (s.modIng f).poison = s.poison := rfl
@[simp] theorem State.modIng_clusters (f : IngestSt → IngestSt) : (s.modIng f).clusters = s.clusters := rfl
@[simp] theorem State.modIng_memsys (f : IngestSt → IngestSt) : (s.modIng f).memsys = s.memsys := rfl
@[simp] theorem State.modIng_fab (f : IngestSt → IngestSt) : (s.modIng f).fab = s.fab := rfl
@[simp] theorem State.modIng_hud (f : IngestSt → IngestSt) : (s.modIng f).hud = s.hud := rfl
@[simp] theorem State.modIng_mgmt (f : IngestSt → IngestSt) : (s.modIng f).mgmt = s.mgmt := rfl
@[simp] theorem State.modIng_smb (f : IngestSt → IngestSt) : (s.modIng f).smb = s.smb := rfl
@[simp] theorem State.modIng_pmb (f : IngestSt → IngestSt) : (s.modIng f).pmb = s.pmb := rfl
@[simp] theorem State.modIng_dbg (f : IngestSt → IngestSt) : (s.modIng f).dbg = s.dbg := rfl
@[simp] theorem State.modIng_uart (f : IngestSt → IngestSt) : (s.modIng f).uart = s.uart := rfl
@[simp] theorem State.modIng_job (f : IngestSt → IngestSt) : (s.modIng f).job = s.job := rfl
@[simp] theorem State.modIng_step (f : IngestSt → IngestSt) : (s.modIng f).step = s.step := rfl
@[simp] theorem State.modIng_watch (f : IngestSt → IngestSt) : (s.modIng f).watch = s.watch := rfl
@[simp] theorem State.modIng_watchKept (f : IngestSt → IngestSt) : (s.modIng f).watchKept = s.watchKept := rfl
@[simp] theorem State.modIng_ss (f : IngestSt → IngestSt) : (s.modIng f).ss = s.ss := rfl
@[simp] theorem State.modIng_units (f : IngestSt → IngestSt) : (s.modIng f).units = s.units := rfl
@[simp] theorem State.modIng_pwr (f : IngestSt → IngestSt) : (s.modIng f).pwr = s.pwr := rfl
@[simp] theorem State.modIng_opp (f : IngestSt → IngestSt) : (s.modIng f).opp = s.opp := rfl
@[simp] theorem State.modIng_clk (f : IngestSt → IngestSt) : (s.modIng f).clk = s.clk := rfl
@[simp] theorem State.modIng_therm (f : IngestSt → IngestSt) : (s.modIng f).therm = s.therm := rfl
@[simp] theorem State.modIng_mb (f : IngestSt → IngestSt) : (s.modIng f).mb = s.mb := rfl
@[simp] theorem State.modIng_log (f : IngestSt → IngestSt) : (s.modIng f).log = s.log := rfl
@[simp] theorem State.modIng_boot (f : IngestSt → IngestSt) : (s.modIng f).boot = s.boot := rfl
@[simp] theorem State.modIng_ras (f : IngestSt → IngestSt) : (s.modIng f).ras = s.ras := rfl
@[simp] theorem State.modIng_flash (f : IngestSt → IngestSt) : (s.modIng f).flash = s.flash := rfl
@[simp] theorem State.modIng_totals (f : IngestSt → IngestSt) : (s.modIng f).totals = s.totals := rfl

@[simp] theorem State.modClk_pending (f : ClockSt → ClockSt) : (s.modClk f).pending = s.pending := rfl
@[simp] theorem State.modClk_now (f : ClockSt → ClockSt) : (s.modClk f).now = s.now := rfl
@[simp] theorem State.modClk_tick (f : ClockSt → ClockSt) : (s.modClk f).tick = s.tick := rfl
@[simp] theorem State.modClk_freeCtr (f : ClockSt → ClockSt) : (s.modClk f).freeCtr = s.freeCtr := rfl
@[simp] theorem State.modClk_genBase (f : ClockSt → ClockSt) : (s.modClk f).genBase = s.genBase := rfl
@[simp] theorem State.modClk_readout (f : ClockSt → ClockSt) : (s.modClk f).readout = s.readout := rfl
@[simp] theorem State.modClk_mem (f : ClockSt → ClockSt) : (s.modClk f).mem = s.mem := rfl
@[simp] theorem State.modClk_poison (f : ClockSt → ClockSt) : (s.modClk f).poison = s.poison := rfl
@[simp] theorem State.modClk_clusters (f : ClockSt → ClockSt) : (s.modClk f).clusters = s.clusters := rfl
@[simp] theorem State.modClk_memsys (f : ClockSt → ClockSt) : (s.modClk f).memsys = s.memsys := rfl
@[simp] theorem State.modClk_fab (f : ClockSt → ClockSt) : (s.modClk f).fab = s.fab := rfl
@[simp] theorem State.modClk_hud (f : ClockSt → ClockSt) : (s.modClk f).hud = s.hud := rfl
@[simp] theorem State.modClk_ing (f : ClockSt → ClockSt) : (s.modClk f).ing = s.ing := rfl
@[simp] theorem State.modClk_mgmt (f : ClockSt → ClockSt) : (s.modClk f).mgmt = s.mgmt := rfl
@[simp] theorem State.modClk_smb (f : ClockSt → ClockSt) : (s.modClk f).smb = s.smb := rfl
@[simp] theorem State.modClk_pmb (f : ClockSt → ClockSt) : (s.modClk f).pmb = s.pmb := rfl
@[simp] theorem State.modClk_dbg (f : ClockSt → ClockSt) : (s.modClk f).dbg = s.dbg := rfl
@[simp] theorem State.modClk_uart (f : ClockSt → ClockSt) : (s.modClk f).uart = s.uart := rfl
@[simp] theorem State.modClk_job (f : ClockSt → ClockSt) : (s.modClk f).job = s.job := rfl
@[simp] theorem State.modClk_step (f : ClockSt → ClockSt) : (s.modClk f).step = s.step := rfl
@[simp] theorem State.modClk_watch (f : ClockSt → ClockSt) : (s.modClk f).watch = s.watch := rfl
@[simp] theorem State.modClk_watchKept (f : ClockSt → ClockSt) : (s.modClk f).watchKept = s.watchKept := rfl
@[simp] theorem State.modClk_ss (f : ClockSt → ClockSt) : (s.modClk f).ss = s.ss := rfl
@[simp] theorem State.modClk_units (f : ClockSt → ClockSt) : (s.modClk f).units = s.units := rfl
@[simp] theorem State.modClk_pwr (f : ClockSt → ClockSt) : (s.modClk f).pwr = s.pwr := rfl
@[simp] theorem State.modClk_opp (f : ClockSt → ClockSt) : (s.modClk f).opp = s.opp := rfl
@[simp] theorem State.modClk_therm (f : ClockSt → ClockSt) : (s.modClk f).therm = s.therm := rfl
@[simp] theorem State.modClk_mb (f : ClockSt → ClockSt) : (s.modClk f).mb = s.mb := rfl
@[simp] theorem State.modClk_log (f : ClockSt → ClockSt) : (s.modClk f).log = s.log := rfl
@[simp] theorem State.modClk_boot (f : ClockSt → ClockSt) : (s.modClk f).boot = s.boot := rfl
@[simp] theorem State.modClk_ras (f : ClockSt → ClockSt) : (s.modClk f).ras = s.ras := rfl
@[simp] theorem State.modClk_flash (f : ClockSt → ClockSt) : (s.modClk f).flash = s.flash := rfl
@[simp] theorem State.modClk_totals (f : ClockSt → ClockSt) : (s.modClk f).totals = s.totals := rfl

/-- What `cl` reads after `setCl`. -/
@[simp] theorem State.cl_setCl (c d : Nat) (k : Cluster) : (s.setCl c k).cl d = if d = c then k else s.cl d := by
  simp [State.cl, State.setCl, tabGet_tabSet, eq_comm]
/-- What `unit` reads after `setUnit`. -/
@[simp] theorem State.unit_setUnit (u v : Nat) (e : UnitEnt) : (s.setUnit u e).unit v = if v = u then e else s.unit v := by
  simp [State.unit, State.setUnit, tabGet_tabSet, eq_comm]
/-- What `slice` reads after `setSlice`. -/
@[simp] theorem State.slice_setSlice (n m : Nat) (x : Slice) : (s.setSlice n x).slice m = if m = n then x else s.slice m := by
  simp [State.slice, State.setSlice, tabGet_tabSet, eq_comm]
/-- What `stack` reads after `setStack`. -/
@[simp] theorem State.stack_setStack (n m : Nat) (x : Stack) : (s.setStack n x).stack m = if m = n then x else s.stack m := by
  simp [State.stack, State.setStack, tabGet_tabSet, eq_comm]
/-- What `box` reads after `setBox`. -/
@[simp] theorem State.box_setBox (m n : Nat) (x : Mailbox) : (s.setBox m x).box n = if n = m then x else s.box n := by
  simp [State.box, State.setBox, tabGet_tabSet, eq_comm]
/-- What `lane` reads after `setLane`. -/
@[simp] theorem State.lane_setLane (l m : Nat) (x : LaneSt) : (s.setLane l x).lane m = if m = l then x else s.lane m := by
  simp [State.lane, State.setLane, tabGet_tabSet, eq_comm]
/-- What `dom` reads after `setDom`. -/
@[simp] theorem State.dom_setDom (k m : Nat) (x : SlotPwr) : (s.setDom k x).dom m = if m = k then x else s.dom m := by
  simp [State.dom, State.setDom, tabGet_tabSet, eq_comm]
/-- What `cl` reads after `modCl`. -/
@[simp] theorem State.cl_modCl (c d : Nat) (f : Cluster → Cluster) : (s.modCl c f).cl d = if d = c then f (s.cl c) else s.cl d := by
  simp [State.modCl]

end Sys2Proof.Machine
end

