-- ==== Sys2Proof/Tests/Slice0.lean ====
section
/-!
SUPPORT. Tests of single commands on small states, with results from the spec's worked examples and tables or worked by hand from its
rules; and for each statement a state that meets its hypotheses.
-/
open Sys2Proof Sys2Proof.Machine Sys2Proof.Claims

namespace Sys2Proof.Tests

set_option Elab.async false

/-- Two slots that are ACTIVE, carrying logical clusters 0 and 1. -/
def units2 : Tab UnitEnt :=
  [(unitId 1 0, { state := .active, logical := 0, fence := false }), (unitId 1 1, { state := .active, logical := 1, fence := false })]

/-- A cluster that runs. -/
def running : Cluster := { st := .running, fenced := false }

/-- An announced device with two running clusters and no job. -/
def base : State :=
  { units := units2, clusters := [(0, running), (1, running)], boot := { nganor := true, pinReset := false, stage := 5 } }

/-- The state after a command. -/
def after (i : Instr) (s : State) : State := stateOf (exec i s) s

/-! ### Well-formedness: an ill-formed term for each check -/

/-- A packet whose fields are in range. -/
def pkt : Packet := { op := 1, src := 3, epoch := 7, psn := 0, addr := 0x1000 }

theorem test_wf_packet_fields : (Instr.write 0 { pkt with op := 256 }).wf = false ∧ (Instr.read 0 { pkt with flags := 8 }).wf = false ∧
    (Instr.status 0 { pkt with cls := 4 }).wf = false ∧ (Instr.ack 0 { pkt with part := 16 }).wf = false ∧
    (Instr.ctrl 0 { pkt with src := 2 ^ 18 }).wf = false ∧ (Instr.hUp 0 { pkt with epoch := 2 ^ 16 }).wf = false := by decide
theorem test_wf_packet_widths : (Instr.hDown 0 { pkt with psn := 2 ^ 32 }).wf = false ∧ (Instr.hStop 0 { pkt with addr := 2 ^ 64 }).wf = false ∧
    (Instr.tSync 0 { pkt with txTime := 2 ^ 32 }).wf = false ∧ (Instr.tReply 0 { pkt with job := 2 ^ 16 }).wf = false ∧
    (Instr.rReq 0 { pkt with aux := 2 ^ 16 }).wf = false ∧ (Instr.rGrant 0 { pkt with payload := List.replicate 4097 0 }).wf = false := by
  decide +kernel
theorem test_wf_packet_ok : (Instr.write 0 pkt).wf = true := by decide
theorem test_wf_record : (Instr.deltaRecord { type := 1, step := 2 ^ 64 }).wf = false ∧ (Instr.fullRecord { type := 1, seq := 2 ^ 64 }).wf = false ∧
    (Instr.endRecord { type := 1, origin := 2 ^ 18 }).wf = false ∧ (Instr.stepAck { type := 1 }).wf = true := by decide
/-- A frame of mailbox 0. -/
def mbf : MbIn := { src := .cluster 0, mbox := 0 }

theorem test_wf_mailbox_frame : (Instr.put { mbf with version := 256 }).wf = false ∧ (Instr.get { mbf with mbox := 256 }).wf = false ∧
    (Instr.stat { mbf with res := 256 }).wf = false ∧ (Instr.ringFrame { mbf with offset := 65536 }).wf = false ∧ (Instr.abortFrame { mbf with len := 65536 }).wf = false ∧
    (Instr.releaseFrame { mbf with tag := 65536 }).wf = false ∧ (Instr.evack { mbf with seq := 65536 }).wf = false ∧ (Instr.put { mbf with arg := 2 ^ 32 }).wf = false ∧
    (Instr.put { mbf with data := List.replicate 1025 0 }).wf = false := by decide +kernel
theorem test_wf_frame : (Instr.frameReceive 0 { dst := 2 ^ 48, src := 0, etype := 0, body := [] }).wf = false ∧
    (Instr.frameReceive 0 { dst := 0, src := 2 ^ 48, etype := 0, body := [] }).wf = false ∧
    (Instr.frameReceive 0 { dst := 0, src := 0, etype := 65536, body := [] }).wf = false ∧
    (Instr.frameReceive 0 { dst := 0, src := 0, etype := 0, body := List.replicate 4183 0 }).wf = false := by decide +kernel
theorem test_wf_lists : (Instr.firmwareVerify [(288, 12)]).wf = false ∧ (Instr.firmwareVerify [(3, 17)]).wf = false ∧
    (Instr.hbmTrainingComplete [768]).wf = false ∧ (Instr.hbmTrainingComplete [767]).wf = true ∧
    (Instr.mbWrite false (List.replicate 256 0)).wf = false := by decide +kernel

/-! ### Numbers of the spec -/

/-- The check value of CRC-64/XZ (R389). -/
theorem test_crc64 : (crc64 ((List.range 9).map fun i => BitVec.ofNat 8 (0x31 + i))).toNat = 0x995DC9BBDF1939FA := by decide +kernel
/-- VOUT_COMMAND of 1.8 V under VOUT_MODE 0x14 (R613, the boot example of chapter 21). -/
theorem test_vout : voutWord 0x14 1800 = 0x1CCD := by decide
/-- e5 of cluster 140 adds at 0x5000_008C_0628 (the example of chapter 07). -/
theorem test_ev_add_address : (State.place { base with units := [(unitId 1 156, { state := .active, logical := 140 })] } 0x5000008C0628).reg = some (.evAdd 140 5) := by decide +kernel

/-! ### Scalar instructions and control flow -/

/-- s2 = 5 and s3 = 7. -/
def regs : State := { base with clusters := [(0, { running with s := [(2, 5), (3, 7)] }), (1, running)] }

/-- ADD s1, s2, s3 (R328, R329). -/
theorem test_alu_add : ((after (.alu 0 0x3020100) regs).cl 0).sreg 1 = 12 ∧ ((after (.alu 0 0x3020100) regs).cl 0).pc = 16 := by decide +kernel
/-- SUB s1, s2, s3 wraps modulo 2^64; FUNC 0x10 is reserved. -/
theorem test_alu_sub : ((after (.alu 0 0x3020101) regs).cl 0).sreg 1 = 2 ^ 64 - 2 ∧ ((after (.alu 0 0x3020110) regs).cl 0).cause = 1 := by
  decide +kernel
/-- SRA s1 = s2 shifted by IMM[5:0], and a write to s0 is discarded. -/
theorem test_alui : ((after (.alui 0 (0x20107 + 2 ^ 56 * 65)) regs).cl 0).sreg 1 = 2 ∧
    ((after (.alui 0 (0x20000 + 2 ^ 56 * 9)) regs).cl 0).sreg 0 = 0 := by decide +kernel
theorem wit_ScalarOperationsCompute : regs.clocked = true ∧ (regs.cl 0).st = .running ∧ (regs.cl 0).hold = .none ∧ (regs.cl 0).fenced = false ∧
    onlyBits (iword 0x10 0x302010F) [(15, 8), (20, 16), (28, 24), (36, 32)] = true ∧ fld (iword 0x10 0x302010F) 15 8 = 15 ∧
    onlyBits (iword 0x10 0x3020110) [(15, 8), (20, 16), (28, 24), (36, 32)] = true ∧ fld (iword 0x10 0x3020110) 15 8 = 16 ∧
    onlyBits (iword 0x11 (0x20100 + 2 ^ 56)) [(15, 8), (20, 16), (28, 24), (127, 64)] = true := by decide +kernel

/-- LOOP on s2 with OFFSET +2: 5 becomes 4 and PC 32. -/
theorem test_loop : ((after (.loop 0 (0x200 + 2 ^ 24 * 2)) regs).cl 0).sreg 2 = 4 ∧ ((after (.loop 0 (0x200 + 2 ^ 24 * 2)) regs).cl 0).pc = 32 := by
  decide +kernel
/-- LOOP on a count of 1 does not branch; on 0 it wraps and branches (R321). -/
theorem test_loop_bounds : ((after (.loop 0 (0x100 + 2 ^ 24 * 2)) { regs with clusters := [(0, { running with s := [(1, 1)] })] }).cl 0).pc = 16 ∧
    ((after (.loop 0 (0x100 + 2 ^ 24 * 2)) regs).cl 0).sreg 1 = 0xFFFFFFFFFFFFFFFF := by decide +kernel
/-- JUMP s1 := link to PC + 16 × 4; BR s2 < s3 with OFFSET 3 is taken; BR with COND 6 is ILLEGAL. -/
theorem test_jump_br : ((after (.jump 0 (0x100 + 2 ^ 24 * 4)) regs).cl 0).pc = 64 ∧ ((after (.jump 0 (0x100 + 2 ^ 24 * 4)) regs).cl 0).sreg 1 = 16 ∧
    ((after (.br 0 (0x30202 + 2 ^ 24 * 3)) regs).cl 0).pc = 48 ∧ ((after (.br 0 (0x30206 + 2 ^ 24 * 3)) regs).cl 0).cause = 1 := by
  decide +kernel
theorem wit_ControlFlowFollowsTheTable : onlyBits (iword 0x01 0) [] = true ∧ onlyBits (iword 0x07 0) [] = true ∧
    onlyBits (iword 0x02 (0x100 + 2 ^ 24 * 4)) [(8, 8), (20, 16), (28, 24), (63, 32)] = true ∧
    onlyBits (iword 0x03 (0x30205 + 2 ^ 24 * 256)) [(10, 8), (11, 11), (20, 16), (28, 24), (63, 32), (95, 64)] = true ∧
    fld (iword 0x03 (0x30205 + 2 ^ 24 * 256)) 10 8 = 5 ∧ fld (iword 0x03 0x30206) 10 8 = 6 ∧
    onlyBits (iword 0x03 0x30206) [(10, 8), (11, 11), (20, 16), (28, 24), (63, 32), (95, 64)] = true ∧
    onlyBits (iword 0x04 (0x200 + 2 ^ 24 * 2)) [(20, 16), (63, 32)] = true ∧ (regs.cl 0).st = .running ∧ regs.clocked = true := by decide +kernel

/-! ### Waits, counters, signals, fences -/

/-- e5 = 2 in cluster 0. -/
def ev5 : State := { base with clusters := [(0, { running with e := [(5, 2)] }), (1, running)] }

/-- WAIT e5 for 2 with CONSUME leaves 0 (the example of chapter 07); for 3 it holds issue. -/
theorem test_wait : ((after (.wait 0 (0x501 + 2 ^ 56 * 2)) ev5).cl 0).ev 5 = 0 ∧ ((after (.wait 0 (0x501 + 2 ^ 56 * 2)) ev5).cl 0).pc = 16 ∧
    ((after (.wait 0 (0x501 + 2 ^ 56 * 3)) ev5).cl 0).hold = .wait 5 3 true 0 := by decide +kernel
theorem wit_WaitsAndFencesHold :
    onlyBits (iword 0x05 (0x501 + 2 ^ 56 * 3)) [(8, 8), (9, 9), (21, 16), (28, 24), (127, 64)] = true ∧ (ev5.cl 0).ev 5 = 2 ∧
    onlyBits (iword 0x70 0x100) [(18, 16), (31, 24)] = true ∧ bitN (iword 0x70 0x100) 17 = false ∧ (ev5.cl 0).unitsDone = true ∧
    fld (iword 0x70 0x10000) 31 24 ≠ 0 ∧ bitN (iword 0x70 0x10000) 18 = false := by decide +kernel
/-- WAIT_LIMIT 2 µs: at 2,000 ns the WAIT still holds, at 2,001 ns it faults (R272). -/
theorem test_wait_timeout : (after (.waitTimeout 0) { ev5 with tick := 2000, clusters := [(0, { running with hold := .wait 5 3 false 0, waitLimit := 2 })] }).clusters =
      [(0, { running with hold := .wait 5 3 false 0, waitLimit := 2 })] ∧
    ((after (.waitTimeout 0) { ev5 with tick := 2001, clusters := [(0, { running with hold := .wait 5 3 false 0, waitLimit := 2 })] }).cl 0).cause = 9 := by
  decide +kernel
theorem test_ev_instructions : ((after (.evset 0 (0x500 + 2 ^ 56 * 9)) ev5).cl 0).ev 5 = 9 ∧
    ((after (.evsub 0 (0x500 + 2 ^ 56 * 3)) ev5).cl 0).ev 5 = 2 ^ 64 - 1 ∧ ((after (.evrd 0 0x10500) ev5).cl 0).sreg 1 = 2 := by decide +kernel
theorem test_ev_add : ((after (.evAdd 0 5 3) ev5).cl 0).ev 5 = 5 ∧ after (.evAdd 0 63 3) ev5 = ev5 ∧ after (.evAdd 7 5 3) ev5 = ev5 := by decide +kernel
theorem wit_CountersAreSetSubtractedAndAdded : onlyBits (iword 0x20 (0x500 + 2 ^ 56 * 9)) [(8, 8), (21, 16), (28, 24), (127, 64)] = true ∧
    fld (iword 0x20 (0x500 + 2 ^ 56 * 9)) 21 16 = 5 ∧ onlyBits (iword 0x22 0x10500) [(21, 16), (28, 24)] = true ∧
    ev5.absent 0 = false ∧ (ev5.cl 0).fenced = false ∧ ev5.absent 7 = true := by decide +kernel
/-- SIGNAL of 4 to e5 of cluster 1 within the device: window 0 (R326). -/
theorem test_signal : ((after (.signal 0 (0x10500 + 2 ^ 56 * 4)) ev5).cl 1).ev 5 = 4 := by decide +kernel
theorem wit_SignalsArriveTravelOrHold : (ev5.window 0 0).valid = true ∧ (ev5.window 0 0).wr = true ∧ (ev5.window 0 0).dev = ev5.me ∧
    (ev5.window 0 1).valid = false ∧
    onlyBits (iword 0x06 (0x10500 + 2 ^ 56 * 4)) [(8, 8), (9, 9), (10, 10), (21, 16), (31, 24), (37, 32), (44, 40), (127, 64)] = true ∧
    bitN (iword 0x06 0x10501) 8 = true := by decide +kernel
theorem test_halt_resume : ((after (.haltReq 0) base).cl 0).st = .halting ∧ ((after (.clusterHalted 0) (after (.haltReq 0) base)).cl 0).st = .halted ∧
    ((after (.resume 0) (after (.clusterHalted 0) (after (.haltReq 0) base))).cl 0).st = .running := by decide +kernel
theorem wit_ClustersHaltAndResume : base.absent 0 = false ∧ base.absent 9 = true ∧ ((after (.haltReq 0) base).cl 0).st = .halting ∧
    ((after (.haltReq 0) base).cl 0).mma0 = none := by decide +kernel

/-! ### Scalar memory -/

/-- s2 names byte 0x40 of the local store of cluster 0, which holds 0x80 and 0xFF; s3 = 0x1234; HBM holds 1 MiB. -/
def lsState : State :=
  { base with clusters := [(0, { running with s := [(2, 0x400000000040#64), (3, 0x1234#64), (4, 0x1000#64)] }), (1, running)]
              mem := [(0x400000000040, 0x80#8), (0x400000000041, 0xFF#8)], memsys := { hbmTop := 0x100000 } }

/-- LD of 2 bytes, sign-extended and not; an odd address faults. -/
theorem test_ld : ((after (.ld 0 0x20105 .clean) lsState).cl 0).sreg 1 = 0xFFFFFFFFFFFFFF80 ∧
    ((after (.ld 0 0x20101 .clean) lsState).cl 0).sreg 1 = 0xFF80 ∧ ((after (.ld 0 (0x20101 + 2 ^ 24) .clean) lsState).cl 0).cause = 6 := by
  decide +kernel
/-- ST of the low byte of s3; a load of HBM that misses asks the line's home slice. -/
theorem test_st : (after (.st 0 (0x20000 + 2 ^ 24 * 3)) lsState).byte 0x400000000040 = 0x34#8 ∧
    ((after (.ld 0 0x40103 .clean) lsState).cl 0).hold ≠ .none := by decide +kernel
theorem wit_ScalarAccessesReadAndWrite : lsState.place 0x400000000040 = .ls 0 0x40 ∧ lsState.poisoned 0x400000000040 2 = false ∧
    lsState.place 0x1000 = .hbm ∧ tabFind (lsState.cl 0).cache (0x1000 / 128) = none ∧ lsState.absent 0 = false ∧
    onlyBits (iword 0x18 0x20105) [(9, 8), (10, 10), (20, 16), (28, 24), (63, 32)] = true ∧
    onlyBits (iword 0x19 (0x20000 + 2 ^ 24 * 3)) [(9, 8), (28, 24), (36, 32), (63, 37)] = true ∧
    State.poisoned { lsState with poison := [(0x400000000040, true)] } 0x400000000040 2 = true := by decide +kernel

/-! ### Stream slots and units -/

/-- A dense load descriptor. -/
def dense : StreamDesc := streamDescOf []

/-- q2 of cluster 0 is CONFIGURED, q3 RUNNING. -/
def slots : State :=
  { base with clusters := [(0, { running with slots := [(2, { state := .configured, desc := dense }), (3, { state := .running, desc := dense })] })] }

/-- QGO of an IDLE slot and QCFG of a RUNNING one are SLOT faults; QEND of a CONFIGURED slot makes it IDLE (R337). -/
theorem test_slots : ((after (.qgo 0 0x100 none) slots).cl 0).cause = 7 ∧ ((after (.qcfg 0 0x300 none) slots).cl 0).cause = 7 ∧
    (((after (.qend 0 0x200) slots).cl 0).slot 2).state = .idle ∧ (((after (.qcfg 0 0x100 none) slots).cl 0).slot 1).state = .configured := by
  decide +kernel
theorem wit_StreamSlotsAreConfiguredLaunchedAndEnded : ((slots.cl 0).slot 2).state = .configured ∧ ((slots.cl 0).slot 3).state = .running ∧
    ((slots.cl 0).slot 1).state = .idle ∧ fld (iword 0x30 0x300) 19 16 = 3 ∧ fld (iword 0x30 0x300) 52 32 = 0 ∧
    onlyBits (iword 0x30 0x300) [(8, 8), (19, 16), (52, 32)] = true ∧ onlyBits (iword 0x31 0xB00) [(19, 16)] = true ∧
    fld (iword 0x31 0xB00) 19 16 = 11 ∧ onlyBits (iword 0x32 0x200) [(19, 16)] = true ∧ dense.ok 2 false = false ∧ dense.pod = false ∧
    slots.poisoned (lsBase 0) 64 = false ∧ ((slots.cl 0).slot 3).flying = false ∧ dense.store = false := by decide +kernel

/-- TLM t3 from offset 0 enters the load unit; an offset of 32 less than the end of the store faults (R346). -/
theorem test_tlm : ((after (.tlm 0 0x300) base).cl 0).load0.isSome = true ∧
    ((after (.tlm 0 (0x300 + 2 ^ 24 * 0x1FC020)) base).cl 0).cause = 6 ∧ ((after (.tlm 0 (0x300 + 2 ^ 24 * 0x1FC000)) base).cl 0).cause = 0 := by
  decide +kernel
theorem wit_LoadUnitInstructionsEnter : (base.cl 0).load0 = none ∧ (base.cl 0).readPending 3 = false ∧
    (base.cl 0).needsMet ((base.cl 0).needsOf [3] 0) = true ∧ (base.cl 0).loadPending [3] = false ∧ (base.cl 0).pourPending 3 = false ∧
    onlyBits (iword 0x41 (0x300 + 2 ^ 24 * 0x1FC000)) [(12, 12), (19, 16), (29, 24), (52, 32)] = true ∧
    fld (iword 0x41 (0x300 + 2 ^ 24 * 0x1FC000)) 52 32 + 16384 = 0x200000 ∧
    onlyBits (iword 0x42 0x300) [(8, 8), (12, 12), (19, 16), (23, 20), (29, 24), (52, 32)] = true ∧
    onlyBits (iword 0x43 0x300) [(12, 12), (17, 16), (29, 24), (52, 32)] = true ∧ leAt (base.lsBytes 0 0 32) 0 2 = 0 := by decide +kernel

/-- Chapter 08's MMA word 0x0000_0000_0000_00FF_00F8_0120_2410_1150: opcode, rings, formats, counter. -/
theorem test_mma_word : let w := 0x00000000000000FF00F8012024101150
    w % 256 = 0x50 ∧ fld w 19 16 = 0 ∧ fld w 21 20 = 1 ∧ fld w 27 24 = 4 ∧ fld w 29 28 = 2 ∧ fld w 34 32 = 0 ∧ fld w 38 36 = 2 ∧
    fld w 45 40 = 1 ∧ sfld w 55 48 = -8 ∧ fld w 82 64 = 255 := by decide

/-- Its bits [127:8]. -/
def mmaBits : BitVec 120 := 0xFF00F80120241011

/-- The MMA enters the array and waits for its first refills; A_REG 1 with A_RING 1 is misaligned and ILLEGAL. -/
theorem test_mma : (((after (.mma 0 mmaBits) base).cl 0).mma0.map (·.started)) = some false ∧ ((after (.mma 0 mmaBits) base).cl 0).pc = 16 ∧
    ((after (.mma 0 (mmaBits + 0x100)) base).cl 0).cause = 1 := by decide +kernel
theorem wit_ArrayAndVectorInstructionsEnter : (base.cl 0).mma0 = none ∧ ((after (.mma 0 mmaBits) base).cl 0).mma0 ≠ none ∧
    onlyBits (iword 0x50 mmaBits) [(8, 8), (9, 9), (10, 10), (11, 11), (12, 12), (19, 16), (21, 20), (27, 24), (29, 28), (34, 32), (38, 36),
      (45, 40), (55, 48), (82, 64)] = true ∧
    onlyBits (iword 0x58 0x1800) [(8, 8), (9, 9), (20, 16), (28, 24), (52, 32), (69, 64)] = true ∧
    chainFault { src := 0x18, dst := 0, transpose := false, slotPod := false, slotFmt := none, c := (base.cl 0).issueView } (List.replicate 160 0#8) ≠ none ∧
    (base.cl 0).pour0 = none := by decide +kernel

/-- q2 RUNNING with items of 128 bytes and 128 ring places at offset 0x8000, all of its first 128 items READY. -/
def rawSlot : State :=
  let d : StreamDesc := { f10 := 128, f14 := 1000, stride := 128, granule := 1, ringBase := 0x8000, ringItems := 128, pfMax := 128, pfInit := 128 }
  let slot : Slot := { state := .running, fetch := 128, dist := 128, desc := d, ring := (List.range 128).map fun i => (i, ItemStat.ready) }
  { base with clusters := [(0, { running with slots := [(2, slot)] })] }

/-- TLD RAW t3 from q2 takes its 128 rows; from q8 it is a SLOT fault. -/
theorem test_tld_raw : (((after (.tld 0 0x2301 none) rawSlot).cl 0).slot 2).take = 128 ∧ ((after (.tld 0 0x8301 none) rawSlot).cl 0).cause = 7 := by
  decide +kernel
theorem wit_TileLoadsTakeItemsAndStalledInstructionsEnter :
    onlyBits (iword 0x40 0x2301) [(8, 8), (10, 9), (11, 11), (12, 12), (19, 16), (23, 20), (29, 24), (52, 32), (78, 64)] = true ∧
    bitN (iword 0x40 0x2301) 8 = true ∧ ((rawSlot.cl 0).slot 2).state = .running ∧ ((rawSlot.cl 0).slot 2).desc.f10 = 128 ∧
    ((List.range 128).all fun i => tabFind ((rawSlot.cl 0).slot 2).ring i == some .ready) = true ∧ (rawSlot.cl 0).readPending 3 = false ∧
    onlyBits 0x10043 [(12, 12), (17, 16), (29, 24), (52, 32)] = true ∧ 0x10043 % 256 = 0x43 := by decide +kernel

/-! ### Exchanges and undefined words -/

/-- An exchange descriptor at offset 0: FORMAT 0, LOCAL HBM 0x1000, 64 bytes to HBM 0x2000 of this device. -/
theorem test_undefined_word : ((after (.undecodableInstruction 0 0x08 false) base).cl 0).cause = 1 ∧
    ((after (.undecodableInstruction 0 0x08 true) base).cl 0).cause = 8 ∧ ((after (.nop 0 1) base).cl 0).cause = 1 := by decide +kernel
theorem wit_UndefinedWordsAreIllegal : (0x00 : BitVec 128).toNat % 256 ∉ [0x01, 0x02] ∧ (base.cl 0).fault = false ∧
    onlyBits (iword 0x01 1) [] = false ∧ onlyBits (exchWord 0x01 (2 ^ 119)) [(8, 8), (9, 9), (23, 16), (29, 24), (52, 32)] = false ∧
    (base.cl 0).st = .running := by decide +kernel

/-! ### The exchange engine, the array, Pours, stream items -/

theorem base_issues : CanIssue base 0 := by unfold CanIssue; decide +kernel

/-- Descriptors of cluster 0 at offsets 0 (64 bytes from local 0x1000 to 0x2000 of window 0), 64 (an ATOMIC to window 1, which is
device 5), 128 (a rejected one: FORMAT 5) and 192 (8 elements of FORMAT 2 at 0x4000 with the group record at 0x3000: members 0 and 1). -/
def exch : State :=
  let k : Cluster := { running with trans := [(1, 7 * 2 ^ 122 + 5 * 2 ^ 104 + 0x10000 * 2 ^ 64)] }
  let m : List Host.Cell := [(0x3000, 2), (0x300C, 1), (0x400000000004, 64), (0x400000000009, 0x10), (0x400000000011, 0x20), (0x400000000051, 0x20),
    (0x400000000056, 1), (0x400000000080, 5), (0x4000000000C0, 2), (0x4000000000C4, 32), (0x4000000000C9, 0x40), (0x4000000000D9, 0x30)]
  { base with clusters := [(0, k), (1, running)], mem := m, memsys := { hbmTop := 0x100000 } }

/-- EXCH WRITE posts and PC moves on; the completion copies the 64 bytes (R517). -/
theorem test_exch_write : (after (.exchWrite 0 0) exch).fab.posts.length = 1 ∧ ((after (.exchWrite 0 0) exch).cl 0).pc = 16 ∧
    (after (.exchComplete 0) (after (.exchWrite 0 0) { exch with mem := exch.mem.map (fun p => if p.1 = 0x3000 then (0x1000, 2) else p) })).byte 0x2000 = 2 := by
  decide +kernel
theorem wit_ExchangesPost : onlyBits (exchWord 1 0) [(8, 8), (9, 9), (23, 16), (29, 24), (52, 32)] = true ∧ fld (exchWord 1 0) 52 32 = 0 ∧
    exch.postCheck 0 (postOf 1 (exch.lsBytes 0 0 64)) = some (0, 0x2000) ∧ (postOf 1 (exch.lsBytes 0 0 64)).verify = false ∧ exch.me = 0 ∧
    onlyBits (exchWord 4 0x40000000) [(8, 8), (9, 9), (23, 16), (29, 24), (52, 32)] = true ∧ fld (exchWord 4 0x40000000) 52 32 = 64 ∧
    exch.postCheck 0 (postOf 4 (exch.lsBytes 0 64 64)) = some (5, 0x2000) ∧ exch.postCheck 0 (postOf 1 (exch.lsBytes 0 128 64)) = none ∧
    exch.postCheck 0 (postOf 0x11 (exch.lsBytes 0 192 64)) = some (0, 0) ∧ (exch.cl 0).fault = false ∧ exch.poisoned (lsBase 0) 64 = false := by
  decide +kernel
/-- Sixteen posts of cluster 0 are outstanding. -/
def full16 : State :=
  { exch with fab := { exch.fab with posts := (List.range 16).map fun i => { id := i, owner := 0, desc := { kind := 1 } }, postNext := 16 } }
theorem test_exch_holds : 16 ≤ (full16.fab.posts.filter fun p => decide (p.owner = 0)).length ∧ ((after (.exchWrite 0 0) full16).cl 0).pc = 0 ∧
    ((after (.exchWrite 0 0) full16).cl 0).hold ≠ .none := by decide +kernel
theorem wit_ExchangesPost_issue : CanIssue exch 0 ∧ CanIssue full16 0 := by unfold CanIssue; decide +kernel

/-- Posts 0 (WRITE), 1 (READ) and 2 (ATOMIC ADD of 3 to 0x2008) of cluster 0 within this device; an operation of post 3 is outstanding. -/
def posted : State :=
  let ps : List Post := [{ id := 0, owner := 0, desc := { kind := 1, count := 32, loc := 0x1000 }, raddr := 0x2000 },
    { id := 1, owner := 0, desc := { kind := 2, count := 32, loc := 0x1000 }, raddr := 0x2000 },
    { id := 2, owner := 0, desc := { kind := 4, operand := 3 }, raddr := 0x2008, ev := some 5 }, { id := 3, owner := 0, desc := { kind := 1 } }]
  { base with fab := { posts := ps, ops := [{ opid := 0, dest := 5, origin := .post 3, left := 1 }] }, mem := [(0x2008, 0xFE)], memsys := { hbmTop := 0x100000 } }

/-- 0xFE + 3 = 0x101, and the arrival. -/
theorem test_atomic : (after (.exchComplete 2) posted).byte 0x2008 = 1 ∧ (after (.exchComplete 2) posted).byte 0x2009 = 1 ∧
    ((after (.exchComplete 2) posted).cl 0).ev 5 = 1 ∧ (after (.exchComplete 2) posted).fab.posts.length = 3 := by decide +kernel
theorem wit_PostsCompleteWithTheirEffect :
    (posted.fab.posts.find? (fun q => decide (q.id = 2))).map (·.id) = some 2 ∧ (∀ o ∈ posted.fab.ops, o.origin ≠ .post 2) ∧
    (∃ o ∈ posted.fab.ops, o.origin = .post 3) ∧ posted.place 0x2000 = .hbm ∧ posted.place 0x2008 = .hbm ∧ posted.refuses 0x2000 32 = none ∧
    (posted.slice (posted.lineHome (0x2008 / 128))).dir = [] ∧ posted.poisoned 0x2008 8 = false ∧ posted.me = 0 := by decide +kernel

/-- S8 operands t0 and t4, lines along rows on both sides. -/
def opTiles : Tab TileReg := [(0, { tag := { fmt := some .s8 } }), (4, { tag := { fmt := some .s8 } })]
/-- An MMA of K = 512 (R350): A t0, B t4, rings of one register, counter e5 with its arrival. -/
def mmaW : Nat := 0x50 + 0x400 + 0x1000 + 4 * 2 ^ 24 + 0x33 * 2 ^ 32 + 5 * 2 ^ 40 + 15 * 2 ^ 64
/-- A state whose cluster 0 runs one MMA, with its tile registers. -/
def array (st : SeqState) (m : MmaRun) : State :=
  let k : Cluster := { running with st := st, mma0 := some m, tiles := opTiles }
  { base with clusters := [(0, k), (1, running)] }

/-- The MMA starts with its first 32 K-steps, a promotion interval of S8, and stops at 128 when halted. -/
theorem test_mma_start : (((after (.mmaStart 0) (array .running { w := mmaW, pc := 0 })).cl 0).mma0.map (·.k)) = some 32 ∧
    ((after (.mmaProgressStop 0 128) (array .halting { w := mmaW, pc := 0, started := true, k := 128, corr := 2 })).cl 0).kDone = 128 := by
  decide +kernel
theorem test_mma_complete : ((after (.mmaComplete 0) (array .running
    { w := mmaW, pc := 0, started := true, k := 512, corr := (mmaEntries mmaW).length })).cl 0).ev 5 = 1 := by decide +kernel
theorem wit_TheArrayStartsAdvancesCorrectsAndCompletes :
    ((array .running { w := mmaW, pc := 0 }).cl 0).mmaLimit { w := mmaW, pc := 0 } false = 512 ∧
    mmaBadReg ((array .running { w := mmaW, pc := 0 }).cl 0) { w := mmaW, pc := 0 } = none ∧
    (let m : MmaRun := { w := mmaW, pc := 0, refills := [{ reg := 0, start := 0, covers1 := false }] }
     ((array .running m).cl 0).mmaLimit m false = 0) ∧
    (let m : MmaRun := { w := mmaW, pc := 0, started := true, k := 256, refills := [{ reg := 0, start := 256, covers1 := false, w0 := .done }] }
     let k := (array .running m).cl 0
     k.current = some m ∧ k.findMma m.seq = some m ∧ (m.refills.find? (fun r => decide (m.k ≤ r.start))).map (·.ok) = some true ∧
     256 < k.mmaLimit m false ∧ mmaBadReg k m = none) ∧
    (let m : MmaRun := { w := mmaW, pc := 0, started := true, k := 256, corr := 1 }
     (mmaEntries m.w)[m.corr]? = some (0, 1) ∧ m.corr < enteredCount m.w m.k) ∧
    (let m : MmaRun := { w := mmaW, pc := 0, started := true, k := 128, corr := 2 }
     m.k < mmaK m.w ∧ m.k ≤ m.haltBound ∧ m.k % progressUnit (mmaFmts m.w).1 (mmaFmts m.w).2 = 0 ∧ enteredCount m.w m.k ≤ m.corr) := by
  decide +kernel

/-- A load-unit instruction is the next of cluster 0. -/
def loading (op : LoadOp) : State :=
  let k : Cluster := { running with load0 := some { w := 0x41 + 0x1000 + 5 * 2 ^ 24, pc := 0, op := op } }
  { base with clusters := [(0, k), (1, running)], mem := [(0x400000000003, 0x77)] }

/-- TLM t3 makes its arrival on e5. -/
theorem test_tlm_complete : ((after (.tileLoadComplete 0 []) (loading (.tlm 3 0))).cl 0).ev 5 = 1 := by decide +kernel
/-- A Pour from t1 to t2 with a chain of no stage that asks nothing; its result is known. -/
def pouring : State :=
  let o : PourOut := { regs := [(2, { bytes := [(0, 9)] })] }
  let k : Cluster := { running with pour0 := some { w := 0x58 + 2 ^ 16 + 2 * 2 ^ 24, pc := 0, chain := [], out := some o } }
  { base with clusters := [(0, k), (1, running)] }
theorem test_pour_complete : tabGet 0#8 (((after (.pourComplete 0) pouring).cl 0).tile 2).bytes 0 = 9 ∧
    ((after (.pourComplete 0) pouring).cl 0).pour0 = none := by decide +kernel
theorem wit_PoursAndTileLoadsComplete : ((pouring.cl 0).pour0.bind (·.out)).map (fun o => (o.slot, o.lists, o.vecs)) = some (0, [], []) ∧
    (pouring.cl 0).rtInv = 0#4 ∧ (pouring.cl 0).stepStart = false ∧ fld (0x58 + 2 ^ 16 + 2 * 2 ^ 24) 28 24 < 0x18 ∧
    (∀ l ∈ (pouring.cl 0).loads, l.op.isTable = false) ∧ ((loading (.tlm 3 0)).cl 0).load0.map (·.op) = some (.tlm 3 0) ∧
    (∀ p ∈ ((loading (.lut 1 0)).cl 0).pours, 0 ≤ p.seq) ∧ ((loading (.lut 1 0)).cl 0).load0.map (·.op) = some (.lut 1 0) ∧
    ((loading (.rt 1 0 4)).cl 0).load0.map (·.op) = some (.rt 1 0 4) := by decide +kernel

/-- Slots of cluster 0: q0 loads items of 64 bytes (item 0 under way, item 1 next), q3 loads through window 7, which is not VALID, q1 stores
(item 4 under way to 0x2000), q2 has nothing under way. -/
def streaming : State :=
  let d : StreamDesc := { addr := 0x1000, f10 := 64, f14 := 10, stride := 64, ringBase := 0x8000, ringItems := 4, pfMax := 4 }
  let q0 : Slot := { state := .running, desc := d, dist := 4, fetch := 1, ring := [(0, .flying)] }
  let q1 : Slot := { state := .running, desc := { store := true }, held := [{ idx := 4, addr := 0x2000, bytes := [7, 8], sent := true }] }
  let q3 : Slot := { state := .running, desc := { d with addr := 7 * 2 ^ 48 }, dist := 4 }
  let k : Cluster := { running with slots := [(0, q0), (1, q1), (2, { state := .running }), (3, q3)] }
  { base with clusters := [(0, k), (1, running)], mem := [(0x1000, 0x55)], memsys := { hbmTop := 0x100000 } }

/-- Item 0 lands at ring place 0; the store item reaches 0x2000; a failed request leaves item 0 unfetched. -/
theorem test_stream_items : (after (.streamItemComplete 0 0 0 [] .clean) streaming).byte 0x400000008000 = 0x55 ∧
    (after (.streamItemComplete 0 1 4 [] .clean) streaming).byte 0x2001 = 8 ∧
    tabFind (((after (.streamRequestFail 0 0 0 1) streaming).cl 0).slot 0).ring 0 = some .unfetched ∧
    ((after (.streamRequestFail 0 1 4 1) streaming).cl 0).cause = 6 := by decide +kernel
theorem wit_StreamSlotsMoveTheirItems : let k := streaming.cl 0
    streaming.clocked = true ∧ (k.slot 0).state = .running ∧ (k.slot 0).fetch < (k.slot 0).desc.f14 ∧ (k.slot 0).fetch - (k.slot 0).take < 4 ∧
    k.hold = .none ∧ streaming.translate 0 0x1040 64 false = some (0, 0x1040) ∧ tabFind (k.slot 0).ring 0 = some .flying ∧
    streaming.translate 0 (7 * 2 ^ 48) 64 false = none ∧ streaming.place 0x2000 = .hbm ∧ (k.slot 2).flying = false ∧ (k.slot 2).held = [] ∧
    ((k.slot 1).held.find? (fun z => decide (z.idx = 4) && z.sent)).map (·.dev) = some streaming.me ∧ k.fault = false ∧
    ((streaming.setCl 0 { k with st := .halted }).cl 0).st ≠ .running := by decide +kernel

/-! ### Rereads, phases, publication -/

/-- The first 64 translation entries at 0x1000: entry 1 is VALID (bit 122), entry 2 has a reserved bit set (63). -/
def rereading : State :=
  let k : Cluster := { running with transInv := true, transBase := 0x1000, rts := [(1, { channels := 2, addr := 0x40 })] }
  { base with clusters := [(0, k), (1, running)], mem := [(0x101F, 4), (0x1027, 0x80)], memsys := { hbmTop := 0x100000 } }
theorem test_translation_reread : ((after (.translationRereadComplete 0) rereading).cl 0).transBad = true ∧
    (after (.translationRereadComplete 0) rereading).window 0 1 = transOf (4 * 2 ^ 120) ∧ (transOf (4 * 2 ^ 120)).valid = true ∧
    ((after (.translationRereadComplete 0) rereading).window 0 2).valid = false := by decide +kernel
theorem wit_TablesAndTranslationsAreReread : rereading.absent 0 = false ∧ (rereading.cl 0).fenced = false ∧ rereading.absent 9 = true ∧
    (rereading.cl 0).transInv = true ∧ (rereading.cl 0).rtInv = 0#4 ∧ (rereading.cl 0).pour0 = none ∧ (rereading.cl 0).rtLoaded 1 = true ∧
    (pouring.cl 0).pour0.all (fun p => decide (p.seq < 1)) = true ∧ (rereading.cl 0).rtLoaded 0 = false := by decide +kernel

/-- A job of one step kind with all five phases runs; phase 1, cluster 0 has arrived. -/
def jobRuns1 : State :=
  let st : StepSt := { phase := 1, arrived := [0], kind := 0, number := 7 }
  { base with job := { state := .running, sched := { kinds := [{ mask := 31, pref := [7, 6, 5, 4, 3] }], pattern := [0], stallMs := 1 } }, step := st }
theorem test_phase_arrive : (after (.phaseArrive 1 1) jobRuns1).step.phase = 2 ∧ (after (.phaseArrive 1 2) jobRuns1).step.skew = true ∧
    (after (.phaseArrive 1 2) jobRuns1).step.phase = 1 := by decide +kernel
/-- A stall of 1 ms is none at 1,000,000 ns and one at 1,000,001 ns (R375). -/
theorem test_stall : (after .stall { jobRuns1 with now := 1000000 }).step.failing = false ∧
    (after .stall { jobRuns1 with now := 1000001 }).step.failing = true := by decide +kernel
/-- A job whose owned region is 32 bytes at 0x1000 with generation 1 in copy. -/
def copying : State :=
  let ss : StreamSt := { logBase := 0x8000, gen1 := { state := .pre, u := 1 }, regions := [{ shard := 0, kind := 1, addr := 0x1000, bytes := 32, boff := 0 }] }
  { jobRuns1 with ss := ss, mem := [(0x1000, 9)], memsys := { hbmTop := 0x100000 } }
theorem test_preimage : (after .preimageCopyComplete copying).byte 0x8020 = 9 ∧ (after .preimageCopyComplete copying).ss.gen1.copied = true := by
  decide +kernel
theorem wit_PhasesCollectArrivalsAndStallsStopTheJob : jobRuns1.jobRuns = true ∧ jobRuns1.absent 1 = false ∧ (jobRuns1.cl 1).fenced = false ∧
    (1 ∉ jobRuns1.step.arrived) ∧ jobRuns1.present = [0, 1] ∧ jobRuns1.phaseAfter 1 = some 2 ∧ (0 ∈ jobRuns1.step.arrived) ∧
    (∃ w ∈ State.waits { jobRuns1 with now := 1000001 }, 1000000 < w) ∧ (∀ w ∈ State.waits { jobRuns1 with now := 1000000 }, w ≤ 1000000) ∧
    copying.genBaseAddr 1 = 0x8020 ∧ (copying.gen 1).state = .pre ∧ base.jobRuns = false := by decide +kernel

/-- Rank 0 owns shard 5 (slot 2, image of 32 bytes at 0x1000) and replicates shard 6 of rank 1 at 0x2000; phase UPDATE; PUB_BASE is 0x8000. -/
def publishing : State :=
  let own : Shard := { id := 5, owner := 0, slot := 2, slow := false, delay := 0, momS8 := false, factored := false, opt := 0, bytes := 32, image := 0x1000, master := 0, moment := 0, factor := 0, pend := 0, desc := 0, descCount := 0 }
  let door : Doorbell := { slot := 2, cluster := 0, ev := 5, evEn := true, version := 7 }
  let f : Fetch := { post := 0, entry := 1, stage := 1, lastRead := 100 }
  let st : StepSt := { phase := 3, updateBegun := true, number := 7, doorbells := [door], fetches := [f] }
  let job : JobSt := { state := .running, ranks := [0, 1], pubBase := 0x8000, shards := [own, { own with id := 6, owner := 1, slot := 3, image := 0x2000 }] }
  let fab : Fabric := { posts := [{ id := 0, owner := 0, desc := { kind := 2, verify := true } }] }
  { base with job := job, step := st, fab := fab, memsys := { hbmTop := 0x100000 } }
theorem test_publication : (after (.pubDoorbell 0 2) publishing).step.doorbells.length = 2 ∧ (after (.pubDoorbell 0 3) publishing).step.pubRefused = true ∧
    (after (.publicationRecordWrite 2) publishing).byte 0x8040 = 5 ∧ (after (.publicationRecordWrite 2) publishing).byte 0x8048 = 7 ∧
    ((after (.publicationRecordWrite 2) publishing).cl 0).ev 5 = 1 := by decide +kernel
/-- A verified fetch at one stage, at a time. -/
def fetchAt (n stage reads digest : Nat) : State :=
  { publishing with now := n, step := { publishing.step with fetches := [{ post := 0, entry := 1, stage := stage, reads := reads, lastRead := 100, digest := digest }] } }
theorem test_fetch_recheck : after (.verifiedFetchRecheck 0) (fetchAt 20099 1 0 0) = fetchAt 20099 1 0 0 ∧
    (after (.verifiedFetchRecheck 0) (fetchAt 20100 1 0 0)).step.fetches.map (·.stage) = [0] := by decide +kernel
theorem wit_PublicationAndVerifiedFetch : publishing.jobRuns = true ∧ (∃ e ∈ publishing.owned, e.slot = 2) ∧ (¬∃ e ∈ publishing.owned, e.slot = 3) ∧
    publishing.step.doorbells.find? (fun d => decide (d.slot = 2)) = some { slot := 2, cluster := 0, ev := 5, evEn := true, version := 7 } ∧
    publishing.poisoned 0x1000 32 = false ∧ publishing.job.pubBase + 32 * 2 + 32 ≤ 0x1000 + 0x10000 ∧
    ((fetchAt 0 1 0 0).fetchOf 0).map (fun x => (x.1.stage, x.2.2.id)) = some (1, 6) ∧ (∀ o ∈ publishing.fab.ops, o.origin ≠ .post 0) ∧
    (let g := imageDigest 6 0 (publishing.bytes 0x2000 32)
     ((fetchAt 0 2 1 g).fetchOf 0).map (fun x => (x.1.stage, x.1.reads, decide (x.1.digest = g))) = some (2, 1, true)) ∧
    imageDigest 6 0 (publishing.bytes 0x2000 32) ≠ 0 ∧
    (let g := imageDigest 6 0 (List.replicate 32 1#8)
     ((fetchAt 0 5 3 g).fetchOf 0).map (fun x => decide (imageDigest x.2.2.id x.1.version (List.replicate 32 1#8) = x.1.digest)) = some true) := by
  decide +kernel

/-! ### The twin, coherence, stacks -/

/-- 32 bytes of 1. -/
def ones32 : List Byte := List.replicate 32 1
/-- A DELTA of device 1 for the first 32 bytes of a region: its map flags the one sector, which holds ones. -/
def deltaRec : Record :=
  { type := 1, region := 1, shard := 5, step := 8, seq := 3, origin := 1, length := 32, payload := 1 :: List.replicate 31 0 ++ ones32,
    oldDig := rangeDigest 5 1 0 (List.replicate 32 0), newDig := rangeDigest 5 1 0 ones32 }
/-- This device holds the backup of device 1 at 0x10000, 4,096 bytes; record 3 of a binding has been applied or not. -/
def twinState (log : List Record) (applied : List Nat) : State :=
  { base with ss := { binding := some { base := 0x10000, bytes := 4096, tlogBase := 0x20000, tlogBytes := 4096, source := 1, log := log, applied := applied } },
              memsys := { hbmTop := 0x100000 } }
theorem test_delta : (after (.deltaRecord deltaRec) (twinState [] [])).byte 0x1001F = 1 ∧
    ((after (.deltaRecord deltaRec) (twinState [] [])).ss.binding.map (·.applied)) = some [3] ∧
    (after (.deltaRecord { deltaRec with oldDig := 0 }) (twinState [] [])).ss.msgs.map (fun m => (m.1, m.2.type)) = [(1, 0x12)] ∧
    (after (.deltaRecord { deltaRec with newDig := 0 }) (twinState [] [])).ss.msgs.map (fun m => (m.1, m.2.type)) = [(1, 0x11)] := by decide +kernel
theorem test_end_rollback : (after (.endRecord { type := 3, step := 8, origin := 1, length := 1, offset := 3 }) (twinState [deltaRec] [3])).ss.msgs.map (fun m => (m.1, m.2.type)) =
      [(1, 0x10)] ∧
    (after (.rollbackRecord { type := 5, step := 7, origin := 1 }) (twinState [deltaRec] [3])).byte 0x10000 = 1 ∧
    ((after (.commitRecord { type := 4, step := 8, origin := 1 }) (twinState [deltaRec] [3])).ss.binding.map (·.log)) = some [] := by decide +kernel
theorem wit_TheTwinAppliesRecords : (twinState [] []).ss.binding.map (·.source) = some deltaRec.origin ∧ 3 ∉ ([] : List Nat) ∧
    rangeDigest 5 1 0 ((twinState [] []).bytes 0x10000 32) = deltaRec.oldDig ∧
    rangeDigest 5 1 0 (xorBytes ((twinState [] []).bytes 0x10000 32) (decodeSectors 32 deltaRec.payload)) = deltaRec.newDig ∧
    deltaRec.boff + deltaRec.length ≤ 4096 ∧ (twinState [] []).poisoned 0x10000 32 = false ∧ rangeDigest 5 1 0 ones32 ≠ 0 ∧
    4096 < ({ deltaRec with boff := 4065 } : Record).boff + 32 ∧ (∀ i, i < 1 → 3 + i ∈ [3]) ∧ (∃ i, i < 2 ∧ 3 + i ∉ [3]) ∧
    [deltaRec].filter (fun x => decide (7 < x.step)) = [deltaRec] := by decide +kernel

/-- An origin whose twin is device 1, with record 3 of step 8 sent; NAKs of it are counted. -/
def origin : State :=
  { base with ss := { twin := 2, twinDev := 1, sent := [deltaRec], ended := 9, exportOn := true }, mem := [(0x1000, 5)], memsys := { hbmTop := 0x100000 } }
theorem test_origin : (after (.stepAck { type := 0x10, step := 8, origin := 1 }) origin).ss.acked = 9 ∧
    (after (.stepAck { type := 0x10, step := 7, origin := 1 }) origin).ss.acked = 7 ∧
    (after (.nakNew { type := 0x11, seq := 3, origin := 1 }) origin).ss.unsent.map (·.type) = [1] ∧
    (after (.nakOld { type := 0x12, seq := 3, origin := 1 }) origin).ss.unsent.map (·.type) = [2] ∧
    (after .exportLag origin).ss.exportLag = true := by decide +kernel
theorem wit_TheOriginFollowsItsTwin : origin.ss.twin ≠ 0 ∧ origin.ss.twin ≠ 3 ∧ base.ss.twin = 0 ∧ origin.ss.formed = [] ∧ origin.ss.unsent = [] ∧
    origin.step.phase ≠ 6 ∧ origin.step.endAfter = none ∧ origin.ss.sent.find? (fun x => decide (x.seq = 3)) = some deltaRec ∧
    origin.jobRuns = false ∧ State.jobRuns { origin with job := { state := .running } } = true ∧ base.ss.exportOn = false ∧
    ((twinState [] []).ss.binding.map (fun b => (b.source, b.committed))) = some (1, 0) := by decide +kernel

/-- Slice 0 with a request of cluster 0 for line 8, which byte 1,024 begins; the second state's line is owned by cluster 1. -/
def coherent (dir : List DirEntry) (reqs : List LineReq) (cache1 : Tab CacheLine) (h : Hold) : State :=
  let k0 : Cluster := { running with hold := h, s := [(2, 0x400)] }
  let k1 : Cluster := { running with cache := cache1 }
  { base with clusters := [(0, k0), (1, k1)], mem := [(0x400, 0x2A)], memsys := { hbmTop := 0x100000, slices := [(0, { dir := dir, reqs := reqs })] } }
/-- A request of cluster 0 for line 8 with ownership. -/
def req8 : LineReq := { line := 8, who := 0, own := true }
theorem test_coherence : let t := after (.coherenceRequest 0) (coherent [] [req8] [] (.line (iword 0x18 0x20103)))
    (t.cl 0).sreg 1 = 0x2A ∧ (t.cl 0).pc = 16 ∧ (t.slice 0).dir = [{ line := 8, owner := some 0 }] ∧ (t.slice 0).ptr = 1 := by decide +kernel
theorem test_recall : let s := coherent [{ line := 8, owner := some 1 }] [req8] [(8, { st := .exclusive, data := List.replicate 128 0 })] .none
    ((after (.coherenceRequest 0) s).slice 0).reqs.map (·.recalled) = [some 1] ∧
    tabFind ((after (.recallAnswer 0 8) (after (.coherenceRequest 0) s)).cl 1).cache 8 = none := by decide +kernel
theorem wit_CoherenceRequestsAreOrderedAndAnswered :
    (∀ q ∈ [req8], q ≠ req8 → (req8.who + 260 - 0) % 260 < (q.who + 260 - 0) % 260) ∧
    (let s := coherent [] [req8] [] (.line (iword 0x18 0x20103))
     tabFind (s.cl 0).cache 8 = none ∧ (s.cl 0).accAddr (iword 0x18 0x20103) / 128 = 8 ∧ accStore (iword 0x18 0x20103) = false ∧ s.poison = []) ∧
    (accStore (iword 0x19 (0x20003 + 2 ^ 24 * 3)) = true ∧ ((coherent [] [req8] [] .none).cl 0).accAddr (iword 0x19 (0x20003 + 2 ^ 24 * 3)) / 128 = 8) ∧
    (let s := coherent [{ line := 8, owner := some 1 }] [{ req8 with recalled := some 1 }] [(8, { st := .exclusive, data := [] })] .none
     s.lineHome 8 = 0 ∧ tabFind (s.cl 1).cache 8 = some { st := .exclusive, data := [] } ∧
     (∀ r ∈ (s.slice 0).reqs, ∃ q ∈ (s.slice 0).reqs, q.line = r.line ∧ q.recalled ≠ none)) ∧
    (let e : DirEntry := { line := 8, owner := none, sharers := [0, 1] }
     (coherent [e] [req8] [] .none).slice 0 = { dir := [e], reqs := [req8] }) := by decide +kernel

/-- Stack 2 with a request of 4 sectors of partition 3, which has a bucket of 16 sectors and, or not, credit. -/
def stacked (cred tok : Int) : State :=
  let x : Stack := { queue := [{ part := 3, sectors := 4 }], parts := [(3, { min := 64, cap := 10, burst := 16, tok := tok, cred := cred })], temp := 99, level := 2 }
  { base with memsys := { channels := [0], stks := [(2, { x with level := 0 }), (4, x)], hbmTop := 0x100000 }, now := 10000000 }
/-- A refill of CAP 10 gives 3.125 sectors, 50 sixteenths; an admission takes 4 sectors and credit 4 × 64 / 256 less 4. -/
theorem test_regulator : (((after .regulatorTokenRefill (stacked 0 0)).stack 2).part 3).tok = 50 ∧
    (((after .regulatorTokenRefill (stacked 0 250)).stack 2).part 3).tok = 256 ∧
    (((after (.regulatorAdmit 2) (stacked 1024 256)).stack 2).part 3).tok = 192 ∧ ((after (.regulatorAdmit 2) (stacked 1024 256)).stack 2).last1 = 3 ∧
    ((after (.regulatorAdmit 2) (stacked 255 256)).stack 2).last1 = 15 ∧ ((after (.regulatorAdmit 2) (stacked 255 16)).stack 2).last2 = 3 ∧
    after (.regulatorAdmit 2) (stacked 0 15) = stacked 0 15 := by decide +kernel
/-- 100 °C is LEVEL 3, left at 95 °C or below, not at 96 °C. -/
theorem test_stack_temp : ((after (.stackTempRead 4 100) (stacked 0 0)).stack 4).level = 3 ∧
    ((after (.stackTempRead 4 96) (after (.stackTempRead 4 100) (stacked 0 0))).stack 4).level = 3 ∧
    ((after (.stackTempRead 4 95) (after (.stackTempRead 4 100) (stacked 0 0))).stack 4).level = 2 ∧
    ((after (.stackTempMissing 4) (stacked 0 0)).stack 4).level = 3 := by decide +kernel
theorem wit_StacksAdmitScrubAndThrottle : ((stacked 1024 256).stack 2).level = 0 ∧ 256 ≤ (((stacked 1024 256).stack 2).part 3).cred ∧
    (∀ p, p < 16 → ¬((∃ r ∈ ((stacked 0 15).stack 2).queue, r.part = p) ∧ 16 ≤ (((stacked 0 15).stack 2).part p).tok)) ∧
    (stacked 0 0).memsys.channels ≠ [] ∧ base.memsys.channels = [] ∧ ((stacked 0 0).stack 4).missing = false ∧
    ((stacked 0 0).stack 4).lastRead + 10000000 ≤ (stacked 0 0).now ∧ (stacked 0 0).place (stacked 0 0).memsys.scrub = .hbm := by decide +kernel

/-! ### Lanes and frames -/

/-- Lanes in a state, with 17 dBm on both inputs of every engine, 100 ms after they went down. -/
def lanes (st : LaneState) (x : LaneSt) : State :=
  { base with fab := { lanes := [(0, { x with state := st }), (1, { state := .up })], engines := (List.range 16).map fun e => (e, { la := 1700, lb := 1700 }) },
              boot := { base.boot with stage := 3 }, now := 60100000000, units := units2 ++ [(unitId 4 0, { state := .active, fence := false })] }
theorem test_lane_light : ((after (.laserPowerChange 0 false 1599) (lanes .up {})).lane 0).laserLow = true ∧
    ((after (.laserPowerChange 0 false 1599) (lanes .up {})).lane 0).state = .up ∧ ((after (.laserPowerChange 0 false 1400) (lanes .up {})).lane 0).state = .up ∧
    ((after (.laserPowerChange 0 false 1399) (lanes .up {})).lane 0).state = .down := by decide +kernel
theorem test_lane_link : ((after (.laneDown 0 3) (lanes .up {})).lane 0).flap = true ∧ ((after (.laneUp 0) (lanes .down { downAt := 60000000000 })).lane 0).state = .up ∧
    ((after (.laneUp 0) (lanes .down { downAt := 60000000001 })).lane 0).state = .down ∧
    ((after (.laneLoopback 0 false) (lanes .down { test := true, failures := 1 })).lane 0).state = .out ∧
    ((after (.laneLoopback 0 false) (lanes .down { test := true, failures := 2 })).lane 0).state = .retired := by decide +kernel
theorem wit_LanesFollowTheirLightAndLink : ((lanes .up {}).lane 0).state = .up ∧ (lanes .up {}).lanePower 0 = 1700 ∧
    (lanes .down {}).clocked = true ∧ (lanes .down {}).boot.stage = 3 ∧ ((lanes .down {}).unit (unitOfLane 0)).state ≠ .retired ∧ (lanes .down {}).ras.hist = [] ∧
    (let s := (lanes .out { failures := 1, fenced := true, testAt := 100000000 }).setUnit (unitOfLane 0) { state := .fenced }
     (s.unit (unitOfLane 0)).state = .fenced ∧ 0 < (s.lane 0).failures ∧ (s.lane 0).testAt + 60000000000 ≤ s.now ∧ (s.lane 0).fenced = true) := by
  decide +kernel

/-- A packet of an OP from device 1 with its first PSN. -/
def packet (op : Nat) (addr : Nat) (payload : List Byte) : Packet := { op := op, src := 1, epoch := 7, addr := addr, job := 3, payload := payload }
/-- A frame with a packet that lane 0 receives. -/
def frame (s : State) (p : Packet) : Frame := { dst := s.mac 0, src := s.mac 0 / 2 ^ 24 * 2 ^ 24 + 5, etype := 0x88B5, body := p.bytes }
theorem test_frame_receive : let s := lanes .up {}
    (after (.frameReceive 0 (frame s (packet 1 0 []))) s).fab.rx.length = 1 ∧
    ((after (.frameReceive 0 { frame s (packet 1 0 []) with fcsOk := false }) s).lane 0).badFcs = 1 ∧
    ((after (.frameReceive 0 { frame s (packet 1 0 []) with dst := 5 }) s).lane 0).misplane = 1 ∧
    (after (.frameReceive 0 { frame s (packet 1 0 []) with etype := 0x1234 }) s).fab.other = 1 := by decide +kernel
/-- The sixteenth misplaned frame within 1 s takes the lane OUT; sixteen of which the first is 1 s old do not. -/
theorem test_misplaned : let s (t : Nat) := lanes .up { misTimes := List.replicate 14 60000000000 ++ [t] }
    ((after (.frameReceive 0 { frame (s 59100000001) (packet 1 0 []) with dst := 5 }) (s 59100000001)).lane 0).miscabled = true ∧
    ((after (.frameReceive 0 { frame (s 59100000000) (packet 1 0 []) with dst := 5 }) (s 59100000000)).lane 0).state = .up := by decide +kernel
theorem wit_ReceivedFramesAreSorted : let s := lanes .up {}
    (s.lane 0).state = .up ∧ s.clocked = true ∧ (frame s (packet 1 0 [])).fcsOk = true ∧ (frame s (packet 1 0 [])).etype = s.fab.etype ∧
    packetOf (frame s (packet 1 0 [])).body = some (packet 1 0 []) ∧ knownOp 1 = true ∧ knownOp 0x13 = false ∧
    packetOf (packet 0x13 0 []).bytes = some (packet 0x13 0 []) ∧ packetOf [] = none ∧
    (frame s (packet 1 0 [])).src / 2 ^ 24 = s.mac 0 / 2 ^ 24 ∧ s.fab.etype ≠ 0x0800 ∧ ((lanes .down {}).lane 0).state ≠ .up := by decide +kernel

/-! ### Packets -/

/-- A packet waits on lane 0, with a context of its source that has received none. -/
def rxState (p : Packet) (x : RecvCtx) : State :=
  { base with job := { state := .running, tag := 3, ranks := [0, 1] },
              fab := { rx := [(0, p.bytes)], recv := [(1, x)], lanes := (List.range 144).map fun i => (i, { state := .up }) },
              mem := [(0x1000, 5)], memsys := { hbmTop := 0x100000 } }
theorem test_write_in_order : (after (.write 0 (packet 1 0x1000 [7, 8])) (rxState (packet 1 0x1000 [7, 8]) { epoch := 7 })).byte 0x1001 = 8 ∧
    (after (.write 0 (packet 1 0x1000 [7, 8])) (rxState (packet 1 0x1000 [7, 8]) { epoch := 7, cum := 1 })).byte 0x1001 = 0 ∧
    (after (.write 0 { packet 1 0x1000 [7] with job := 4 }) (rxState { packet 1 0x1000 [7] with job := 4 } { epoch := 7 })).fab.denied = 1 := by
  decide +kernel
/-- FETCH_ADD of 3 to 5; an ADD to EV_ADD of e5 of cluster 1 is an arrival, a SWAP there is refused. -/
theorem test_remote_atomics : let arg := leBytes 8 3 ++ leBytes 8 0
    (after (.atomicFetchAdd 0 (packet 9 0x1000 arg)) (rxState (packet 9 0x1000 arg) { epoch := 7 })).byte 0x1000 = 8 ∧
    ((after (.atomicAdd 0 (packet 8 0x500000010628 arg)) (rxState (packet 8 0x500000010628 arg) { epoch := 7 })).cl 1).ev 5 = 3 ∧
    (after (.atomicSwap 0 (packet 0xA 0x500000010628 arg)) (rxState (packet 0xA 0x500000010628 arg) { epoch := 7 })).fab.denied = 1 := by
  decide +kernel
theorem wit_EachPacketTakesEffectAtMostOnce : let s := rxState (packet 1 0x1000 [7]) { epoch := 7, cum := 5, got := [7] }
    (∃ e ∈ s.fab.rx, e.1 = 0 ∧ packetOf e.2 = some (packet 1 0x1000 [7])) ∧ s.recvCtx (rxKey 0 (packet 1 0x1000 [7])) = some { epoch := 7, cum := 5, got := [7] } ∧
    signed 32 ((0 + 2 ^ 32 - 5 % 2 ^ 32) % 2 ^ 32) < 0 ∧ signed 16 ((7 + 65536 - 8) % 65536) < 0 ∧ ¬signed 16 ((7 + 65536 - 7) % 65536) < 0 ∧
    s.ackLane 1 0 ≠ none ∧ signed 32 ((4096 + 5 + 2 ^ 32 - 5) % 2 ^ 32) = 4096 ∧ State.recvCtx { s with fab := { s.fab with recv := [] } } 1 = none := by
  decide +kernel
theorem wit_RemoteRequestsActOnMemory : let p := packet 1 0x1000 [7, 8]; let s := rxState p { epoch := 7 }
    (∃ e ∈ s.fab.rx, e.1 = 0 ∧ packetOf e.2 = some p) ∧ s.recvCtx (rxKey 0 p) = some { epoch := 7 } ∧ p.psn = 0 ∧ s.jobOk p = true ∧
    s.jobOk { p with job := 4 } = false ∧ s.refuses 0x1000 2 = none ∧ s.refuses 0xFFFFF 2 = some 1 ∧ s.poisoned 0x1000 8 = false ∧
    s.place 0x500000010628 = .csr 1 0x628 ∧ s.place 0x5000000107F8 = .csr 1 0x7F8 ∧ s.absent 1 = false ∧ (s.cl 1).fenced = false ∧
    (s.slice (s.lineHome (0x1000 / 128))).dir.find? (fun e => decide (e.line = 0x1000 / 128)) = none := by decide +kernel
/-- An operation of post 0 to device 1 for which bytes or a status come back; a collective of members 0 and 1 with 32 bytes each. -/
def answering (p : Packet) (o : Origin) (coll : Bool) : State :=
  let d : PostDesc := if coll then { kind := 0x11, count := 64, loc := 0x2000, collId := 9, format := 0 } else { kind := 2 }
  let post : Post := { id := 0, owner := 0, desc := d, coll := if coll then some { members := [0, 1], me := 0 } else none }
  let s := rxState p { epoch := 7 }
  { s with fab := { s.fab with ops := [{ opid := 4, dest := 1, origin := o, left := 0, toReturn := 8 }], posts := [post] } }
/-- A packet that carries OPID 4. -/
def reply (op addr : Nat) (payload : List Byte) : Packet := { packet op addr payload with aux := 4 }
theorem test_read_data : let p := reply 0x10 0x1000 (leBytes 8 9)
    (after (.readData 0 p) (answering p (.post 0) false)).byte 0x1000 = 9 ∧ (after (.readData 0 p) (answering p (.post 0) false)).fab.ops = [] := by
  decide +kernel
theorem test_status : let p := reply 0x12 1 []
    ((after (.status 0 p) (answering p (.signal 0) false)).cl 0).cause = 6 ∧ ((after (.status 0 p) (answering p (.post 0) false)).cl 0).cause = 10 := by
  decide +kernel
theorem wit_ResponsesAndCollectiveDataAreTaken : let p := reply 0x10 0x1000 (leBytes 8 9); let q := reply 0x18 (9 * 2 ^ 32) []
    ((answering p (.post 0) false).opOf p).map (·.opid) = some 4 ∧ (answering p (.post 0) false).opOf { p with aux := 5 } = none ∧
    (answering p (.post 0) false).refuses 0x1000 8 = none ∧ (∀ f ∈ (answering p (.post 0) false).step.fetches, f.stage ≠ 0) ∧
    (((answering p (.signal 0) false).opOf (reply 0x12 1 [])).map (·.origin)) = some (.signal 0) ∧
    (((answering p (.item 0 1 2) false).opOf (reply 0x12 1 [])).map (·.origin)) = some (.item 0 1 2) ∧ (answering q (.post 0) true).jobOk q = true ∧
    ((answering q (.post 0) true).fab.posts.find? (fun x => decide (x.desc.collId = 9) && x.coll.isSome)).map (·.id) = some 0 ∧
    1 ∈ [0, 1] ∧ 2 ∉ [0, 1] ∧ q.addr / 2 ^ 32 = 9 ∧ (∀ x ∈ (answering q (.post 0) false).fab.posts, x.desc.collId = 9 → x.coll = none) := by
  decide +kernel

/-! ### Contexts, Huddle, the tick, Relay -/

/-- A packet sent and not acknowledged. -/
def sentPkt (psn retx : Nat) : SentPkt := { pkt := { op := 1, psn := psn }, opid := psn, sentAt := 100000, plane := 3, retx := retx }
/-- A send context to device 1 with packets 0 and 1 outstanding, and a receive context with 2 packets not acknowledged. -/
def contexts (p : Packet) (now retx : Nat) : State :=
  let ops : List FabOp := [{ opid := 0, dest := 1, origin := .nganor, left := 1 }, { opid := 1, dest := 1, origin := .nganor, left := 1 }]
  let x : SendCtx := { epoch := 7, nextPsn := 2, out := [sentPkt 0 retx, sentPkt 1 retx], w := 64 }
  let r : RecvCtx := { epoch := 7, cum := 5, got := [7], unacked := 2, firstUnacked := 100000, lastArrival := 100000, lane := 0 }
  { base with now := now, fab := { rx := [(0, p.bytes)], send := [(1, x)], recv := [(1, r)], ops := ops, lanes := (List.range 144).map fun i => (i, { state := .up }) } }
/-- An ACK with CUM 1 ends packet 0 and its operation. -/
def ackPkt : Packet := { op := 0x40, cls := 0, src := 1, epoch := 7, psn := 1, aux := 1 }
theorem test_ack : ((after (.ack 0 ackPkt) (contexts ackPkt 0 0)).sendCtx 1).map (fun x => x.out.map (·.pkt.psn)) = some [1] ∧
    (after (.ack 0 ackPkt) (contexts ackPkt 0 0)).fab.ops.map (·.opid) = [1] := by decide +kernel
/-- Packet 0 goes again at 20 µs, on another plane; after four retransmissions the timer is 200 µs. -/
theorem test_retransmit : (after (.retransmitTimeout 1 0) (contexts ackPkt 119999 0)).fab.retxCnt = 0 ∧
    (after (.retransmitTimeout 1 0) (contexts ackPkt 120000 0)).fab.tx.map (·.lane) = [4] ∧
    (after (.retransmitTimeout 1 0) (contexts ackPkt 299999 4)).fab.retxCnt = 0 ∧ (after (.retransmitTimeout 1 0) (contexts ackPkt 300000 16)).fab.giveup = 1 := by
  decide +kernel
theorem wit_AcknowledgementsWindowsAndRetransmissions : (contexts ackPkt 0 0).sendCtx 1 ≠ none ∧ rxKey 0 ackPkt = 1 ∧
    (∃ e ∈ (contexts ackPkt 0 0).fab.rx, e.1 = 0 ∧ packetOf e.2 = some ackPkt) ∧ bitN ackPkt.flags 2 = false ∧ bitN 4 2 = true ∧
    (∀ q ∈ [sentPkt 0 0, sentPkt 1 0], ∀ r ∈ [sentPkt 0 0, sentPkt 1 0], r.sentAt ≤ q.sentAt + 4000) ∧
    (contexts ackPkt 0 0).nextPlane 1 { epoch := 7, w := 64, excl := [(3, 1120000)] } 4 = some 4 := by decide +kernel
theorem test_ack_timer : after (.ackTimer 1) (contexts ackPkt 101999 0) = contexts ackPkt 101999 0 ∧
    (after (.ackTimer 1) (contexts ackPkt 102000 0)).fab.tx.map (fun f => (f.pkt.psn, f.pkt.addr)) = [(5, 2)] ∧
    (after (.receiveContextFree 1) (contexts ackPkt 4099999 0)).fab.recv ≠ [] ∧ (after (.receiveContextFree 1) (contexts ackPkt 4100000 0)).fab.recv = [] := by
  decide +kernel
/-- A send context that has been idle since 0, while an operation waits for one to device 2. -/
def idleCtx : State :=
  { base with now := 100000, fab := { send := [(1, { epoch := 7, w := 64, excl := [(3, 5)] })], blocked := [(2, 9, packet 1 0 [])], wInit := 64,
                                      lanes := [(0, { state := .up })] } }
theorem wit_ContextsAreAcknowledgedAndFreed : (contexts ackPkt 0 0).recvCtx 1 ≠ none ∧ (contexts ackPkt 0 0).recvCtx 2 = none ∧
    (contexts ackPkt 0 0).ackLane 1 0 = some 0 ∧ (idleCtx.sendCtx 1).map (fun x => (x.out, x.waiting, x.idleSince)) = some ([], [], 0) ∧
    idleCtx.sendCtx 2 = none ∧ idleCtx.fab.blocked = [(2, 9, packet 1 0 [])] ∧ base.fab.blocked = [] ∧
    ((tabDel idleCtx.fab.send 1).filter (fun q => keyControl q.1 == keyControl 2)).length < 16384 := by decide +kernel

/-- A block of operation 4: one value, ADD. -/
def block4 (v : Nat) : OpBlock := { seq := 4, ops := [0], parts := 1, vals := [v] }
/-- A frame of the tree of three ranks, from the device of rank 1, or 0. -/
def treeFrame (op flags src : Nat) (b : OpBlock) : Packet := { op := op, flags := flags, src := src, epoch := 7, job := 3, payload := b.bytes }
/-- Ranks 0 to 2 are devices 0 to 2; this one is `rank`, which holds operation 4 with value 10 of its own, in slot 0. -/
def treeState (rank : Nat) (p : Packet) : State :=
  let x : PostSlot := { ops := 0, state := 1, seq := 4, count := 1, ev := 5, evEn := true, cluster := 0 }
  let op : HudOp := { sys := p.sys, seq := 4, own := true, block := block4 10, upAt := if rank = 0 then none else some 0, from_ := if rank = 0 then [2] else [] }
  let hud : HuddleSt := { treeEpoch := 7, slots := [(0, x)], seqProg := 5, ops := [op], sysKinds := [(4, .verdict)] }
  { base with job := { state := .running, tag := 3, rank := rank, ranks := [0, 1, 2] }, hud := hud,
              step := { phase := 5, number := 7, kind := 0 },
              fab := { rx := [(128, p.bytes)], device := rank, lanes := (List.range 144).map fun i => (i, { state := .up }) }, mem := [] }
/-- The root adds 32 of rank 1 to its 10 and completes its slot with 42 and the arrival. -/
theorem test_huddle_root : let p := treeFrame 0x60 0 1 (block4 32)
    tabGet 0 ((after (.hUp 128 p) (treeState 0 p)).slotHp 0).vals 0 = 42 ∧ ((after (.hUp 128 p) (treeState 0 p)).slotHp 0).state = 2 ∧
    ((after (.hUp 128 p) (treeState 0 p)).cl 0).ev 5 = 1 := by decide +kernel
/-- A leaf takes the result from its parent; the second copy does nothing; H_UP goes again at 20 µs. -/
theorem test_huddle_leaf : let p := treeFrame 0x61 0 0 (block4 42); let s := treeState 1 p; let t := after (.hDown 128 p) s
    tabGet 0 (t.slotHp 0).vals 0 = 42 ∧ t.hud.ops = [] ∧
    (after (.hUpResend false 4) { s with now := 20000 }).fab.tx.map (·.lane) = [132, 140] ∧ after (.hUpResend false 4) { s with now := 19999 } = { s with now := 19999 } := by
  decide +kernel
theorem wit_HuddleContributionsCombineAndComplete : let p := treeFrame 0x60 0 1 (block4 32); let s := treeState 0 p
    (∃ e ∈ s.fab.rx, e.1 = 128 ∧ packetOf e.2 = some p) ∧ (p.copyKey, (blockOf p.payload).seq, 1 - p.copy) ∉ s.hud.seen ∧ s.inTree p = true ∧
    s.rankOf p.src = some 1 ∧ treeChildren 3 0 = [1, 2] ∧ (∀ d ∈ s.doneOps p.sys, d.seq ≠ 4) ∧ (s.hud.ops.map (·.upAt)) = [none] ∧
    (∀ d ∈ [1, 2], d = 1 ∨ d ∈ [2]) ∧ s.inTree { p with epoch := 8 } = false ∧ (s.hud.slots.map (fun q => (q.2.state, q.2.seq))) = [(1, 4)] ∧
    (let q := treeFrame 0x61 0 0 (block4 42)
     (treeState 1 q).rankOf q.src = some (treeParent (treeState 1 q).job.rank) ∧ (treeState 1 q).job.rank ≠ 0 ∧ q.sys = false ∧
     (treeState 1 q).hud.ops.find? (fun o => decide (o.sys = false ∧ o.seq = 4)) ≠ none) := by decide +kernel
theorem test_hp_ctl : let s := treeState 1 (treeFrame 0x61 0 0 (block4 0))
    (after (.hpCtl 0 0 1) s).hud.postBusy = true ∧ ((after (.hpCtl 0 1 1) s).slotHp 1).state = 1 ∧ (after (.hpCtl 0 1 1) s).hud.seqProg = 6 := by
  decide +kernel
theorem wit_PostsStopsAndSystemResults : let p := treeFrame 0x61 1 0 (block4 0); let s := treeState 1 p; let q := treeFrame 0x62 1 0 (block4 0)
    s.absent 0 = false ∧ (s.cl 0).fenced = false ∧ s.job.ranks ≠ [] ∧ (s.slotHp 1).state ≠ 1 ∧ (∀ o ∈ s.hud.ops, o.sys = false → o.seq ≠ s.hud.seqProg) ∧
    (∃ e ∈ s.fab.rx, e.1 = 128 ∧ packetOf e.2 = some p) ∧ (p.copyKey, 4, 1 - p.copy) ∉ s.hud.seen ∧ s.inTree p = true ∧ p.sys = true ∧
    (∃ o ∈ s.hud.ops, o.sys = true ∧ o.seq = 4 ∧ o.own = true) ∧ (blockOf p.payload).reserved = false ∧ s.step.phase = 5 ∧ s.jobRuns = true ∧
    s.hud.sysKinds.find? (fun x => decide (x.1 = 4)) = some (4, .verdict) ∧ s.step.stopReceived = false ∧ (∃ e ∈ (treeState 1 q).fab.rx, packetOf e.2 = some q) ∧
    (let u : State := { s with hud := { s.hud with sysKinds := [(4, .stepBarrier)] }, step := { s.step with opens := some 8 } }
     u.hud.sysKinds.find? (fun x => decide (x.1 = 4)) = some (4, .stepBarrier) ∧ u.step.opens = some 8 ∧ u.step.endAfter = none) := by decide +kernel

/-- A T_REPLY of the root: T1 = 0, T2 = 1,000, T3 = 1,000. -/
def reply0 : Packet := { op := 0x65, src := 0, payload := leBytes 8 0 ++ leBytes 8 1000 ++ leBytes 8 1000 ++ leBytes 8 2 }
/-- Device 1 of the half, a child of root 0, with seven exchanges of a burst; the eighth reply arrives at count 100. -/
def ticking (p : Packet) : State :=
  let hud : HuddleSt := { tickState := .acquiring, parent := 0, burst := List.replicate 7 (0, 1000, 1000, 600), burstAt := 0, lastReply := 0 }
  { base with tick := 100, now := 8000000, hud := hud,
              fab := { rx := [(128, p.bytes)], device := 1, lanes := (List.range 144).map fun i => (i, { state := .up }) } }
/-- The shortest exchange gives the offset (1,000 − 0 − (100 − 1,000)) / 2 = 950, by which the count steps once. -/
theorem test_tick_step : (after (.tReply 128 reply0) (ticking reply0)).hud.offset = 950 ∧ (after (.tReply 128 reply0) (ticking reply0)).tick = 1050 := by
  decide +kernel
theorem wit_TheTickFollowsItsParent : let s := ticking reply0
    (∃ e ∈ s.fab.rx, e.1 = 128 ∧ packetOf e.2 = some reply0) ∧ (reply0.copyKey, leAt reply0.payload 0 8, 1 - reply0.copy) ∉ s.hud.seen ∧
    s.hud.tickState ≠ .free ∧ s.hud.isRoot = false ∧ reply0.src = s.halfDev s.hud.parent ∧ leAt reply0.payload 0x18 1 ≠ 3 ∧ 7 ≤ s.hud.burst.length ∧
    (∀ y ∈ List.replicate 7 (0, 1000, 1000, 600), ((100 : Int) - 0) - (1000 - 1000) < ((y.2.2.2 : Int) - (y.1 : Int)) - ((y.2.2.1 : Int) - (y.2.1 : Int))) ∧
    s.hud.burstAt + 1048576 ≤ s.now ∧ State.treeIndex s s.hud.parent = 0 ∧ s.fab.device ≠ 2 ∧ s.hud.lastReply + 8000000 ≤ s.now := by decide +kernel

/-- Slot domains 0 (ON at P7) and 1 (ON at P2, rising needs voltage) when a change falls due at count 5. -/
def counting (l : List (Nat × SyncChange)) : State :=
  let hud : HuddleSt := { changes := l }
  { base with tick := 5, now := 700, hud := hud,
              pwr := { slots := [(0, { mode := .on, freq := 7, volt := 3 }), (1, { mode := .on, freq := 2, volt := 2 }), (2, { mode := .on, freq := 7, volt := 7 })] } }
theorem test_sync_count : let t := after .syncCount (counting [(5, .effective 4), (6, .ceil 1)])
    t.opp.effective = 4 ∧ (t.dom 0).freq = 4 ∧ (t.dom 1).freq = 4 ∧ (t.dom 1).volt = 4 ∧ (t.dom 2).nextFreq = some 4 ∧ t.hud.changes = [(6, .ceil 1)] := by
  decide +kernel
theorem wit_ChangesTakeEffectAtSynchronisedCounts : (counting []).clocked = true ∧ (counting []).opp.oneStep = false ∧
    (∀ e ∈ (counting []).pwr.slots, e.2.nextFreq = none) ∧ 5 ≤ (counting []).step.phase ∧ ((counting []).pwr.slots.map (·.1)).Nodup ∧
    (counting [(5, .ceil 2)]).hud.changes.filter (fun c => decide (c.1 ≤ 5)) = [(5, .ceil 2)] ∧
    [(6, SyncChange.ceil 2)].filter (fun c => decide (c.1 ≤ 5)) = [] := by decide +kernel

/-- The Relay example of chapter 13: of 1,048 tokens each of 64 subtrees of demand 128 gets 16 and 24 get one more; of 17 tokens 17 members
of demand 2 get one. -/
theorem test_relay_split : let l := (splitTokens 1048 ((List.range 64).map fun i => (64 * i, 128)) none).1
    let m := (splitTokens 17 ((List.range 64).map fun i => (i, 2)) none).1
    (l.filter (fun d => decide (d.2 = 17))).length = 24 ∧ (l.filter (fun d => decide (d.2 = 16))).length = 40 ∧ (m.map (·.2)).sum = 17 ∧
    m.all (fun d => decide (d.2 ≤ 1)) = true := by decide +kernel
theorem wit_EveryTokenIsSplit : ([(0, 2), (1, 2)].map (·.1)).Nodup ∧ 3 < ([(0, 2), (1, 2)].map (·.2)).sum ∧ ([(0, 2), (1, 2)].map (·.2)).sum ≤ 4 := by decide
/-- The root in RELAY mode at count 1,048,576, with RAMP_MAX 2,000 W/s: its demand is 2 W. -/
def relaying (dev : Nat) (p : Packet) : State :=
  let hud : HuddleSt := { tickState := .locked, relayMode := true, round := 0, pceil := 400, childUp := [(1, 5)], childDown := [(1, 0)], demandUp := 2, siteRate := 15, siteBurst := 4 }
  { base with tick := 1048576 + 60000, hud := hud, opp := { tgtW := 1850, limitW := 2000 },
              fab := { rx := [(128, p.bytes)], device := dev, lanes := (List.range 144).map fun i => (i, { state := .up }) } }
theorem test_relay_round : (after .relayRoundStart { relaying 0 {op := 0} with job := { state := .running } }).hud.round = 1 ∧
    (after .relayRoundStart { relaying 0 { op := 0 } with job := { state := .running } }).hud.demandUp ≤ 2 := by decide +kernel
/-- A grant frame of the parent for round 0: 4 W up. -/
def grantPkt : Packet := { op := 0x69, src := 0, addr := 0, payload := leBytes 4 4 ++ leBytes 4 0 }
/-- The same state in round 0 with no child. -/
def leaf (p : Packet) : State := { relaying 1 p with hud := { (relaying 1 p).hud with childUp := [], childDown := [] } }
theorem test_relay_grant : (after (.rGrant 128 grantPkt) (leaf grantPkt)).hud.nextUp = 2 ∧ (after (.rGrant 128 grantPkt) (leaf grantPkt)).hud.gotGrant = true := by
  decide +kernel
theorem wit_RelayRoundsAskAndGrant : let s := leaf grantPkt
    s.tick / 1048576 ≠ s.hud.round ∧ (∃ e ∈ s.fab.rx, e.1 = 128 ∧ packetOf e.2 = some grantPkt) ∧ (grantPkt.copyKey, 0, 1 - grantPkt.copy) ∉ s.hud.seen ∧
    grantPkt.src = s.halfDev s.treeUp ∧ s.treeIndex s.fab.device ≠ 0 ∧ s.hud.childUp = [] ∧ s.hud.relayMode = true ∧ s.hud.round ≤ grantPkt.addr ∧
    (let u : State := { relaying 0 grantPkt with hud := { (relaying 0 grantPkt).hud with round := 1 } }
     u.hud.tickState ≠ .free ∧ u.treeIndex u.fab.device = 0 ∧ u.hud.levelDone = false ∧ u.tick / 1048576 = u.hud.round ∧ 60000 ≤ u.tick % 1048576) ∧
    (let q : Packet := { op := 0x68, src := 1, addr := 0, payload := leBytes 8 3 }
     let u := relaying 0 q
     q.addr = u.hud.round ∧ 1 ≠ u.fab.device ∧ u.treeIndex 1 ≠ 0 ∧ u.treeDevice (treeParent (u.treeIndex 1)) = u.fab.device ∧
     (∃ e ∈ u.fab.rx, packetOf e.2 = some q)) ∧
    (let u : State := { relaying 64 grantPkt with hud := { (relaying 64 grantPkt).hud with childUp := [(65, 1)], childDown := [(65, 0)] } }
     grantPkt.src = u.halfDev u.treeUp ∧ u.treeIndex u.fab.device ≠ 0 ∧ u.hud.demandUp + 1 ≤ 4 ∧ 65 ≠ u.fab.device) := by decide +kernel

/-! ### Ingest, interfaces -/

/-- The ingest example of chapter 14: window 37 of the table at 0x8000, 64 MiB in HBM at 0x100_0000, QP 0x125 on plane 37, cluster 12 (here 0),
GEN 4. -/
def ingest (status : Byte) : State :=
  let q : Qp := { plane := 37, localIp := 10, remoteIp := 11, remoteMac := 12, remoteQpn := 13, sqPsn := 0, rqPsn := 5, dscp := 0, ackTimeout := 0, retry := 7, rnrRetry := 7 }
  let m : List Host.Cell := [(0x84A3, 1), (0x84AB, 4), (0x84AC, 0x25), (0x84AD, 1), (0x84AF, 0x85)] ++ (if status = 0 then [] else
    [(0x84B0, status), (0x84B4, 5), (0x84B6, 0x40), (0x84B7, 9)])
  { base with job := { state := .running, ingest := 0x8000, ingestCount := 64 }, mem := m, memsys := { hbmTop := 0x10000000 },
              ing := { qps := [(0x125, q)], gens := [(37, 4)] }, fab := { lanes := [(37, { state := .up })] } }
/-- R_Key 0x0940_0005 and the WINDOW_REQ bytes of the example. -/
theorem test_ingest_req : let t := after (.ingestReq 0 (37 + 2 ^ 32 * 0x12C00)) (ingest 0)
    t.byte 0x84B0 = 1 ∧ leAt (t.bytes 0x84B4 4) 0 4 = 0x09400005 ∧
    t.ing.out = [.send 0x125 0 [1, 0, 0x25, 0, 5, 0, 0x40, 9, 0, 0, 0, 4, 0, 0x2C, 1, 0]] := by decide +kernel
theorem test_ingest_refused : (after (.ingestReq 0 37) (ingest 1)).ing.refused = true ∧ (after (.ingestReq 0 64) (ingest 0)).ing.refused = true := by
  decide +kernel
/-- A packet of that QP under the R_Key. -/
def roce (n : Nat) : RocePkt := { lane := 37, dstIp := 10, srcIp := 11, qpn := 0x125, psn := 5, rkey := 0x09400005, dmaLen := n, imm := 0x09400005,
                                  payload := List.replicate n 7 }
theorem test_rdma_write : (after (.rdmaWrite (roce 4)) (ingest 1)).byte 0x1000003 = 7 ∧
    ((after (.rdmaWrite { roce 4 with va := 0x3FFFFFD }) (ingest 1)).ing.qpError) = true ∧
    (after (.rdmaWriteWithImmediate (roce 0)) (ingest 1)).byte 0x84B0 = 2 ∧ ((after (.rdmaWriteWithImmediate (roce 0)) (ingest 1)).cl 0).ev 5 = 1 ∧
    (after (.rdmaWriteWithImmediate { roce 0 with imm := 5 }) (ingest 1)).ing.stray = 1 := by decide +kernel
/-- A WINDOW_FAIL of the window. -/
def failPkt : RocePkt := { roce 0 with payload := leBytes 2 2 ++ leBytes 2 37 ++ leBytes 4 0x09400005 ++ leBytes 8 0 }
theorem test_window_fail : (after (.windowFail failPkt) (ingest 1)).byte 0x84B0 = 3 := by decide +kernel
theorem wit_IngestWindowsAreRequestedFilledAndFailed : let s := ingest 0; let u := ingest 1
    s.winField 37 0x10 1 ≠ 1 ∧ fld (s.winField 37 0xF 1) 6 6 = 0 ∧ s.winField 37 0x11 3 = 0 ∧ s.winField 37 0x18 8 = 0 ∧ s.winField 37 0 8 % 32 = 0 ∧
    s.winField 37 8 4 = 0x4000000 ∧ s.isStore (s.winField 37 0 8) 0x4000000 = true ∧ (s.qp 0x125).map (fun q => (q.plane, q.localIp, q.rqPsn)) = some (37, 10, 5) ∧
    s.poisoned (s.ingestEntry 37) 32 = false ∧ u.laneUp 37 = true ∧ keyWindow 0x09400005 = 37 ∧ u.winField 37 0x10 1 = 1 ∧ u.winField 37 0x14 4 = 0x09400005 ∧
    u.winField 37 0xC 2 = 0x125 ∧ 4 ≤ u.winField 37 8 4 ∧ u.refuses (u.winField 37 0 8) 4 = none ∧ (roce 0).payload = [] ∧ (roce 4096).dmaLen = 4096 ∧
    failPkt.payload.length = 16 ∧ leAt failPkt.payload 0 2 = 2 ∧ leAt failPkt.payload 2 2 = keyWindow (leAt failPkt.payload 4 4) := by decide +kernel
theorem test_queue_pairs : (after (.rdmaWrite { roce 4 with psn := 4 }) (ingest 1)).ing.out = [.ack 0x125 4 0x1F 0] ∧
    (after (.rdmaWrite { roce 4 with psn := 6 }) (ingest 1)).ing.out = [.ack 0x125 5 0x60 0] ∧
    (after (.invalidRequest (roce 0)) (ingest 1)).ing.out = [.ack 0x125 5 0x61 0] ∧ (after (.cnp { roce 0 with ce := true }) (ingest 1)).ing.cnpSent = 1 := by
  decide +kernel
/-- The queue pair has one send at 0 to be acknowledged within 4,096 × 2^0 ns. -/
def unacked (now tries : Nat) : State :=
  let s := ingest 1
  { s with now := now, ing := { s.ing with qps := s.ing.qps.map fun p => (p.1, { p.2 with out := [(0, [])], tries := tries }) } }
theorem test_qp_timeout : (after (.roceAckTimeout 0x125) (unacked 4095 1)).ing.out = [] ∧ (after (.roceAckTimeout 0x125) (unacked 4096 1)).ing.out = [.send 0x125 0 []] ∧
    (after (.roceAckTimeout 0x125) (unacked 4096 0)).ing.qpError = true := by decide +kernel
theorem wit_QueuePairsAnswerRetryAndFail : (ingest 1).laneUp 37 = true ∧ ((ingest 1).qp 0x125).map (fun q => (q.plane, q.localIp)) = some (37, 10) ∧
    ((ingest 1).qp 0x125).map (·.state) = some .ready ∧ (roce 0).ce = false ∧ psnDiff 4 5 < 0 ∧ 0 < psnDiff 6 5 ∧ (ingest 1).qp 5 = none ∧
    ((ingest 1).qp 0x125).bind (·.cnpAt) = none ∧ ((unacked 4096 1).qp 0x125).map (fun q => (q.tries, q.out, q.ackTimeout)) = some (1, [(0, [])], 0) ∧
    (ingest 1).laneUp 36 = false := by decide +kernel

/-- A device in recovery wait, with an address and a full second of echo replies. -/
def port (echoes : Nat) : State :=
  { base with boot := { nganor := false, pinReset := false, stage := 6 }, mgmt := { ip := 5, echoes := echoes, echoAt := 0, arp := [(9, 9, 0)], lease := some (0, 100) },
              now := 999999999 }
/-- A request frame to that address. -/
def ask : MgmtFrame := { srcMac := 77, srcIp := 7, dstIp := 5, payload := [1, 2] }
theorem test_management_port : (after (.arp ask) (port 0)).mgmt.arp = [(9, 9, 0), (7, 77, 999999999)] ∧ (after (.icmpEcho ask) (port 99)).mgmt.sent = [(3, 7, [1, 2])] ∧
    (after (.icmpEcho ask) (port 100)).mgmt.sent = [] ∧ (after (.icmpEcho ask) { port 100 with now := 1000000000 }).mgmt.sent = [(3, 7, [1, 2])] ∧
    after .uartBootQspi base = base ∧ (after .uartBootQspi (port 0)).boot.stage = 1 := by decide +kernel
/-- The IDCODE 0x1976_89E3, least significant byte first; DEBUG without an unlock selects BYPASS. -/
theorem test_tap : leAt (after .idcode base).dbg.shiftOut 0 4 = 0x197689E3 ∧ (after .debug base).dbg.ir = .bypass ∧
    (after .debug { base with dbg := { unlocked := true, scope := 1 } }).dbg.ir = .debug ∧ (after (.unlockResp []) base).dbg.tries = 1 ∧
    (after .unlockChal { base with dbg := { tries := 3 } }).dbg.challenge = none := by decide +kernel
theorem wit_ManagementPortConsoleAndTestAccess : (port 0).mgmtTakes ask = true ∧ (port 0).mgmtTakes { ask with size := 1523 } = false ∧
    (port 0).mgmtTakes { ask with size := 1522 } = true ∧ (∀ e ∈ (port 0).mgmt.arp, e.1 ≠ ask.srcIp) ∧ ask.dstIp = (port 0).mgmt.ip ∧
    ((port 0).mgmt.arp.filter (fun e => decide (e.1 ≠ ask.srcIp))).length < 64 ∧ (port 0).clocked = true ∧ (port 0).bcrOn 2 = false ∧ (port 0).mgmtUp = true ∧
    (0 + 100 * 500000000 ≤ (50000000000 : Nat)) ∧ (port 0).dbg.tries < 3 := by decide +kernel

/-- Mailbox 0 IDLE, served. -/
def tray : State := { base with smb := { rdptr := 2 }, pmb := { fails := 2 } }
theorem test_smbus : tabFind ((after (.mbWrite true [4, 0, 0xAA]) tray).box 0).req 4 = some 0xAA ∧ (after (.mbWrite false [4, 0, 0xAA]) tray).smb.pecErrors = 1 ∧
    (after (.mbRdptr true 0x1234) tray).smb.rdptr = 0x1234 ∧
    (after (.coolant true [0xB8, 0x0B, 0, 0, 0xD0, 7, 7, 0, 9, 0, 0, 0]) tray).smb.coolant.inlet = 3000 ∧
    (after (.coolant true [0xB8, 0x0B, 0, 0, 0xD0, 7, 7, 0, 9, 0, 0, 0]) tray).therm.seqs = [9] := by decide +kernel
theorem test_pmbus : (after (.pmbusPoll false []) tray).pmb.lost = true ∧ (after (.pmbusPoll false []) { tray with pmb := { fails := 1 } }).pmb.lost = false ∧
    (after (.powerGainTrim 2000) tray).pwr.pkgW = 2000 := by decide +kernel
theorem wit_TrayAndRegulatorBuses : tray.serves 0 = true ∧ (tray.box 0).state = .idle ∧ tray.nganorUp = true ∧ tray.pmb.lost = false ∧
    State.serves { tray with boot := { tray.boot with nganor := false } } 0 = false ∧ 4 + [4, 0, 0xAA].length ≤ 4098 ∧
    ¬(4096 + [0, 16, 0xAA].length ≤ 4098) ∧ 4095 + [0xFF, 15, 0xAA].length ≤ 4098 := by decide +kernel

/-! ### Power, domains -/

/-- A device with a record to save for its twin and slot domain 0 ON at P0; the save has come to a phase at 0. -/
def supply (ph : SavePhase) (now : Nat) : State :=
  { base with now := now, pwr := { save := ph, slots := [(0, { mode := .on, freq := 0, volt := 0 })] }, ss := { twin := 1, twinDev := 1, unsent := [deltaRec] },
              opp := { effective := 0 } }
theorem test_alert : ((after .pwrAlertTaken (supply .none 0)).dom 0).freq = 7 ∧ (after .pwrAlertTaken (supply .none 0)).pwr.alertCount = 1 ∧
    (after .pwrAlertRelease (after .pwrAlertTaken (supply .none 0))).opp.hyst = true := by decide +kernel
theorem test_vin_fail : (after .vinFailTaken (supply .none 5)).pwr.save = .clocks ∧ (after .vinFailTaken (supply .none 5)).pwr.gasp.cause = 1 ∧
    (after .saveDomainsOff (after .vinFailTaken (supply .none 5))).pwr.flush = [3] ∧ after .flushEnd (supply .flush 3499999) = supply .flush 3499999 ∧
    (after .flushEnd (supply .flush 3500000)).pwr.save = .handover := by decide +kernel
theorem test_brownout : (after .brownout (supply .flush 0)).pwr.gasp.cause = 3 ∧ (after .overvolt (supply .none 0)).pwr.gasp.cause = 4 ∧
    (after .brownout (supply .none 0)).pwr.gasp.cause = 2 := by decide +kernel
theorem wit_SupplyEventsDropAndSave : (supply .none 0).boot.pinReset = false ∧ (supply .none 0).pwr.vinOff = false ∧ (supply .none 0).therm.tripped = false ∧
    (supply .none 0).pwr.alertHold = false ∧ (after .pwrAlertTaken (supply .none 0)).pwr.alertHold = true ∧ (supply .none 0).boot.nganor = true ∧
    ((supply .none 0).ss.outstanding.map (·.size)).sum ≤ 268435456 ∧ (supply .none 0).unsentBytes ≠ 0 ∧ (supply .none 0).ss.unsent ≠ [] ∧
    (supply .handover 0).flashBlank 0xC0000 65536 = true ∧ (supply .handover 0).pwr.gasp.errors.length ≤ 1016 ∧
    State.flashBlank { supply .handover 0 with flash := [(0xCFFFF, 0)] } 0xC0000 65536 = false := by decide +kernel

/-- Domain 0 in a mode for slot 0, whose unit is in a state; 0 is its logical cluster, which is at rest or not. -/
def domain (m : SlotMode) (st : UnitState) (cl : SeqState) : State :=
  { base with units := [(unitId 1 0, { state := st, logical := 0 })], clusters := [(0, { running with st := cl })],
              pwr := { slots := [(0, { mode := m, freq := 3, volt := 3, boosting := false })] }, opp := { effective := 3 } }
theorem test_slot_mode : ((after (.slotModeChange 0 false []) (domain .on .fenced .halted)).dom 0).mode = .retain ∧
    ((after (.slotModeChange 0 false []) (domain .on .fenced .running)).dom 0).mode = .on ∧
    ((after (.slotModeChange 0 true []) (domain .off .active .idle)).dom 0).mode = .on ∧
    ((after (.slotModeChange 0 true []) (domain .off .retired .idle)).dom 0).mode = .off := by decide +kernel
/-- More than 0.2% of stretched cycles activates the loop: 3 of 1,000 do, 2 do not. -/
theorem test_droop : (after (.droopHigh 0 1000 3) (domain .on .active .idle)).opp.droopDem = true ∧
    (after (.droopHigh 0 1000 2) (domain .on .active .idle)).opp.droopDem = false := by decide +kernel
theorem wit_SlotDomainsFollowTheirReadings : ((domain .on .active .idle).dom 0).mode = .on ∧ 500 ∈ [510, 500] ∧ (∀ x ∈ [510, 500], 500 ≤ x) ∧
    ((domain .on .active .idle).dom 0).boosting = false ∧ (domain .on .active .idle).ras.hist = [] ∧ (domain .on .active .idle).opp.droopDem = false ∧
    (domain .on .active .idle).clocked = true ∧ ((domain .off .active .idle).unit (unitId 1 0)).logical < 256 ∧
    ((domain .on .fenced .halted).cl 0).atRest = true ∧ ((domain .on .fenced .running).cl 0).atRest = false ∧
    ((domain .on .active .idle).pwr.slots.map (·.1)).Pairwise (· < ·) := by decide +kernel

/-! ### Package power, temperature, the reference -/

/-- Ten samples of `w`, the cap at 2,000 W and the guard at 2,000 W as reset has them. -/
def capped (w : Nat) (d : Bool) : State := { base with opp := { samples := List.replicate 10 w, capDem := d, capStep := 3, effective := 2 } }
theorem test_cap_loop : (after .capLoopCheck (capped 2000 false)).opp.capDem = false ∧ (after .capLoopCheck (capped 2001 false)).opp.capStep = 3 ∧
    (after .capLoopCheck (capped 2001 true)).opp.capStep = 4 ∧ (after .capLoopCheck (capped 1901 true)).opp.capDem = true ∧
    (after .capLoopCheck (capped 1900 true)).opp.hyst = true := by decide +kernel
/-- A phase of a job at 1,000 W of a PCEIL of 1,400 W, with BAND_DN of reset (200 W) and keep-warm on: it adds 4 W. -/
def warm (cfg : Nat) : State := { jobRuns1 with hud := { pceil := 1400 }, opp := { kwCfg := cfg, stepEnergy := 1000000 } }
theorem test_keepwarm : (after (.keepwarmAdjust 1000) (warm 0x1401)).opp.kwPower = 4 ∧ (after (.keepwarmAdjust 1000) (warm 0x1400)).opp.kwPower = 0 ∧
    (after (.pkgWSample 1199) (warm 0)).opp.bandLow = 1 ∧ (after (.pkgWSample 1200) (warm 0)).opp.bandLow = 0 := by decide +kernel
theorem wit_PackagePowerIsHeldInItsBand : (warm 0x1401).job.state = .running ∧ (warm 0x1401).step.phase < 5 ∧ (warm 0x1401).opp.alertDem = false ∧
    (warm 0x1401).opp.kwLimit = false ∧ (warm 0x1401).pwr.vinOff = false ∧ 10 ≤ (capped 2001 false).opp.samples.length ∧ (capped 2001 false).clocked = true ∧
    10 * min 2000 (fld (capped 2001 false).opp.cfg 10 0 + 100) < ((capped 2001 false).opp.samples.take 10).sum ∧
    ((capped 1900 true).opp.samples.take 10).sum + 1000 ≤ 10 * min 2000 (fld (capped 1900 true).opp.cfg 10 0 + 100) ∧
    (let s : State := { base with opp := { hyst := true, hystAt := 0 }, tick := fld base.opp.cfg 47 40 * 1000000 }
     s.opp.hyst = true ∧ s.opp.hystAt + fld s.opp.cfg 47 40 * 1000000 ≤ s.tick) := by decide +kernel

theorem test_tj : (after (.tjSample 899) base).therm.throttle = false ∧ (after (.tjSample 900) base).therm.throttle = true ∧
    (after (.tjSample 870) (after (.tjSample 900) base)).therm.throttle = false ∧ (after (.tjSample 871) (after (.tjSample 900) base)).therm.throttle = true ∧
    (after (.tjSample 1000) base).opp.thermStep = 7 ∧ (after .thermtrip base).pwr.vinOff = true := by decide +kernel
/-- The example of chapter 18: a 30.00 °C inlet and 2.0 L/min give COOL_W = (88 − 30) / 0.020 = 2,900 W. -/
theorem test_cool_w : let s : State := { base with smb := { coolant := { inlet := 3000, outlet := 4330, flow := 2000, valid := 7, seq := 1, at_ := 0, have_ := true } } }
    (after .coolantEval s).therm.coolW = 2900 ∧ (after .coolantEval s).therm.usingDefaults = false ∧ (after .coolantEval base).therm.coolW = 2000 := by decide +kernel
/-- A ramp of 16.0 °C in 10 s. -/
def ramp (tj : Nat) : State := { base with therm := { tjSum := tj, tjN := 1, tjMeans := List.replicate 100 500000 } }
theorem test_ramp_hold : (after .rampHoldCheck (ramp 660)).therm.holdUp = true ∧ (after .rampHoldCheck (ramp 659)).therm.holdUp = false ∧
    (after .rampHoldCheck (ramp 340)).therm.holdDown = true := by decide +kernel
/-- The balance with 12 s of package power `w` and 10 s of coolant heat in 1e-6 W. -/
def balance (w : Nat) (q : Int) (bad : Nat) : State :=
  { base with therm := { inlet := some (3000, 0), outlet := some (4000, 0), flow := some (2000, 0), heat := List.replicate 100 q, watts := List.replicate 12 w, hbBad := bad, hb := .ok } }
theorem test_heat_balance : (after .heatBalanceCheck (balance 1000000 1000000000 2)).therm.hb = .ok ∧ (after .heatBalanceCheck (balance 1000000 2000000000 2)).therm.hb = .coolantFault ∧
    (after .heatBalanceCheck (balance 1000000 2000000000 1)).therm.hb = .ok := by decide +kernel
theorem wit_TemperatureAndCoolantGovern : base.clocked = true ∧ base.therm.hot100 = false ∧ base.therm.throttle = false ∧ base.therm.tripped = false ∧
    base.nganorUp = true ∧ base.therm.hb ≠ .coolantFault ∧ (ramp 660).therm.tjN ≠ 0 ∧ ¬((balance 1000000 0 0).therm.stale = true) ∧
    ¬((balance 1000000 0 0).therm.heat.length < 100) ∧ (balance 1000000 0 0).smb.coolant.valid = 0 ∧ base.jobRuns = false ∧
    State.nganorUp { base with boot := {} } = false := by decide +kernel

/-- A device whose PLL follows REFCLK_A; B has had nine good windows. -/
def clocks (p : PllState) : State :=
  { base with clk := { selected := 0, pll := p, a := { state := .qualified, good := 10 }, b := { state := .qualifying, good := 9 } },
              fab := { lanes := [(128, { state := .up })] } }
/-- A good window and a bad one; 250 ppm is good under LOCKED. -/
def win (ppb : Int) : WindowResult := { lost := false, live := true, ppb := ppb }
theorem test_windows : (after (.refMonitorWindow (win 0) (win 250000) (win 0)) (clocks .locked)).clk.b.state = .qualified ∧
    (after (.refMonitorWindow (win 0) (win 250001) (win 0)) (clocks .locked)).clk.b.good = 0 ∧ (after .refLoss (clocks .locked)).clk.pll = .holdover ∧
    (after .refLoss (clocks .locked)).clk.losses = 1 ∧ (after .pllSwitchComplete (clocks .switching)).clk.pll = .locked ∧
    (after .pllSwitchComplete (clocks .switching)).clk.switches = 1 := by decide +kernel
theorem test_jitter : (after (.jitterTestComplete ⟨25, 450⟩ ⟨26, 500⟩ ⟨0, 0⟩) (clocks .free)).clk.a.pass = true ∧
    (after (.jitterTestComplete ⟨25, 450⟩ ⟨26, 500⟩ ⟨0, 0⟩) (clocks .free)).clk.b.state = .failed ∧
    (after (.genUnlock (.engine 0)) (clocks .locked)).clk.f.state = .lost ∧ ((after (.genUnlock (.slot 0)) (clocks .locked)).cl 0).fenced = true := by decide +kernel
theorem wit_TheReferenceFollowsItsSources : (clocks .locked).clk.selected < 3 ∧ (clocks .locked).laneUp 128 = true ∧ (clocks .locked).clk.best ≠ some 1 ∧
    (clocks .holdover).clk.pll = .holdover ∧ bitN (clocks .locked).clk.cfgUsed 8 = true ∧
    (let c : ClockSt := { (clocks .locked).clk with selected := 1, b := { state := .qualified, good := 10 } }
     c.better = true ∧ c.revertPending = false) ∧ ((clocks .locked).unit (unitId 1 0)).state = .active ∧ (clocks .free).clk.f.state = .lost := by
  decide +kernel

/-! ### Mailboxes -/

/-- A UDP owner of mailbox 2 (the example of chapter 19). -/
def owner2 : Owner := .udp 0x0A010005 40001
/-- A request header: opcode, TAG 7, length, SEQUENCE 0x42. -/
def header (op len : Nat) : List Byte := leBytes 2 op ++ leBytes 2 7 ++ leBytes 4 len ++ leBytes 2 0 ++ leBytes 2 0x42 ++ leBytes 4 0
/-- Bytes as a table from offset 0. -/
def tabOf (b : List Byte) : Tab Byte := (List.range b.length).map fun i => (i, b.getD i 0)
/-- Mailboxes 2 (owned over UDP) and 13 (owned by cluster 0) with a request for an opcode. -/
def boxed (op : Nat) (body : List Byte) (st : MbState) (c : Option Cmd) : State :=
  let x : Mailbox := { state := st, req := tabOf (header op body.length ++ body), cmd := c }
  { base with mb := { boxes := [(2, { x with owner := some owner2 }), (13, { x with owner := some (.cluster 0) })] } }
/-- The command of that example, started and decided or not. -/
def cmd42 (op : Nat) (done : Bool) : Cmd := { op := op, tag := 7, seq := 0x42, decided := done, answer := if done then some (0, 0, false, []) else none }
/-- The late abort: ALREADY_DONE; then the response: bits [15:0] of MB_STATUS read 0x422A. -/
theorem test_mailbox_example :
    let f : MbIn := { src := owner2, port := some 2, mbox := 2, tag := 7, seq := 0x42 }
    let s := boxed 0x0401 [] .busy (some (cmd42 0x0401 true))
    let s : State := { s with mb := { s.mb with boxes := s.mb.boxes.map fun p => (p.1, { p.2 with seqLo := 0x42 }) } }
    ((after (.commandComplete 2) (after (.abortFrame f) s)).regVal (.mbStatus 2)) % 65536 = 0x422A := by decide +kernel
/-- A ring starts the command; 0x42 again does not, while the response of 0x42 is held. -/
theorem test_ring : ((after (.ring 0 1 13) (boxed 0x0802 [] .idle none)).box 13).lastStatus = 0 ∧ ((after (.ring 0 1 13) (boxed 0x0802 [] .idle none)).box 13).state = .busy ∧
    ((after (.ring 0 1 13) (boxed 0x0401 [] .idle none)).box 13).lastStatus = 4 ∧ ((after (.ring 0 1 13) (boxed 0x01FF [] .idle none)).box 13).lastStatus = 2 ∧
    ((after (.ring 0 1 13) (boxed 0x0802 [1] .idle none)).box 13).lastStatus = 3 ∧ after (.ring 0 3 13) (boxed 0x0802 [] .idle none) = boxed 0x0802 [] .idle none := by
  decide +kernel
theorem test_claim : (after (.mbClaim 1 13) (boxed 0 [] .idle none)).readout = 0 ∧ (after (.mbClaim 1 12) (boxed 0 [] .idle none)).readout = 0x100 ∧
    ((after (.release 0 4 13) (boxed 0 [] .idle none)).box 13).owner = none := by decide +kernel
theorem wit_DoorbellsRingAbortAndRelease : (boxed 0x0802 [] .idle none).absent 0 = false ∧ (boxed 0x0802 [] .idle none).serves 13 = true ∧
    ((boxed 0x0802 [] .idle none).box 13).owner = some (.cluster 0) ∧ leAt (((boxed 0x0802 [] .idle none).box 13).reqBytes 13 0 16) 0 2 = 0x0802 ∧
    (cmdSpec 0x0802).map (fun c => (c.read, bodyLenOk c [], c.res)) = some (true, true, []) ∧ cmdSpec 0x01FF = none ∧ mbRight 13 4 = 0 ∧ mbRight 4 6 = 1 ∧
    (boxed 0x0802 [] .idle none).nganorUp = true ∧ ((boxed 0 [] .idle none).box 12).owner = none ∧
    ((boxed 0x0401 [] .busy (some (cmd42 0x0401 true))).box 13).cmd = some (cmd42 0x0401 true) := by decide +kernel

theorem test_bounds : let s : State := { boxed 0x0401 [] .busy (some (cmd42 0x0401 false)) with now := 60000000000 }
    ((after (.commandBoundExpire 2) s).box 2).lastStatus = 7 ∧ ((after (.commandComplete 2) s).box 2).state = .busy ∧
    ((after (.ownerIdleTimeout 2) { boxed 0 [] .idle none with now := 60000000000 }).box 2).owner = none ∧
    ((after (.ownerIdleTimeout 2) { boxed 0 [] .idle none with now := 59999999999 }).box 2).owner = some owner2 := by decide +kernel
/-- Event 5 is the latest, past the cursor of mailbox 2 at 3, of whose events 4 is no longer in the ring. -/
def events : State :=
  let s := boxed 0 [] .idle none
  { s with log := { events := [{ seq := 5, tick := 0, cls := 1, code := 1, unit := 0, data := 0 }], eventSeq := 5 },
           mb := { s.mb with boxes := s.mb.boxes.map fun p => (p.1, { p.2 with cursor := 3, mask := 0x1FF }) } }
theorem test_event_push : (after (.eventPush 2) events).mb.sent.map (fun f => (f.kind, f.data.length)) = [(0x83, 64)] ∧
    ((after (.eventPush 2) events).box 2).cursor = 5 := by decide +kernel
theorem wit_CompletionsBoundsAndEventsAreDelivered : let s := boxed 0x0401 [] .busy (some (cmd42 0x0401 true))
    s.serves 2 = true ∧ (s.box 2).cmd = some (cmd42 0x0401 true) ∧ (cmd42 0x0401 true).answer = some (0, 0, false, []) ∧ (s.box 2).ending = false ∧
    0x0401 ∉ ([0x0303, 0x0503] : List Nat) ∧ (cmdSpec 0x0401).map (fun d => decide (0 + s.boundNs d ≤ 60000000000)) = some true ∧
    events.eventsPast 2 3 ≠ [] ∧ events.log.eventSeq + 1 - events.log.events.length - 4 = 1 ∧ (events.box 2).owner ≠ none ∧ events.boot.stage ≠ 6 ∧
    (boxed 0 [] .idle none).eventsPast 2 0 = [] := by decide +kernel

/-- A PUT of two bytes at offset 4. -/
def put2 (src : Owner) : MbIn := { src := src, port := some 2, mbox := 2, offset := 4, len := 2, data := [0xAA, 0xBB] }
theorem test_frames : tabFind ((after (.put (put2 owner2)) (boxed 0 [] .idle none)).box 2).req 5 = some 0xBB ∧
    (after (.put (put2 (.udp 1 1))) (boxed 0 [] .idle none)).mb.sent.map (fun f => (f.kind, f.arg)) = [(0x84, 1)] ∧
    (after (.put (put2 owner2)) (boxed 0 [] .busy none)).mb.sent.map (fun f => (f.kind, f.arg)) = [(0x84, 2)] ∧
    (after (.put { put2 owner2 with res := 1 }) (boxed 0 [] .idle none)).mb.sent.map (fun f => (f.kind, f.arg)) = [(0x84, 3)] ∧
    ((after (.put (put2 (.udp 1 1))) base).box 2).owner = some (.udp 1 1) := by decide +kernel
theorem wit_OwnersFramesAreAnswered : (boxed 0 [] .idle none).takeFrame (put2 owner2) 1 = some (boxed 0 [] .idle none) ∧
    (boxed 0 [] .idle none).takeFrame { put2 owner2 with port := some 3 } 1 = none ∧ (put2 owner2).malformed 1 = false ∧ { put2 owner2 with offset := 4095 }.malformed 1 = true ∧
    { put2 owner2 with offset := 4094 }.malformed 1 = false ∧ ((boxed 0 [] .idle none).box 2).owner = some owner2 ∧ (base.box 2).owner = none ∧
    (let f : MbIn := { put2 (.station 7) with mbox := 5, port := none }
     State.takeFrame { base with hud := { tickState := .locked }, fab := { ctrl := [(7, f.bytes 1)], lanes := [(128, { state := .up })] } } f 1 ≠ none) ∧
    (∀ k ∈ [2, 3, 5, 6], (MbIn.malformed { src := owner2, mbox := 2 } k) = false) := by decide +kernel

/-- A Read command of an opcode is at its turn in mailbox 2. -/
def reading (op : Nat) (body : List Byte) : State := boxed op body .busy (some { cmd42 op false with body := body })
theorem test_read_commands : (((after (.identify 2) (reading 0x0101 [])).box 2).cmd.bind (·.answer)).map (fun a => (a.1, a.2.2.2.getD 0x11 0)) = some (0, 2) ∧
    (((after (.unitRead 2) (reading 0x0601 (leBytes 8 0))).box 2).cmd.bind (·.answer)).map (fun a => (a.1, a.2.2.1)) = some (0, true) ∧
    (((after (.regulatorRead 2) (reading 0x020B (leBytes 8 12))).box 2).cmd.bind (·.answer)).map (·.1) = some 3 := by decide +kernel
theorem wit_ReadCommandsSampleTheDevice :
    (∀ op ∈ [0x0101, 0x0102, 0x020A, 0x020B, 0x0301, 0x0302, 0x0305, 0x0401, 0x0402, 0x0405, 0x0406, 0x0506, 0x0601, 0x0604, 0x0605, 0x0701, 0x0801,
      0x0802, 0x0902, 0x0905], (reading op []).serves 2 = true ∧ ((reading op []).box 2).cmd = some (cmd42 op false) ∧
        (cmdSpec op).map (fun d => (d.read, (reading op []).mayRun d)) = some (true, true)) ∧ ((reading 0 []).box 3).cmd = none := by decide +kernel

/-! ### Mailbox commands -/

/-- The configuration example of chapter 20: CAP_W becomes 1,700 W through mailbox 0 over SMBus. The NEW value, PROT_W's source OPP_CFG, and
MB_STATUS 0x0522. -/
theorem test_power_config_example :
    let req : List Byte := [3, 4, 0x11, 0, 0x18, 0, 0, 0, 0, 0, 5, 0, 0, 0, 0, 0, 0, 0, 0, 0, 0, 0, 0, 0, 0xFF, 7, 0, 0, 0, 0, 0, 0, 0xA4, 6, 0, 0, 0, 0, 0, 0]
    let s := after (.mbDoorbell true 1) (after (.mbWrite true ([0, 0] ++ req)) base)
    let t := after (.commandComplete 0) (after (.powerConfig 0) s)
    t.opp.cfg = 0x5A000A0320C806A4 ∧ t.regVal (.mbStatus 0) % 65536 = 0x0522 ∧
    leAt ((t.box 0).rspBytes 0 16 16) 0 8 = 0x5A000A0320C807D0 ∧ leAt ((t.box 0).rspBytes 0 16 16) 8 8 = 0x5A000A0320C806A4 := by decide +kernel
/-- A Change command of mailbox 2 with its body, at its turn. -/
def asking (op : Nat) (body : List Byte) : State := reading op body
/-- The STATUS that a command's serialisation point decided. -/
def decided (s : State) : Option Nat := ((s.box 2).cmd.bind (·.answer)).map (·.1)
theorem test_configuration : decided (after (.powerConfig 2) (asking 0x0403 (leBytes 8 6 ++ leBytes 16 0))) = some 3 ∧
    decided (after (.vinSet 2 (some 5)) (asking 0x0404 (leBytes 8 1749))) = some 3 ∧ (after (.vinSet 2 (some 5)) (asking 0x0404 (leBytes 8 1750))).pmb.setpoint = 1750 ∧
    decided (after (.clusterHalt 2) (asking 0x0303 (leBytes 32 1))) = some 5 ∧
    ((after (.laneSetOut 2) (asking 0x0903 (leBytes 8 3))).lane 3).state = .out ∧ ((after (.eventMask 2) (asking 0x0803 (leBytes 8 0x26))).box 2).mask = 0x26 := by
  decide +kernel
/-- QP_CREATE of 0x100 on lane 0 with ACK_TIMEOUT 8. -/
def qpBody (act : Nat) : List Byte := leBytes 1 act ++ leBytes 3 0 ++ leBytes 4 0x100 ++ List.replicate 28 0 ++ leBytes 1 8 ++ leBytes 3 0
theorem test_qp_create : ((after (.qpCreate 2) (asking 0x0904 (qpBody 0))).qp 0x100).isSome = true ∧ decided (after (.qpDestroy 2) (asking 0x0904 (qpBody 2))) = some 3 ∧
    after (.qpModify 2) (asking 0x0904 (qpBody 0)) = asking 0x0904 (qpBody 0) := by decide +kernel
/-- The hypotheses of a Change command at its turn. -/
def ready (op : Nat) (b : List Byte) : Bool :=
  (asking op b).serves 2 && decide (((asking op b).box 2).cmd = some { cmd42 op false with body := b }) && (cmdSpec op).any fun d =>
    (asking op b).mayRun d && (d.read || slowOps.contains op || decide ((asking op b).nextToPass = some 2))
theorem wit_ConfigurationCommandsCheckAndApply : (∀ op ∈ [0x0209, 0x0303, 0x0304, 0x0403, 0x0404, 0x0504, 0x0803, 0x0804, 0x0901, 0x0903, 0x0904], ready op [] = true) ∧
    (let cfg := 0x40001000000
     fld cfg 8 0 ≤ 256 ∧ ¬(1 ≤ fld cfg 24 16 ∧ fld cfg 24 16 ≤ 1 - 1) ∧ 32 ≤ fld cfg 47 32 ∧ fld cfg 24 16 = 256) ∧
    faultBit (regFields .oppCfg 0x5A000A0320C806A4) 0x5A000A0320C806A4 = none ∧ (asking 0 []).pmb.lost = false ∧ (asking 0 []).pwr.save = .none ∧
    (asking 0 []).job.state = .none ∧ (asking 0 []).ss.exportEn = false ∧ State.qpFault (asking 0 []) (qpBody 0) true true = none ∧
    State.qpFault (asking 0 []) (qpBody 2) false false = none ∧ tabFind (asking 0 []).ing.qps 0x100 = none ∧ (asking 0 []).eventsPast 2 0 = [] ∧
    ((asking 0 []).lane 3).state ≠ .retired := by decide +kernel

/-- A job in a state, at a command's turn; HBM has 1 MiB. -/
def jobAt (st : JobState) (op : Nat) (b : List Byte) : State :=
  { asking op b with job := { state := st, tag := 9, rank := 1, ranks := [0, 1] }, memsys := { hbmTop := 0x100000 }, step := { phase := 1, number := 7 },
                     ss := { committed := 6 } }
/-- JOB_STAGE of tag 9 from station 5: 64 bytes at 0x1000. -/
def stageBody : List Byte := leBytes 4 9 ++ leBytes 4 5 ++ leBytes 8 0x1000 ++ leBytes 8 64
theorem test_job_stage : (after (.jobStage 2) (jobAt .none 0x0201 stageBody)).job.state = .staging ∧ decided (after (.jobStage 2) (jobAt .loaded 0x0201 stageBody)) = some 5 ∧
    decided (after (.jobStage 2) (jobAt .none 0x0201 (leBytes 4 9 ++ leBytes 4 5 ++ leBytes 8 0xFFFE0 ++ leBytes 8 64))) = some 3 := by decide +kernel
theorem test_job_moves : (after (.jobPause 2) (jobAt .running 0x0206 [])).job.state = .paused ∧ (after (.jobResume 2) (jobAt .paused 0x0207 [])).job.state = .running ∧
    decided (after (.jobPause 2) (jobAt .paused 0x0206 [])) = some 5 ∧ decided (after (.jobUnload 2) (jobAt .running 0x0208 [])) = some 5 ∧
    (after (.jobStopEnd 2) (jobAt .running 0x0205 (leBytes 8 0 ++ leBytes 8 7))).step.endAfter = some 7 ∧
    (after (.jobStopAbort 2) (jobAt .running 0x0205 (leBytes 8 1 ++ leBytes 8 0))).job.state = .stopped ∧
    decided (after (.jobStopEnd 2) (jobAt .running 0x0205 (leBytes 8 0 ++ leBytes 8 6))) = some 5 ∧
    (after (.jobStart 2) (jobAt .stopped 0x0204 (leBytes 8 7))).step.opens = some 7 ∧ decided (after (.jobStart 2) (jobAt .stopped 0x0204 (leBytes 8 8))) = some 5 := by
  decide +kernel
/-- TWIN_BIND of device 5: 4,096 bytes at 0x10000 with a log of 8,576 bytes, 2 × 4,096 + 32 + 192 × 1 rounded as R412 has it, or one byte less. -/
def bindBody (log : Nat) : List Byte := leBytes 4 5 ++ leBytes 4 0 ++ leBytes 8 0x10000 ++ leBytes 8 4096 ++ leBytes 8 0x20000 ++ leBytes 8 log ++ leBytes 8 0
theorem test_twin_bind : ((after (.twinBind 2) (jobAt .none 0x0501 (bindBody 8416))).ss.binding.map (·.source)) = some 5 ∧
    decided (after (.twinBind 2) (jobAt .none 0x0501 (bindBody 8415))) = some 3 ∧ (after (.rankUpdate 2) (jobAt .stopped 0x0505 (leBytes 4 1 ++ leBytes 4 7))).job.ranks = [0, 7] := by
  decide +kernel
/-- The request of a job load: tag 9, rank 0 of 1, its structures from 0x1000 on, no shard. -/
def loadBody : List Byte := leBytes 4 9 ++ leBytes 4 0 ++ leBytes 8 0 ++ leBytes 8 0x1000 ++ leBytes 8 0x4000 ++ leBytes 4 0 ++ leBytes 4 1 ++ leBytes 8 0x5000 ++
  leBytes 8 0x6000 ++ leBytes 8 0x7000 ++ leBytes 8 0x7040 ++ leBytes 8 0x7400 ++ leBytes 8 0x7800 ++ leBytes 8 0 ++ leBytes 8 0 ++ leBytes 8 0x8000 ++ leBytes 8 0 ++ leBytes 8 0
/-- A schedule of one kind of phases 0 to 2. -/
def loadCells : List Host.Cell := [(0x1000, 1), (0x1001, 1), (0x1004, 1), (0x1008, 5), (0x1020, 7)]
/-- All 256 clusters are there; the structures but for the image table lie in memory. -/
def bare : State :=
  let us : Tab UnitEnt := (List.range 256).map fun c => (unitId 1 c, { state := .active, logical := c, fence := false })
  { asking 0x0203 loadBody with units := us, mem := loadCells, memsys := { hbmTop := 0x100000 } }
/-- The image table gives each cluster 32 bytes from address 0, entered at 0. -/
def whole : State := { bare with mem := loadCells ++ (List.range 256).map fun c => (0x8008 + 16 * c, 0x20) }

theorem tabGet_find {α : Type} (d : α) (t : Tab α) (k : Nat) : tabGet d t k = (tabFind t k).getD d := by
  induction t with
  | nil => rfl
  | cons p t ih => obtain ⟨x, v⟩ := p; simp only [tabGet, tabFind, ih]; split <;> rfl
theorem tabFind_append {α : Type} (a b : Tab α) (k : Nat) : tabFind (a ++ b) k = (tabFind a k).or (tabFind b k) := by
  induction a with
  | nil => rfl
  | cons p a ih => obtain ⟨x, v⟩ := p; simp only [List.cons_append, tabFind]; split <;> simp_all
theorem tabFind_image (l : List Nat) (k : Nat) (v : Byte) :
    tabFind (l.map fun c => (0x8008 + 16 * c, v)) k = if ∃ c ∈ l, 0x8008 + 16 * c = k then some v else none := by
  induction l with
  | nil => simp [tabFind]
  | cons c l ih =>
    simp only [List.map_cons, tabFind, ih]
    by_cases h : 0x8008 + 16 * c = k
    · rw [if_pos h, if_pos ⟨c, List.mem_cons_self, h⟩]
    · rw [if_neg h]; congr 1; simp [h]
theorem whole_byte_low (a : Nat) (h : a < 0x8000) : whole.byte a = bare.byte a := by
  have hf : tabFind whole.mem a = tabFind bare.mem a := by
    show tabFind (loadCells ++ _) a = tabFind loadCells a
    rw [tabFind_append, tabFind_image, if_neg (by rintro ⟨c, -, e⟩; omega)]; cases tabFind loadCells a <;> rfl
  simp only [State.byte, tabGet_find, hf]
theorem whole_bytes_low (a n : Nat) (h : a + n ≤ 0x8000) : whole.bytes a n = bare.bytes a n := by
  unfold State.bytes
  exact List.map_congr_left fun i hi => whole_byte_low _ (by have := List.mem_range.1 hi; omega)
theorem whole_image (c i : Nat) (h : c < 256) (hi : i < 16) : whole.byte (0x8000 + 16 * c + i) = if i = 8 then 0x20#8 else 0#8 := by
  have hl : tabFind loadCells (0x8000 + 16 * c + i) = none := by simp only [loadCells, tabFind]; repeat' (rw [if_neg (by omega)])
  have hf : tabFind whole.mem (0x8000 + 16 * c + i) = if i = 8 then some 0x20#8 else none := by
    show tabFind (loadCells ++ _) _ = _
    rw [tabFind_append, tabFind_image, hl]
    by_cases h8 : i = 8
    · rw [if_pos ⟨c, List.mem_range.2 h, by omega⟩, if_pos h8]; rfl
    · rw [if_neg (by rintro ⟨d, -, e⟩; omega), if_neg h8]; rfl
  simp only [State.byte, tabGet_find, hf]; split <;> rfl
theorem entry_bytes (s : State) (a : Nat) (h : ∀ i, i < 16 → s.byte (a + i) = if i = 8 then 0x20#8 else 0#8) :
    s.bytes a 16 = [0#8, 0#8, 0#8, 0#8, 0#8, 0#8, 0#8, 0#8, 0x20#8, 0#8, 0#8, 0#8, 0#8, 0#8, 0#8, 0#8] := by
  unfold State.bytes; rw [List.map_congr_left fun i hi => h i (List.mem_range.1 hi)]; decide
theorem whole_entry (c : Nat) (h : c < 256) : whole.bytes (0x8000 + 16 * c) 16 = [0#8, 0#8, 0#8, 0#8, 0#8, 0#8, 0#8, 0#8, 0x20#8, 0#8, 0#8, 0#8, 0#8, 0#8, 0#8, 0#8] :=
  entry_bytes _ _ fun i hi => whole_image c i h hi
/-- A job load that every check lets through. -/
theorem wit_job_load : (∀ c ∈ whole.loadChecks loadBody, c.2 = true) ∧ (∀ c < 256, whole.absent c = false) ∧ ready 0x0203 loadBody = true := by
  refine ⟨?_, by decide +kernel, by decide +kernel⟩
  have e1 : leAt loadBody 0x10 8 = 0x1000 := by decide +kernel
  have e2 : leAt loadBody 0x28 8 = 0x5000 := by decide +kernel
  have e3 : leAt loadBody 0x30 8 = 0x6000 := by decide +kernel
  have e4 : leAt loadBody 0x38 8 = 0x7000 := by decide +kernel
  have e5 : leAt loadBody 0x50 8 = 0x7800 := by decide +kernel
  have e6 : leAt loadBody 0x68 8 = 0x8000 := by decide +kernel
  have e7 : leAt loadBody 0x20 4 = 0 := by decide +kernel
  have e8 : leAt loadBody 0x24 4 = 1 := by decide +kernel
  have e9 : leAt loadBody 0x40 8 = 0x7040 := by decide +kernel
  have hw : ((List.range 64).all fun i => watchOk (whole.bytes (0x6000 + 16 * i) 16)) = true := by
    rw [List.all_eq_true]; intro i hi
    rw [whole_bytes_low _ _ (by have := List.mem_range.1 hi; omega)]
    revert hi; revert i; decide +kernel
  have hi : ((List.range 256).all fun c => whole.imageEntOk (whole.bytes (0x8000 + 16 * c) 16)) = true := by
    rw [List.all_eq_true]; intro c hc; rw [whole_entry c (List.mem_range.1 hc)]; decide +kernel
  have hr : (whole.jobOf loadBody).ranks = [0] := by
    simp only [State.jobOf, e2, e8]; simp only [List.range_one, List.map_cons, List.map_nil]; rw [whole_bytes_low _ _ (by omega)]; decide +kernel
  have hs : (whole.jobOf loadBody).shards = [] := by simp only [State.jobOf, e7, List.range_zero, List.map_nil]
  have ho : ((State.ownedRegions { whole with job := whole.jobOf loadBody }).map (·.bytes)).sum = 0 := by
    simp only [State.ownedRegions, State.owned, hs]; rfl
  have b1 : whole.bytes 0x1000 128 = bare.bytes 0x1000 128 := whole_bytes_low _ _ (by omega)
  have b4 : whole.bytes 0x7000 32 = bare.bytes 0x7000 32 := whole_bytes_low _ _ (by omega)
  have b5 : whole.bytes 0x7800 64 = bare.bytes 0x7800 64 := whole_bytes_low _ _ (by omega)
  simp only [State.loadChecks, e1, e2, e3, e4, e5, e6, e7, e8, e9, hr, hs, ho, hw, hi, b1, b4, b5, List.range_zero, List.all_nil, Bool.and_true]
  decide +kernel
theorem wit_JobCommandsMoveTheJobState : (∀ op ∈ [0x0201, 0x0202, 0x0203, 0x0204, 0x0205, 0x0206, 0x0207, 0x0208, 0x0501, 0x0502, 0x0503, 0x0505], ready op [] = true) ∧
    whole.job.state = .none ∧ whole.poison = [] ∧ ((jobAt .staging 0x0202 []).job.stages.all fun x => x.num != 0) = true ∧
    (jobAt .stopped 0x0204 (leBytes 8 7)).ss.committed + 1 = 7 ∧ (jobAt .stopped 0x0204 []).hud.tickState ≠ .locked ∧ (jobAt .stopped 0 []).job.rank ≠ 0 ∧
    (jobAt .running 0 []).jobRuns = true ∧ (jobAt .running 0 []).step.number ≤ 7 ∧ (∃ d ∈ (jobAt .paused 0 []).present, d ∉ (jobAt .paused 0 []).step.arrived) ∧
    (jobAt .none 0 []).ss.binding = none ∧ (jobAt .none 0 []).ss.restoring = false ∧ (jobAt .none 0 []).ss.regions = [] ∧
    (jobAt .stopped 0 []).job.rankAddr + 4 * 1 + 4 ≤ (jobAt .stopped 0 []).job.transBase + 8 ∧ (jobAt .loaded 0 []).ownedBytes ≤ reach [] ∧
    (twinState [] []).ss.binding ≠ none := by decide +kernel

/-- Slot 0 in a state, at a command's turn. -/
def service (st : UnitState) (op : Nat) (b : List Byte) : State := { asking op b with units := [(unitId 1 0, { state := st })] }
theorem test_unit_set : ((after (.unitSet 2 true) (service .fenced 0x0602 (leBytes 4 (unitId 1 0) ++ leBytes 4 0))).unit (unitId 1 0)).state = .active ∧
    ((after (.unitSet 2 false) (service .fenced 0x0602 (leBytes 4 (unitId 1 0) ++ leBytes 4 0))).unit (unitId 1 0)).state = .fenced ∧
    decided (after (.unitSet 2 true) (service .fenced 0x0602 (leBytes 4 (unitId 1 288) ++ leBytes 4 0))) = some 3 ∧
    decided (after (.unitSet 2 true) (service .retired 0x0602 (leBytes 4 (unitId 1 0) ++ leBytes 4 3))) = some 5 ∧
    decided (after (.bistLogic 2 0 0) (service .active 0x0603 (leBytes 4 1 ++ leBytes 4 (unitId 1 0)))) = some 5 := by decide +kernel
theorem test_fw_write : (after (.fwWrite 2) (asking 0x0702 (leBytes 4 0 ++ leBytes 4 2 ++ [7, 8]))).boot.fwNext = some 2 ∧
    decided (after (.fwWrite 2) (asking 0x0702 (leBytes 4 2 ++ leBytes 4 2 ++ [7, 8]))) = some 3 ∧ decided (after (.reboot 2) (jobAt .running 0x0704 [])) = some 5 ∧
    (after (.debugResponse 2) (asking 0x0706 (leBytes 8 0))).dbg.tries = 1 := by decide +kernel
theorem wit_ServiceCommandsTestAndUpdate : (∀ op ∈ [0x0602, 0x0603, 0x0702, 0x0703, 0x0704, 0x0705, 0x0706], ready op [] = true) ∧
    unitId 1 0 % 2 ^ 28 < 288 ∧ unitId 1 0 / 2 ^ 28 = 1 ∧ unitId 2 767 / 2 ^ 28 = 2 ∧ ((service .test 0 []).unit (unitId 1 0)).state = .test ∧
    (service .test 0 []).jobRuns = false ∧ (service .test 0 []).boot.fwNext = none ∧ imageOk 0 [] = false ∧ (service .test 0 []).dbg.tries < 3 ∧
    ((asking 0 []).clk.src 0).state = .lost := by decide +kernel

/-! ### Reset and boot -/

/-- A boot stage with Nganor running or not, 2 s after the reset; the image slots hold no image. -/
def booting (st : Nat) (nganor : Bool) : State :=
  { base with now := 2000000000, boot := { stage := st, nganor := nganor, pinReset := false, ready := st = 3 }, units := [],
              flash := [(0x100010, 0), (0x100011, 0), (0x100012, 0), (0x100013, 0), (0x500010, 0), (0x500011, 0), (0x500012, 0), (0x500013, 0)] }
theorem test_reset : (after (.sysResetDeassert 2) State.reset).boot.source = 2 ∧ (after (.sysResetDeassert 0) State.reset).boot.source = 0 ∧
    (after .watchdogExpire base).boot.cause = 3 ∧ (after .sysResetAssert { base with boot := { base.boot with rollback := 4 } }).boot.rollback = 4 ∧
    (after .vauxRemoved { base with therm := { tripSeen := true } }).therm.tripSeen = false := by decide +kernel
theorem test_boot_stages : (after .pllFirstLock { booting 0 false with clk := { a := { state := .qualified, good := 10, pass := true } } }).boot.stage = 1 ∧
    (after (.firmwareVerify []) (booting 1 false)).boot.stage = 6 ∧ (after (.hbmTrainingComplete []) (booting 2 true)).boot.stage = 3 ∧
    (after .announce (booting 3 true)).boot.announceMs = 2000 := by decide +kernel
/-- The first boot of chapter 21 trains 768 pseudo-channels: HBM_TOP is 0x00BF_FFEB_0000. -/
theorem test_hbm_top : 768 * 1073740032 = 0x00BFFFEB0000 := by decide
theorem wit_ResetAndBringUpFollowTheirStages : State.reset.boot.pinReset = true ∧ base.boot.pinReset = false ∧ base.boot.nganor = true ∧
    (booting 1 false).boot.nganor = false ∧ (booting 1 false).boot.source = 0 ∧ imageOk 0 ((booting 1 false).slotImage 0) = false ∧
    (booting 0 false).clk.best = none ∧ (booting 0 false).boot.resetAt + 1000000000 ≤ (booting 0 false).now ∧ (booting 0 false).clk.pll = .free ∧
    ({ a := { state := .qualified, good := 10, pass := true } : ClockSt }).best = some 0 ∧ (booting 2 true).nganorUp = true ∧
    State.reset.bcrRead = none ∧ (booting 3 true).boot.ready = true ∧ (booting 4 true).boot.ready = false ∧ (booting 4 true).boot.stage = 4 ∧
    (let s : State := { booting 3 true with boot := { (booting 3 true).boot with ready := false, stageAt := 0 }, now := 5000000000 }
     s.nganorUp = true ∧ s.boot.stageAt + 5000000000 ≤ s.now ∧ s.bcrOn 5 = false ∧ s.bcrOn 3 = false) ∧
    (let s : State := { booting 1 false with boot := { (booting 1 false).boot with source := 1 } }
     s.clocked = true ∧ s.boot.tftp = [] ∧ s.boot.source = 1) := by decide +kernel

/-! ### Reliability and registers -/

/-- Slot 0 carries cluster 0 of a job under RERUN; event 2 has, or has not, been seen. -/
def checked (hist : List HistEnt) : State := { jobRuns1 with job := { jobRuns1.job with sched := { jobRuns1.job.sched with policy := 1 } }, ras := { hist := hist } }
theorem test_logic_check : ((after (.logicCheck 0 1 true) (checked [])).unit (unitId 1 0)).state = .active ∧
    ((after (.logicCheck 0 1 false) (checked [])).unit (unitId 1 0)).state = .retired ∧
    ((after (.logicCheck 0 1 true) (checked [{ unit := unitId 1 0, event := 2, count := 1, first := 0, boot := 0 }])).unit (unitId 1 0)).state = .retired := by
  decide +kernel
theorem wit_ChecksFencesAndRecords : (checked []).slotOf 0 = some 0 ∧ ((checked []).unit (unitId 1 0)).state = .active ∧ ((checked []).unit (unitId 1 0)).logical = 0 ∧
    (checked []).clocked = true ∧ (checked []).jobRuns = true ∧ (checked []).job.sched.policy = 1 ∧ (checked []).nganorUp = true ∧
    (checked []).ras.serviceMin < 0 + 720 ∧ (BitVec.ofNat 32 (unitId 1 0)).toNat % 2 ^ 28 < 288 ∧
    (let s : State := { checked [] with ras := { dirty := true } }
     (s.ras.bytes 1).length ≤ 0x40000 ∧ s.ras.dirty = true) ∧ State.reset.log.droppedNow = 0 := by decide +kernel

/-- Counts and flags at their registers: LANE_STATUS of lane 0 and cluster 0's flags. -/
def counted : State := { base with fab := { lanes := [(0, { state := .up, flap := true, misplane := 3 })] }, clusters := [(0, { running with arith := 0x1F })] }
/-- Nganor reads LANE_STATUS of lane 0 and its counts are then 0; writing 1 to bit 4 clears FLAP (R16, R18); a program's read clears nothing. -/
theorem test_rc_w1c : let t := after (.rcRead none 0x700000000100) counted
    fld t.readout 63 48 = 3 ∧ (t.lane 0).misplane = 0 ∧ (t.lane 0).flap = true ∧ ((after (.registerWrite none 0x700000000100 8 0x10) counted).lane 0).flap = false ∧
    ((after (.registerWrite none 0x700000000100 8 0x20) counted).lane 0).flap = true ∧ ((after (.rcRead (some 0) 0x700000000100) counted).lane 0).misplane = 3 := by
  decide +kernel
theorem test_program_writes : ((after (.registerWrite (some 0) 0x500000000620 8 9) counted).cl 0).ev 4 = 9 ∧
    (after (.registerWrite (some 0) 0x500000000621 8 9) counted) = counted := by decide +kernel
theorem wit_RegisterAccessesFollowTheFieldTypes : counted.nganorUp = true ∧ counted.clocked = true ∧ counted.open_ 0 = true ∧
    counted.place 0x500000000620 = .csr 0 0x620 ∧ (counted.place 0x500000000620).reg = some (.evAdd 0 4) ∧ (counted.place 0x1000).reg = none ∧
    0x500000000620 % 8 = 0 ∧ counted.jobRuns = false ∧ bitN (counted.regVal (.laneStatus 0)) 4 = true ∧ counted.open_ 9 = false := by decide +kernel

/-- The address map's example: with all 768 pseudo-channels byte 0x1234_5678 lies in pseudo-channel 15 of stack 4, line 3,108, slice 8, set 811. -/
theorem test_home : (State.home { base with memsys := { channels := channelOrder } } 0x12345678) = (8, 811, 15 * 2 ^ 24 + 3108, 3) := by decide +kernel

/-- The norm-watch example of chapter 09: v = 60.0 trips at L = 8.0, CLAMP is 0x3E08_8889 and EMA becomes 2.375. -/
theorem test_norm_watch : let x : WatchInput := { mode := 1, policy := 1, alpha := 4, thresh := 0x40800000, keep := { state := .armed, ema := 0x40000000 }, posted := true,
                                                   sum := 3600 * 2 ^ 149 }
    x.close.keep.state = .tripped ∧ x.close.v = 0x42700000 ∧ x.close.limit = 0x41000000 ∧ x.close.settle.keep.clamp = 0x3E088889 ∧ x.close.settle.keep.ema = 0x40180000 := by
  decide +kernel

/-! ### The machine -/

/-- A step runs the front command and drops it; on an empty queue 1 ns passes. -/
theorem test_step : (match step { base with pending := [.haltReq 0, .resume 0] } with | .next t => ((t.cl 0).st, t.pending) | _ => (.idle, [])) = (.halting, [.resume 0]) ∧
    (match step base with | .next t => (t.now, t.tick) | _ => (0, 0)) = (1, 1) := by decide +kernel
theorem wit_EveryStepKeepsMemoryCanonicalAndStickyBits : base.memOk = true ∧ State.memOk { base with mem := [(5, 0)] } = false ∧
    (let s : State := { base with therm := { tripSeen := true }, pending := [.haltReq 0] }
     s.therm.tripSeen = true ∧ s.pending.head? ≠ some .vauxRemoved) ∧ State.pending { base with pending := [.vauxRemoved] } ≠ [] ∧
    (match step { base with pending := [.haltReq 0] } with | .next _ => true | _ => false) = true := by decide +kernel
theorem wit_AStepRunsTheFrontCommand : State.pending { base with pending := [.haltReq 0] } = .haltReq 0 :: [] ∧ base.pending = [] ∧ base.hud.slew = 0 ∧
    State.reset.clocked = false := by decide +kernel

end Sys2Proof.Tests
end

section
/-!
PROOF. Sticky bits and canonical memory over one step: each command's law, gathered over the dispatch, and O60.
-/
namespace Sys2Proof.Machine

/-- The dispatch read through the law of each command: the removal of VAUX alone may clear a sticky bit (R17). -/
theorem exec_keeps {s0 s : State} (h : Keeps s0 s) : ∀ i : Instr, i ≠ .vauxRemoved → KeepsRes s0 (exec i s)
  | .nop c bits, _ => execNop_keeps c bits s h
  | .jump c bits, _ => execJump_keeps c bits s h
  | .br c bits, _ => execBr_keeps c bits s h
  | .loop c bits, _ => execLoop_keeps c bits s h
  | .wait c bits, _ => execWait_keeps c bits s h
  | .waitSatisfied c, _ => execWaitSatisfied_keeps c s h
  | .waitTimeout c, _ => execWaitTimeout_keeps c s h
  | .signal c bits, _ => execSignal_keeps c bits s h
  | .halt c bits, _ => execHalt_keeps c bits s h
  | .alu c bits, _ => execAlu_keeps c bits s h
  | .alui c bits, _ => execAlui_keeps c bits s h
  | .ld c bits ecc, _ => execLd_keeps c bits ecc s h
  | .st c bits, _ => execSt_keeps c bits s h
  | .evset c bits, _ => execEvset_keeps c bits s h
  | .evsub c bits, _ => execEvsub_keeps c bits s h
  | .evrd c bits, _ => execEvrd_keeps c bits s h
  | .qcfg c bits remote, _ => execQcfg_keeps c bits remote s h
  | .qgo c bits remote, _ => execQgo_keeps c bits remote s h
  | .qend c bits, _ => execQend_keeps c bits s h
  | .tld c bits grid, _ => execTld_keeps c bits grid s h
  | .tlm c bits, _ => execTlm_keeps c bits s h
  | .tst c bits, _ => execTst_keeps c bits s h
  | .lutld c bits, _ => execLutld_keeps c bits s h
  | .rtld c bits, _ => execRtld_keeps c bits s h
  | .mma c bits, _ => execMma_keeps c bits s h
  | .pour c bits, _ => execPour_keeps c bits s h
  | .exchWrite c bits, _ => execExchWrite_keeps c bits s h
  | .exchRead c bits, _ => execExchRead_keeps c bits s h
  | .exchReduceWrite c bits, _ => execExchReduceWrite_keeps c bits s h
  | .exchAtomic c bits, _ => execExchAtomic_keeps c bits s h
  | .reduceScatter c bits, _ => execReduceScatter_keeps c bits s h
  | .allGather c bits, _ => execAllGather_keeps c bits s h
  | .allToAll c bits, _ => execAllToAll_keeps c bits s h
  | .broadcast c bits, _ => execBroadcast_keeps c bits s h
  | .exchComplete post, _ => execExchComplete_keeps post s h
  | .fence c bits, _ => execFence_keeps c bits s h
  | .fenceComplete c, _ => execFenceComplete_keeps c s h
  | .unitEntry c grid, _ => execUnitEntry_keeps c grid s h
  | .mmaStart c, _ => execMmaStart_keeps c s h
  | .refillVisit c, _ => execRefillVisit_keeps c s h
  | .correctionCycles c, _ => execCorrectionCycles_keeps c s h
  | .mmaComplete c, _ => execMmaComplete_keeps c s h
  | .mmaProgressStop c k, _ => execMmaProgressStop_keeps c k s h
  | .pourStart c grid, _ => execPourStart_keeps c grid s h
  | .pourComplete c, _ => execPourComplete_keeps c s h
  | .tileLoadComplete c side, _ => execTileLoadComplete_keeps c side s h
  | .streamRequest c q, _ => execStreamRequest_keeps c q s h
  | .streamItemComplete c q item data ecc, _ => execStreamItemComplete_keeps c q item data ecc s h
  | .streamRequestFail c q item status, _ => execStreamRequestFail_keeps c q item status s h
  | .slotPaused c q, _ => execSlotPaused_keeps c q s h
  | .clusterHalted c, _ => execClusterHalted_keeps c s h
  | .haltReq c, _ => execHaltReq_keeps c s h
  | .resume c, _ => execResume_keeps c s h
  | .eventCounterWrite c e v, _ => execEventCounterWrite_keeps c e v s h
  | .evAdd c e v, _ => execEvAdd_keeps c e v s h
  | .transInv c, _ => execTransInv_keeps c s h
  | .translationRereadComplete c, _ => execTranslationRereadComplete_keeps c s h
  | .rtInv c mask, _ => execRtInv_keeps c mask s h
  | .gridInv c, _ => execGridInv_keeps c s h
  | .phaseArrive c v, _ => execPhaseArrive_keeps c v s h
  | .pubDoorbell c v, _ => execPubDoorbell_keeps c v s h
  | .publicationRecordWrite slot, _ => execPublicationRecordWrite_keeps slot s h
  | .verifiedFetchRecheck post, _ => execVerifiedFetchRecheck_keeps post s h
  | .verifiedFetchDigest post, _ => execVerifiedFetchDigest_keeps post s h
  | .mismatchResolution post owner twin, _ => execMismatchResolution_keeps post owner twin s h
  | .stall, _ => execStall_keeps s h
  | .preimageCopyComplete, _ => execPreimageCopyComplete_keeps s h
  | .deltaRecord r, _ => execDeltaRecord_keeps r s h
  | .fullRecord r, _ => execFullRecord_keeps r s h
  | .endRecord r, _ => execEndRecord_keeps r s h
  | .commitRecord r, _ => execCommitRecord_keeps r s h
  | .rollbackRecord r, _ => execRollbackRecord_keeps r s h
  | .stepAck r, _ => execStepAck_keeps r s h
  | .nakNew r, _ => execNakNew_keeps r s h
  | .nakOld r, _ => execNakOld_keeps r s h
  | .failureHandling, _ => execFailureHandling_keeps s h
  | .twinless, _ => execTwinless_keeps s h
  | .exportLag, _ => execExportLag_keeps s h
  | .coherenceRequest slice, _ => execCoherenceRequest_keeps slice s h
  | .recallAnswer slice line, _ => execRecallAnswer_keeps slice line s h
  | .regulatorTokenRefill, _ => execRegulatorTokenRefill_keeps s h
  | .regulatorAdmit stack, _ => execRegulatorAdmit_keeps stack s h
  | .patrolScrub ecc, _ => execPatrolScrub_keeps ecc s h
  | .stackTempRead stack temp, _ => execStackTempRead_keeps stack temp s h
  | .stackTempMissing stack, _ => execStackTempMissing_keeps stack s h
  | .laserPowerChange engine onB power, _ => execLaserPowerChange_keeps engine onB power s h
  | .laneDown lane codewords, _ => execLaneDown_keeps lane codewords s h
  | .laneUp lane, _ => execLaneUp_keeps lane s h
  | .frameReceive lane f, _ => execFrameReceive_keeps lane f s h
  | .write lane p, _ => execWrite_keeps lane p s h
  | .read lane p, _ => execRead_keeps lane p s h
  | .reduceWriteF32 lane p, _ => execReduceWriteF32_keeps lane p s h
  | .reduceWriteH16 lane p, _ => execReduceWriteH16_keeps lane p s h
  | .reduceWriteI32 lane p, _ => execReduceWriteI32_keeps lane p s h
  | .atomicAdd lane p, _ => execAtomicAdd_keeps lane p s h
  | .atomicFetchAdd lane p, _ => execAtomicFetchAdd_keeps lane p s h
  | .atomicSwap lane p, _ => execAtomicSwap_keeps lane p s h
  | .atomicCas lane p, _ => execAtomicCas_keeps lane p s h
  | .readData lane p, _ => execReadData_keeps lane p s h
  | .atomicResult lane p, _ => execAtomicResult_keeps lane p s h
  | .status lane p, _ => execStatus_keeps lane p s h
  | .collData lane p, _ => execCollData_keeps lane p s h
  | .ctrl lane p, _ => execCtrl_keeps lane p s h
  | .ack lane p, _ => execAck_keeps lane p s h
  | .ackTimer src, _ => execAckTimer_keeps src s h
  | .retransmitTimeout dest psn, _ => execRetransmitTimeout_keeps dest psn s h
  | .sendContextFree dest, _ => execSendContextFree_keeps dest s h
  | .receiveContextFree src, _ => execReceiveContextFree_keeps src s h
  | .planeExclusionExpire dest plane, _ => execPlaneExclusionExpire_keeps dest plane s h
  | .hUp lane p, _ => execHUp_keeps lane p s h
  | .hDown lane p, _ => execHDown_keeps lane p s h
  | .hStop lane p, _ => execHStop_keeps lane p s h
  | .hUpResend sys seq, _ => execHUpResend_keeps sys seq s h
  | .hpCtl c slot v, _ => execHpCtl_keeps c slot v s h
  | .tickSyncBurst, _ => execTickSyncBurst_keeps s h
  | .tSync lane p, _ => execTSync_keeps lane p s h
  | .tReply lane p, _ => execTReply_keeps lane p s h
  | .tickParentSilent, _ => execTickParentSilent_keeps s h
  | .syncCount, _ => execSyncCount_keeps s h
  | .relayRoundStart, _ => execRelayRoundStart_keeps s h
  | .relayLevelDeadline, _ => execRelayLevelDeadline_keeps s h
  | .rReq lane p, _ => execRReq_keeps lane p s h
  | .rGrant lane p, _ => execRGrant_keeps lane p s h
  | .ingestReq c v, _ => execIngestReq_keeps c v s h
  | .rdmaWrite p, _ => execRdmaWrite_keeps p s h
  | .rdmaWriteWithImmediate p, _ => execRdmaWriteWithImmediate_keeps p s h
  | .windowFail p, _ => execWindowFail_keeps p s h
  | .roceAck p, _ => execRoceAck_keeps p s h
  | .cnp p, _ => execCnp_keeps p s h
  | .invalidRequest p, _ => execInvalidRequest_keeps p s h
  | .roceAckTimeout qpn, _ => execRoceAckTimeout_keeps qpn s h
  | .arp f, _ => execArp_keeps f s h
  | .icmpEcho f, _ => execIcmpEcho_keeps f s h
  | .dhcpRenew answer, _ => execDhcpRenew_keeps answer s h
  | .tftpBoot image, _ => execTftpBoot_keeps image s h
  | .mbWrite pecOk data, _ => execMbWrite_keeps pecOk data s h
  | .mbRdptr pecOk offset, _ => execMbRdptr_keeps pecOk offset s h
  | .mbRead, _ => execMbRead_keeps s h
  | .mbDoorbell pecOk value, _ => execMbDoorbell_keeps pecOk value s h
  | .mbStatus, _ => execMbStatus_keeps s h
  | .coolant pecOk data, _ => execCoolant_keeps pecOk data s h
  | .ident, _ => execIdent_keeps s h
  | .pmbAlert words, _ => execPmbAlert_keeps words s h
  | .pmbusPoll ok words, _ => execPmbusPoll_keeps ok words s h
  | .powerGainTrim pkgW, _ => execPowerGainTrim_keeps pkgW s h
  | .idcode, _ => execIdcode_keeps s h
  | .samplePreload cells, _ => execSamplePreload_keeps cells s h
  | .extest cells, _ => execExtest_keeps cells s h
  | .clamp, _ => execClamp_keeps s h
  | .highz, _ => execHighz_keeps s h
  | .unlockChal, _ => execUnlockChal_keeps s h
  | .unlockResp response, _ => execUnlockResp_keeps response s h
  | .debug, _ => execDebug_keeps s h
  | .bypass, _ => execBypass_keeps s h
  | .uartInfo, _ => execUartInfo_keeps s h
  | .uartBootQspi, _ => execUartBootQspi_keeps s h
  | .uartBootTftp, _ => execUartBootTftp_keeps s h
  | .uartReboot, _ => execUartReboot_keeps s h
  | .pwrAlertTaken, _ => execPwrAlertTaken_keeps s h
  | .pwrAlertRelease, _ => execPwrAlertRelease_keeps s h
  | .vinFailTaken, _ => execVinFailTaken_keeps s h
  | .vinFailGlitch, _ => execVinFailGlitch_keeps s h
  | .saveDomainsOff, _ => execSaveDomainsOff_keeps s h
  | .flushEnd, _ => execFlushEnd_keeps s h
  | .lastGaspProgrammed, _ => execLastGaspProgrammed_keeps s h
  | .brownout, _ => execBrownout_keeps s h
  | .overvolt, _ => execOvervolt_keeps s h
  | .vauxLow, _ => execVauxLow_keeps s h
  | .droopReading slot mv, _ => execDroopReading_keeps slot mv s h
  | .boostRelease slot, _ => execBoostRelease_keeps slot s h
  | .droopHigh slot cycles stretched, _ => execDroopHigh_keeps slot cycles stretched s h
  | .voltageTransitionComplete slot, _ => execVoltageTransitionComplete_keeps slot s h
  | .slotModeChange slot on cal, _ => execSlotModeChange_keeps slot on cal s h
  | .pkgWSample w, _ => execPkgWSample_keeps w s h
  | .capLoopCheck, _ => execCapLoopCheck_keeps s h
  | .hysteresisExpire, _ => execHysteresisExpire_keeps s h
  | .keepwarmAdjust w, _ => execKeepwarmAdjust_keeps w s h
  | .refLoss, _ => execRefLoss_keeps s h
  | .refMonitorWindow a b f, _ => execRefMonitorWindow_keeps a b f s h
  | .pllSwitchComplete, _ => execPllSwitchComplete_keeps s h
  | .jitterTestComplete a b f, _ => execJitterTestComplete_keeps a b f s h
  | .genUnlock gen, _ => execGenUnlock_keeps gen s h
  | .tjSample tj, _ => execTjSample_keeps tj s h
  | .thermtrip, _ => execThermtrip_keeps s h
  | .coolantEval, _ => execCoolantEval_keeps s h
  | .heatBalanceCheck, _ => execHeatBalanceCheck_keeps s h
  | .rampHoldCheck, _ => execRampHoldCheck_keeps s h
  | .forecastForm, _ => execForecastForm_keeps s h
  | .ring c v m, _ => execRing_keeps c v m s h
  | .abort c v m, _ => execAbort_keeps c v m s h
  | .release c v m, _ => execRelease_keeps c v m s h
  | .mbClaim c m, _ => execMbClaim_keeps c m s h
  | .put f, _ => execPut_keeps f s h
  | .ringFrame f, _ => execRingFrame_keeps f s h
  | .abortFrame f, _ => execAbortFrame_keeps f s h
  | .get f, _ => execGet_keeps f s h
  | .stat f, _ => execStat_keeps f s h
  | .releaseFrame f, _ => execReleaseFrame_keeps f s h
  | .evack f, _ => execEvack_keeps f s h
  | .commandComplete m, _ => execCommandComplete_keeps m s h
  | .commandBoundExpire m, _ => execCommandBoundExpire_keeps m s h
  | .ownerIdleTimeout m, _ => execOwnerIdleTimeout_keeps m s h
  | .eventPush m, _ => execEventPush_keeps m s h
  | .identify m, _ => execIdentify_keeps m s h
  | .deviceStatus m, _ => execDeviceStatus_keeps m s h
  | .jobStage m, _ => execJobStage_keeps m s h
  | .jobUnstage m, _ => execJobUnstage_keeps m s h
  | .jobLoad m pIdle, _ => execJobLoad_keeps m pIdle s h
  | .jobStart m, _ => execJobStart_keeps m s h
  | .jobStopEnd m, _ => execJobStopEnd_keeps m s h
  | .jobStopAbort m, _ => execJobStopAbort_keeps m s h
  | .jobPause m, _ => execJobPause_keeps m s h
  | .jobResume m, _ => execJobResume_keeps m s h
  | .jobUnload m, _ => execJobUnload_keeps m s h
  | .regulatorSet m, _ => execRegulatorSet_keeps m s h
  | .jobStatus m, _ => execJobStatus_keeps m s h
  | .regulatorRead m, _ => execRegulatorRead_keeps m s h
  | .stepRead m, _ => execStepRead_keeps m s h
  | .watchRead m, _ => execWatchRead_keeps m s h
  | .clusterHalt m, _ => execClusterHalt_keeps m s h
  | .clusterResume m, _ => execClusterResume_keeps m s h
  | .clusterRead m, _ => execClusterRead_keeps m s h
  | .powerRead m, _ => execPowerRead_keeps m s h
  | .powerTable m, _ => execPowerTable_keeps m s h
  | .powerConfig m, _ => execPowerConfig_keeps m s h
  | .vinSet m readVout, _ => execVinSet_keeps m readVout s h
  | .slotRead m, _ => execSlotRead_keeps m s h
  | .stackRead m, _ => execStackRead_keeps m s h
  | .twinBind m, _ => execTwinBind_keeps m s h
  | .twinUnbind m, _ => execTwinUnbind_keeps m s h
  | .restore m reply records, _ => execRestore_keeps m reply records s h
  | .exportSet m, _ => execExportSet_keeps m s h
  | .rankUpdate m, _ => execRankUpdate_keeps m s h
  | .streamRead m, _ => execStreamRead_keeps m s h
  | .unitRead m, _ => execUnitRead_keeps m s h
  | .unitSet m bringUp, _ => execUnitSet_keeps m bringUp s h
  | .bistLogic m misr1 misr2, _ => execBistLogic_keeps m misr1 misr2 s h
  | .bistMemorySlot m misr1 misr2, _ => execBistMemorySlot_keeps m misr1 misr2 s h
  | .bistMemoryWay m misr1 misr2 row, _ => execBistMemoryWay_keeps m misr1 misr2 row s h
  | .bistReferenceTest m a b f, _ => execBistReferenceTest_keeps m a b f s h
  | .errorRead m, _ => execErrorRead_keeps m s h
  | .lastGaspRead m, _ => execLastGaspRead_keeps m s h
  | .fwInfo m, _ => execFwInfo_keeps m s h
  | .fwWrite m, _ => execFwWrite_keeps m s h
  | .fwActivate m, _ => execFwActivate_keeps m s h
  | .reboot m, _ => execReboot_keeps m s h
  | .debugChallenge m, _ => execDebugChallenge_keeps m s h
  | .debugResponse m, _ => execDebugResponse_keeps m s h
  | .counters m, _ => execCounters_keeps m s h
  | .forecast m, _ => execForecast_keeps m s h
  | .eventMask m, _ => execEventMask_keeps m s h
  | .eventFetch m, _ => execEventFetch_keeps m s h
  | .fabricConfig m, _ => execFabricConfig_keeps m s h
  | .fabricRead m, _ => execFabricRead_keeps m s h
  | .laneSetOut m, _ => execLaneSetOut_keeps m s h
  | .laneSetIn m, _ => execLaneSetIn_keeps m s h
  | .qpCreate m, _ => execQpCreate_keeps m s h
  | .qpModify m, _ => execQpModify_keeps m s h
  | .qpDestroy m, _ => execQpDestroy_keeps m s h
  | .qpReset m, _ => execQpReset_keeps m s h
  | .qpRead m, _ => execQpRead_keeps m s h
  | .sysResetAssert, _ => execSysResetAssert_keeps s h
  | .sysResetDeassert bootSel, _ => execSysResetDeassert_keeps bootSel s h
  | .watchdogExpire, _ => execWatchdogExpire_keeps s h
  | .refWaitRetry, _ => execRefWaitRetry_keeps s h
  | .pllFirstLock, _ => execPllFirstLock_keeps s h
  | .firmwareVerify cal, _ => execFirmwareVerify_keeps cal s h
  | .hbmTrainingComplete failed, _ => execHbmTrainingComplete_keeps failed s h
  | .opticalStageEnd, _ => execOpticalStageEnd_keeps s h
  | .bistStageComplete failed, _ => execBistStageComplete_keeps failed s h
  | .announce, _ => execAnnounce_keeps s h
  | .laneLoopback lane pass, _ => execLaneLoopback_keeps lane pass s h
  | .loopbackRetry lane pass, _ => execLoopbackRetry_keeps lane pass s h
  | .logicCheck c check bist, _ => execLogicCheck_keeps c check bist s h
  | .hardwareFence unit set, _ => execHardwareFence_keeps unit set s h
  | .repairRecordWrite ok, _ => execRepairRecordWrite_keeps ok s h
  | .errorRateWindow, _ => execErrorRateWindow_keeps s h
  | .rcRead who addr, _ => execRcRead_keeps who addr s h
  | .registerWrite who addr size v, _ => execRegisterWrite_keeps who addr size v s h
  | .undecodableInstruction c word poisoned, _ => execUndecodableInstruction_keeps c word poisoned s h
  | .sourceRestoreRequest failed replacement target, _ => execSourceRestoreRequest_keeps failed replacement target s h
  | .jobPauseNotice, _ => execJobPauseNotice_keeps s h
  | .jobResumeNotice, _ => execJobResumeNotice_keeps s h
  | .arpEntryAgeOut ip, _ => execArpEntryAgeOut_keeps ip s h
  | .vauxRemoved, hi => absurd rfl hi

/-- A step on an empty queue keeps. -/
theorem step_keeps_of_empty {s t : State} (hq : s.pending = []) (h : step s = .next t) : Keeps s t := by
  simp only [step, hq] at h
  injection h with h
  exact h ▸ State.idle_keeps s (Keeps.refl s)

/-- A step on a queue keeps all but the queue, of which it takes the front. -/
theorem step_keeps_of_cons {s t : State} {c : Instr} {rest : List Instr} (hq : s.pending = c :: rest) (hc : c ≠ .vauxRemoved)
    (h : step s = .next t) : Keeps { s with pending := rest } t := by
  simp only [step, hq] at h
  exact (exec_keeps (Keeps.refl _) c hc).imp t h

/-- The removal of VAUX leaves fuses and flash (R17, R801): the state after it, of the parts that the safety statement looks at. -/
theorem step_vauxRemoved {s t : State} {rest : List Instr} (hq : s.pending = .vauxRemoved :: rest) (h : step s = .next t) :
    t.pending = rest ∧ t.memOk = true ∧ t.therm.tripSeen = false ∧ t.pwr.ovSeen = false ∧ t.mem = [] ∧ t.flash = s.flash := by
  simp only [step, hq] at h
  obtain ⟨hp, hm⟩ := execVauxRemoved_keeps _ t h
  simp only [exec, execVauxRemoved] at h
  injection h with h
  subst h
  exact ⟨hp, hm, rfl, rfl, rfl, rfl⟩

end Sys2Proof.Machine

open Sys2Proof Sys2Proof.Machine Sys2Proof.Claims

/-- Settles O60: an empty queue, the removal of VAUX, and every other command at the front. -/
theorem everyStepKeepsMemoryCanonicalAndStickyBits : Obligations.EveryStepKeepsMemoryCanonicalAndStickyBits := by
  unfold Obligations.EveryStepKeepsMemoryCanonicalAndStickyBits
  intro s t h
  cases hq : s.pending with
  | nil =>
    obtain ⟨hp, hm, htrip, hov⟩ := step_keeps_of_empty hq h
    exact ⟨by simp [hp, hq], hm, fun _ => ⟨htrip, hov⟩, by simp⟩
  | cons c rest =>
    by_cases hc : c = .vauxRemoved
    · subst hc
      obtain ⟨hp, hm, hafter⟩ := step_vauxRemoved hq h
      exact ⟨hp, fun _ => hm, fun hne => absurd rfl hne, fun _ => hafter⟩
    · obtain ⟨hp, hm, htrip, hov⟩ := step_keeps_of_cons hq hc h
      exact ⟨hp, hm, fun _ => ⟨htrip, hov⟩, by simp [hc]⟩
end

section
/-!
PROOF. Words and their fields: a word reads in a field what the field holds, and zeroing fields clears their bits alone.
-/
namespace Sys2Proof.Machine

/-! ### Bits, fields and words -/

/-- A bit of a number, in the words of the library. -/
theorem bitN_eq_testBit (w k : Nat) : bitN w k = w.testBit k := by
  rw [Bool.eq_iff_iff, bitN, Nat.shiftRight_eq_div_pow, Nat.testBit_eq_decide_div_mod_eq, beq_iff_eq, decide_eq_true_eq]

/-- A field of a number, in the words of `CfgField.get`. -/
theorem fld_eq_div_mod (w hi lo : Nat) : fld w hi lo = w / 2 ^ lo % 2 ^ (hi + 1 - lo) := by
  rw [fld, Nat.shiftRight_eq_div_pow]

theorem word_nil : word [] = 0 := rfl

/-- A word from its lowest field and the rest. -/
theorem word_cons (lo w v : Nat) (fs : List (Nat × Nat × Nat)) : word ((lo, w, v) :: fs) = v % 2 ^ w * 2 ^ lo + word fs := by simp [word]

/-- The fields of a register word rise without overlap. -/
def FieldsRise (fs : List (Nat × Nat × Nat)) : Prop := fs.Pairwise fun f g => f.1 + f.2.1 ≤ g.1

/-- A word has no bits below its fields. -/
theorem two_pow_dvd_word {n : Nat} {fs : List (Nat × Nat × Nat)} (h : ∀ f ∈ fs, n ≤ f.1) : 2 ^ n ∣ word fs := by
  induction fs with
  | nil => exact Nat.dvd_zero _
  | cons f fs ih =>
    have hf : 2 ^ n ∣ f.2.2 % 2 ^ f.2.1 * 2 ^ f.1 := Nat.dvd_mul_left_of_dvd (Nat.pow_dvd_pow 2 (h f List.mem_cons_self)) _
    exact word_cons f.1 f.2.1 f.2.2 fs ▸ Nat.dvd_add hf (ih fun g hg => h g (List.mem_cons_of_mem _ hg))

/-- The bits of a word: those of its lowest field, and above it those of the rest. -/
theorem testBit_word_cons {lo w v : Nat} {fs : List (Nat × Nat × Nat)} (h : ∀ f ∈ fs, lo + w ≤ f.1) (b : Nat) :
    (word ((lo, w, v) :: fs)).testBit b = if b < lo then false else if b < lo + w then v.testBit (b - lo) else (word fs).testBit b := by
  obtain ⟨r, hr⟩ := two_pow_dvd_word h
  have hw : word ((lo, w, v) :: fs) = 2 ^ lo * (2 ^ w * r + v % 2 ^ w) := by
    rw [word_cons, hr, Nat.pow_add, Nat.mul_assoc, Nat.mul_add, Nat.add_comm (v % 2 ^ w * 2 ^ lo), Nat.mul_comm (v % 2 ^ w)]
  rw [hw, hr, Nat.testBit_two_pow_mul, Nat.testBit_two_pow_mul_add _ (Nat.mod_lt _ (Nat.two_pow_pos w)), Nat.testBit_two_pow_mul,
    Nat.testBit_mod_two_pow]
  by_cases h1 : b < lo
  · rw [if_pos h1, decide_eq_false (show ¬b ≥ lo by omega), Bool.false_and]
  · rw [if_neg h1, decide_eq_true (show b ≥ lo by omega), Bool.true_and]
    by_cases h2 : b < lo + w
    · have hb : b - lo < w := by omega
      rw [if_pos h2, if_pos hb, decide_eq_true hb, Bool.true_and]
    · rw [if_neg h2, if_neg (show ¬b - lo < w by omega), decide_eq_true (show b ≥ lo + w by omega), Bool.true_and, Nat.sub_sub]

/-- A word reads in a field what the field holds. -/
theorem testBit_word_of_mem {fs : List (Nat × Nat × Nat)} (h : FieldsRise fs) {f : Nat × Nat × Nat} (hf : f ∈ fs) {i : Nat} (hi : i < f.2.1) :
    (word fs).testBit (f.1 + i) = f.2.2.testBit i := by
  induction fs with
  | nil => simp at hf
  | cons g fs ih =>
    obtain ⟨hg, hfs⟩ := List.pairwise_cons.1 h
    rw [testBit_word_cons hg]
    rcases List.mem_cons.1 hf with rfl | hmem
    · simp [hi]
    · have := hg f hmem
      simp [show ¬f.1 + i < g.1 by omega, show ¬f.1 + i < g.1 + g.2.1 by omega, ih hfs hmem]

/-- The field of a word as a number. -/
theorem word_div_mod {fs : List (Nat × Nat × Nat)} (h : FieldsRise fs) {f : Nat × Nat × Nat} (hf : f ∈ fs) :
    word fs / 2 ^ f.1 % 2 ^ f.2.1 = f.2.2 % 2 ^ f.2.1 := by
  refine Nat.eq_of_testBit_eq fun i => ?_
  by_cases hi : i < f.2.1
  · simp [Nat.testBit_mod_two_pow, Nat.testBit_div_two_pow, hi, ← testBit_word_of_mem h hf hi, Nat.add_comm]
  · simp [Nat.testBit_mod_two_pow, hi]

/-- A bit lies in one of some fields. -/
def InFields (l : List (Nat × Nat)) (b : Nat) : Prop := ∃ g ∈ l, g.1 ≤ b ∧ b < g.1 + g.2

/-- A field with its value, zero where the list names the field by its lowest bit and width. -/
def zeroIn (l : List (Nat × Nat)) (f : Nat × Nat × Nat) : Nat × Nat × Nat := (f.1, f.2.1, if (f.1, f.2.1) ∈ l then 0 else f.2.2)

/-- Zeroing moves no field. -/
theorem FieldsRise.map_zeroIn {l : List (Nat × Nat)} {fs : List (Nat × Nat × Nat)} (h : FieldsRise fs) : FieldsRise (fs.map (zeroIn l)) :=
  List.pairwise_map.2 h

/-- A bit lies in one field of a word at most. -/
theorem FieldsRise.eq_of_common_bit {fs : List (Nat × Nat × Nat)} (h : FieldsRise fs) {f g : Nat × Nat × Nat} (hf : f ∈ fs) (hg : g ∈ fs) {b : Nat}
    (hfb : f.1 ≤ b ∧ b < f.1 + f.2.1) (hgb : g.1 ≤ b ∧ b < g.1 + g.2.1) : f = g := by
  induction fs with
  | nil => simp at hf
  | cons x fs ih =>
    obtain ⟨hx, hfs⟩ := List.pairwise_cons.1 h
    rcases List.mem_cons.1 hf with rfl | hf' <;> rcases List.mem_cons.1 hg with rfl | hg'
    · rfl
    · have := hx g hg'; omega
    · have := hx f hf'; omega
    · exact ih hfs hf' hg'

/-- A bit of a word that lies in none of its fields is clear. -/
theorem testBit_word_gap {fs : List (Nat × Nat × Nat)} (h : FieldsRise fs) {b : Nat} (hb : ∀ f ∈ fs, ¬(f.1 ≤ b ∧ b < f.1 + f.2.1)) :
    (word fs).testBit b = false := by
  induction fs with
  | nil => simp [word]
  | cons g fs ih =>
    obtain ⟨hg, hfs⟩ := List.pairwise_cons.1 h
    have := hb g List.mem_cons_self
    rw [testBit_word_cons hg, ih hfs fun f hf => hb f (List.mem_cons_of_mem _ hf)]
    split
    · rfl
    · rw [if_neg (by omega)]

/-- Zeroing fields of a word clears the bits of those fields and no other bit. -/
theorem testBit_word_zeroed {fs : List (Nat × Nat × Nat)} {l : List (Nat × Nat)} (h : FieldsRise fs)
    (hl : ∀ g ∈ l, g ∈ fs.map fun f => (f.1, f.2.1)) (b : Nat) :
    (word (fs.map (zeroIn l))).testBit b = true ↔ (word fs).testBit b = true ∧ ¬InFields l b := by
  by_cases hb : ∃ f ∈ fs, f.1 ≤ b ∧ b < f.1 + f.2.1
  · obtain ⟨f, hf, hlo, hhi⟩ := hb
    have hin : InFields l b ↔ (f.1, f.2.1) ∈ l := by
      refine ⟨fun ⟨g, hg, hgb⟩ => ?_, fun hg => ⟨_, hg, hlo, hhi⟩⟩
      obtain ⟨f', hf', rfl⟩ := List.mem_map.1 (hl g hg)
      rwa [h.eq_of_common_bit hf hf' ⟨hlo, hhi⟩ hgb]
    have hold := testBit_word_of_mem h hf (i := b - f.1) (by omega)
    have hnew := testBit_word_of_mem h.map_zeroIn (List.mem_map_of_mem (f := zeroIn l) hf) (i := b - f.1) (by simp only [zeroIn]; omega)
    simp only [zeroIn, Nat.add_sub_cancel' hlo] at hold hnew
    rw [hnew, hold, hin]
    split <;> simp_all
  · have hgap : ∀ f ∈ fs, ¬(f.1 ≤ b ∧ b < f.1 + f.2.1) := fun f hf hfb => hb ⟨f, hf, hfb⟩
    rw [testBit_word_gap h hgap, testBit_word_gap h.map_zeroIn (List.forall_mem_map.2 hgap)]
    simp
end Sys2Proof.Machine
end

section
/-!
PROOF. Fields of type RC and bits of type W1C (R16): what a read and a write clear.
-/
namespace Sys2Proof.Machine

/-- The fields of type RC, lowest bit and width (R16). -/
def Reg.rcFields : Reg → List (Nat × Nat)
  | .podStatus _ => [(16, 16)] | .stackErrors _ => [(0, 32), (32, 16)] | .sliceStatus _ => [(16, 16), (32, 16)]
  | .laneStatus _ => [(16, 16), (32, 16), (48, 16)] | .ilCounts => [(0, 32), (32, 16), (48, 16)]
  | .ilDiscards => [(0, 16), (16, 16), (32, 16), (48, 16)] | .ingestStatus => [(16, 16), (32, 16)] | .huddleStatus => [(32, 16)]
  | .stepCounts => [(0, 16), (16, 16), (32, 16)] | .ssCounts => [(0, 16), (16, 16), (32, 16), (48, 16)]
  | .pwrCounts => [(0, 16), (16, 16), (32, 16)] | .slotPwr _ => [(16, 16), (32, 32)] | .oppCounts => [(0, 16), (16, 16), (32, 16), (48, 16)]
  | .clkCounts => [(0, 16), (16, 16), (32, 16), (48, 16)] | .thermCounts => [(0, 16), (16, 16), (32, 16), (48, 16)]
  | .rasCounts => [(32, 16)] | _ => []

/-- The bits of type W1C (R16). -/
def Reg.w1cBits : Reg → List Nat
  | .arithFlags _ => [0, 1, 2, 3, 4] | .podStatus _ => [0, 1, 2, 3, 4, 5] | .accState _ => [18] | .pourState _ => [24] | .stackStatus _ => [11]
  | .laneStatus _ => [4] | .xeStatus => [0, 1, 2, 3, 4] | .ingestStatus => [0, 1] | .huddleStatus => [18, 19, 20] | .tickStatus => [3]
  | .relayStatus => [33] | .stepStatus => [23, 24] | .nwState _ => [9, 10] | .ssStatus => [10] | .pwrStatus => [17, 20] | .oppStatus => [20]
  | .refStatus => [11, 12] | .thermStatus => [14] | .coolStatus => [19] | .rasStatus => [45] | _ => []

/-- A register's word before, and the word after in which the fields of a list became zero. -/
def Zeroed (l : List (Nat × Nat)) (x y : Nat) : Prop :=
  ∃ fs, x = word fs ∧ y = word (fs.map (zeroIn l)) ∧ FieldsRise fs ∧ ∀ g ∈ l, g ∈ fs.map fun f => (f.1, f.2.1)

/-- What zeroing says bit by bit. -/
theorem Zeroed.testBit {l : List (Nat × Nat)} {x y : Nat} (h : Zeroed l x y) (b : Nat) :
    y.testBit b = true ↔ x.testBit b = true ∧ ¬InFields l b := by
  obtain ⟨fs, rfl, rfl, hrise, hmem⟩ := h
  exact testBit_word_zeroed hrise hmem b

/-- The flags of a register that a word names, as fields. -/
def namedFlags (l : List Nat) (w : Nat) : List (Nat × Nat) := (l.filter (bitN w)).map fun k => (k, 1)

/-- Membership among the named flags. -/
@[simp] theorem mem_namedFlags {l : List Nat} {w : Nat} {g : Nat × Nat} : g ∈ namedFlags l w ↔ (g.1 ∈ l ∧ bitN w g.1 = true) ∧ g.2 = 1 := by
  constructor
  · intro h
    obtain ⟨k, hk, rfl⟩ := List.mem_map.1 h
    exact ⟨List.mem_filter.1 hk, rfl⟩
  · rintro ⟨hk, hw⟩
    exact List.mem_map.2 ⟨g.1, List.mem_filter.2 hk, Prod.ext rfl hw.symm⟩

/-- A flag kept but where a word names it. -/
theorem b2n_and_not (x y : Bool) : b2n (x && !y) = if y = true then 0 else b2n x := by cases x <;> cases y <;> rfl

/-- What holds of each flag of a list holds of those that a word names. -/
theorem forall_namedFlags {l : List Nat} {w : Nat} {P : Nat × Nat → Prop} (h : ∀ k ∈ l, P (k, 1)) : ∀ g ∈ namedFlags l w, P g := by
  rintro ⟨k, n⟩ hg
  obtain ⟨⟨hk, -⟩, rfl⟩ := mem_namedFlags.1 hg
  exact h k hk

/-- The bits of the named flags. -/
theorem inFields_namedFlags {l : List Nat} {w b : Nat} : InFields (namedFlags l w) b ↔ b ∈ l ∧ bitN w b = true := by
  constructor
  · rintro ⟨⟨k, n⟩, hg, hb⟩
    obtain ⟨hk, rfl⟩ := mem_namedFlags.1 hg
    obtain rfl : k = b := by simp only at hb; omega
    exact hk
  · exact fun h => ⟨(b, 1), mem_namedFlags.2 ⟨h, rfl⟩, Nat.le_refl b, Nat.lt_succ_self b⟩

/-- A read that clears makes the RC fields of the register zero (R16). -/
theorem regVal_clearRc (s : State) (r : Reg) (hr : r.rcFields ≠ []) :
    Zeroed r.rcFields (s.regVal r) ((s.clearRc r (2 ^ 64 - 1)).regVal r) := by
  cases r
  case podStatus | stackErrors | sliceStatus | laneStatus | ilCounts | ilDiscards | ingestStatus | huddleStatus | stepCounts | ssCounts | pwrCounts
      | slotPwr | oppCounts | clkCounts | thermCounts | rasCounts =>
    refine ⟨_, rfl, ?_, ?_, ?_⟩
    · simp [State.regVal, State.clearRc, Reg.rcFields, zeroIn, fld, LaneSt.statusWord, SlotPwr.word, State.pendingRepairs]
    · simp [FieldsRise]
    · simp [Reg.rcFields]
  all_goals exact absurd rfl hr

/-- A write makes the W1C flags that it names zero (R16), where the register's flags are fields of one bit. -/
theorem regVal_clearW1c (s : State) (r : Reg) (w : Nat) (hr : r.w1cBits ≠ []) (ha : ∀ c, r ≠ .arithFlags c) (hp : ∀ c, r ≠ .podStatus c) :
    Zeroed (namedFlags r.w1cBits w) (s.regVal r) ((s.clearW1c r w).regVal r) := by
  cases r
  case arithFlags c => exact absurd rfl (ha c)
  case podStatus c => exact absurd rfl (hp c)
  case accState | pourState | stackStatus | laneStatus | xeStatus | ingestStatus | huddleStatus | tickStatus | relayStatus | stepStatus | nwState
      | ssStatus | pwrStatus | oppStatus | refStatus | thermStatus | coolStatus | rasStatus =>
    refine ⟨_, rfl, ?_, ?_, forall_namedFlags ?_⟩
    · simp [State.regVal, State.clearW1c, Reg.w1cBits, zeroIn, b2n_and_not, tabGet_tabSet, Cluster.accStateWord, Cluster.pourStateWord, Cluster.mmas,
        Cluster.corrPending, Cluster.pours, LaneSt.statusWord, HuddleSt.tickWord, State.stepWord, WatchInput.stateWord, StreamSt.statusWord,
        OppSt.statusWord, ClockSt.statusWord, State.rasWord, State.countUnits] <;> rfl
    · simp [FieldsRise]
    · simp [Reg.w1cBits]
  all_goals exact absurd rfl hr

/-- Flags side by side from bit 0 on, cleared where a word names them. -/
theorem testBit_and_not_ofNat {n : Nat} (x : BitVec n) (w b : Nat) :
    (x &&& ~~~BitVec.ofNat n w).toNat.testBit b = true ↔ x.toNat.testBit b = true ∧ ¬(b < n ∧ bitN w b = true) := by
  rw [BitVec.testBit_toNat, BitVec.testBit_toNat, BitVec.getLsbD_and, BitVec.getLsbD_not, BitVec.getLsbD_ofNat, bitN_eq_testBit]
  by_cases hb : b < n
  · simp [hb]
  · simp [BitVec.getLsbD_of_ge x b (Nat.le_of_not_lt hb)]

/-- A write clears the W1C bits that it names and no other bit (R16). -/
theorem testBit_regVal_clearW1c (s : State) (r : Reg) (w : Nat) (hr : r.w1cBits ≠ []) (b : Nat) :
    ((s.clearW1c r w).regVal r).testBit b = true ↔ (s.regVal r).testBit b = true ∧ ¬(b ∈ r.w1cBits ∧ bitN w b = true) := by
  by_cases ha : ∃ c, r = .arithFlags c
  · obtain ⟨c, rfl⟩ := ha
    have hb : b ∈ (Reg.arithFlags c).w1cBits ↔ b < 5 := by simp [Reg.w1cBits]; omega
    rw [hb]
    simpa [State.regVal, State.clearW1c] using testBit_and_not_ofNat (s.cl c).arith w b
  by_cases hp : ∃ c, r = .podStatus c
  · obtain ⟨c, rfl⟩ := hp
    have hb : b ∈ (Reg.podStatus c).w1cBits ↔ b < 6 := by simp [Reg.w1cBits]; omega
    have hword (v : Nat) := testBit_word_cons (lo := 0) (w := 6) (v := v) (fs := [(16, 16, (s.cl c).podCount)]) (by simp) b
    simp only [State.regVal, State.clearW1c, State.cl_modCl, if_true]
    rw [hb, hword, hword]
    by_cases h6 : b < 6
    · simpa [h6] using testBit_and_not_ofNat (s.cl c).podFlags w b
    · simp [h6]
  · rw [(regVal_clearW1c s r w hr (fun c h => ha ⟨c, h⟩) (fun c h => hp ⟨c, h⟩)).testBit, inFields_namedFlags]
end Sys2Proof.Machine
end

section
/-!
PROOF. Configuration registers (R21, R22): what a write of fields leaves in the register.
-/
namespace Sys2Proof.Machine

/-! ### Configuration registers (R21, R22) -/

/-- What a field takes from a value written (R21, R22). -/
def CfgField.taken (f : CfgField) (old new : Nat) : Nat := if f.res then 0 else if f.ok (f.get new) then f.get new else f.get old

/-- A field's value fits its width. -/
theorem CfgField.get_lt (f : CfgField) (w : Nat) : f.get w < 2 ^ f.width := Nat.mod_lt _ (Nat.two_pow_pos _)

/-- What a field takes fits its width. -/
theorem CfgField.taken_lt (f : CfgField) (old new : Nat) : f.taken old new < 2 ^ f.width := by
  unfold CfgField.taken
  split
  · exact Nat.two_pow_pos _
  · split <;> exact f.get_lt _

/-- A word written field by field is the word of the fields that it takes. -/
theorem writeFields_eq_word (fs : List CfgField) (old new : Nat) :
    writeFields fs old new = word (fs.map fun f => (f.lo, f.width, f.taken old new)) := by
  simp only [writeFields, word, List.map_map]
  congr 1
  refine List.map_congr_left fun f _ => ?_
  rw [Function.comp_apply, Nat.mod_eq_of_lt (f.taken_lt old new)]
  rfl

/-- The fields of a configuration register rise without overlap. -/
theorem regFields_rise (r : Reg) (v : Nat) : (regFields r v).Pairwise fun f g => f.lo + f.width ≤ g.lo := by
  cases r
  case oppCfg | kwCfg | relayCfg | relaySite | thermCfg | refCfg | partCfg | classMap | fabCfg | fabTune | waitLimit | transBase =>
    simp [regFields, oppCfgFields, kwCfgFields, relayCfgFields, relaySiteFields, thermCfgFields, refCfgFields, partCfgFields, classMapFields,
      fabCfgFields, fabTuneFields, anyField, resField, rangeField]
  all_goals exact List.Pairwise.nil

/-- The fields of a configuration register, each with a value of its own, make a word that reads as those values. -/
theorem get_word_regFields {r : Reg} {v : Nat} {f : CfgField} (hf : f ∈ regFields r v) {val : CfgField → Nat} (hval : val f < 2 ^ f.width) :
    f.get (word ((regFields r v).map fun f => (f.lo, f.width, val f))) = val f := by
  have hmem : (f.lo, f.width, val f) ∈ (regFields r v).map fun f => (f.lo, f.width, val f) := List.mem_map_of_mem hf
  have hrise : FieldsRise ((regFields r v).map fun f => (f.lo, f.width, val f)) := List.pairwise_map.2 (regFields_rise r v)
  have hget := word_div_mod hrise hmem
  rwa [Nat.mod_eq_of_lt hval] at hget

/-- A field of a word that a configuration write made. -/
theorem get_writeFields {r : Reg} {v : Nat} {f : CfgField} (hf : f ∈ regFields r v) (old new : Nat) :
    f.get (writeFields (regFields r v) old new) = f.taken old new := by
  rw [writeFields_eq_word]
  exact get_word_regFields hf (f.taken_lt old new)

/-- A flag read from a word, as a number. -/
theorem b2n_bitN (w k : Nat) : b2n (bitN w k) = w / 2 ^ k % 2 := by
  rcases Nat.mod_two_eq_zero_or_one (w / 2 ^ k) with h | h <;> simp [b2n, bitN, Nat.shiftRight_eq_div_pow, h]

/-- The word whose fields are those of another word, and whose Res bits are zero. -/
def cleanWord (fs : List CfgField) (w : Nat) : Nat := word (fs.map fun f => (f.lo, f.width, if f.res then 0 else f.get w))

/-- A clean word reads field by field as the word it was made of, but for Res. -/
theorem get_cleanWord {r : Reg} {v : Nat} {f : CfgField} (hf : f ∈ regFields r v) (w : Nat) :
    f.get (cleanWord (regFields r v) w) = if f.res then 0 else f.get w := by
  refine get_word_regFields hf (val := fun f => if f.res then 0 else f.get w) ?_
  split
  · exact Nat.two_pow_pos _
  · exact f.get_lt w

theorem cleanWord_nil (w : Nat) : cleanWord [] w = 0 := rfl

/-- A Res field adds nothing to the word. -/
theorem cleanWord_resField (lo width : Nat) (fs : List CfgField) (w : Nat) : cleanWord (resField lo width :: fs) w = cleanWord fs w := by
  simp [cleanWord, word_cons, resField]

/-- A field that is not Res enters the word. -/
theorem cleanWord_cons {f : CfgField} (h : f.res = false) (fs : List CfgField) (w : Nat) :
    cleanWord (f :: fs) w = f.get w * 2 ^ f.lo + cleanWord fs w := by
  simp [cleanWord, word_cons, h, Nat.mod_eq_of_lt (f.get_lt w)]

/-- A field that takes every value enters the word. -/
theorem cleanWord_anyField (lo width : Nat) (fs : List CfgField) (w : Nat) :
    cleanWord (anyField lo width :: fs) w = w / 2 ^ lo % 2 ^ width * 2 ^ lo + cleanWord fs w := cleanWord_cons rfl fs w

/-- A field that holds a range enters the word. -/
theorem cleanWord_rangeField (lo width a b : Nat) (fs : List CfgField) (w : Nat) :
    cleanWord (rangeField lo width a b :: fs) w = w / 2 ^ lo % 2 ^ width * 2 ^ lo + cleanWord fs w := cleanWord_cons rfl fs w

/-- Five classes of four bits are the low twenty bits. -/
theorem word_classMap (w : Nat) :
    word ((List.range 5).map fun i => (4 * i, 4, ((List.range 5).map fun i => fld w (4 * i + 3) (4 * i)).getD i 0)) = w % 2 ^ 20 := by
  simp [List.range_succ, word_cons, word_nil, fld_eq_div_mod]
  omega

/-- What a configuration register reads as after it took a word, where it is held field by field. -/
theorem regVal_putReg_eq_cleanWord (s : State) (r : Reg) (v w : Nat)
    (hr : r = .relayCfg ∨ r = .relaySite ∨ (∃ k p, r = .partCfg k p) ∨ (∃ k, r = .classMap k) ∨ r = .fabCfg ∨ r = .fabTune) :
    (s.putReg r w).regVal r = cleanWord (regFields r v) w := by
  rcases hr with rfl | rfl | ⟨k, p, rfl⟩ | ⟨k, rfl⟩ | rfl | rfl
  · simp [State.putReg, State.setRelayCfg, State.modHud, State.regVal, regFields, relayCfgFields, cleanWord_nil, cleanWord_resField,
      cleanWord_anyField, cleanWord_rangeField, word_nil, word_cons, fld_eq_div_mod, b2n_bitN]
  · simp [State.putReg, State.setRelaySite, State.modHud, State.regVal, regFields, relaySiteFields, cleanWord_nil, cleanWord_anyField, word_nil,
      word_cons, fld_eq_div_mod]
  · simp [State.putReg, State.setPart, State.regVal, Stack.part, tabGet_tabSet, Part.cfgWord, regFields, partCfgFields, cleanWord_nil,
      cleanWord_resField, cleanWord_rangeField, word_nil, word_cons, fld_eq_div_mod]
  · have hw : (s.putReg (.classMap k) w).regVal (.classMap k) = w % 2 ^ 20 := by
      simp only [State.putReg, State.setClassMap, State.regVal, State.stack_setStack, if_true]
      exact word_classMap w
    rw [hw]
    simp [regFields, classMapFields, cleanWord_nil, cleanWord_resField, cleanWord_anyField]
  · simp [State.putReg, State.setFabCfg, State.regVal, Fabric.cfgWord, regFields, fabCfgFields, cleanWord_nil, cleanWord_resField,
      cleanWord_anyField, cleanWord_rangeField, word_nil, word_cons, fld_eq_div_mod]
  · simp [State.putReg, State.setFabTune, State.regVal, Fabric.tuneWord, regFields, fabTuneFields, cleanWord_nil, cleanWord_resField,
      cleanWord_anyField, cleanWord_rangeField, word_nil, word_cons, fld_eq_div_mod]

/-- A configuration register reads, field by field, as the word that it took; a word enters with its Res bits zero. -/
theorem get_regVal_putReg (s : State) {r : Reg} {v w : Nat} {f : CfgField} (hr : r ≠ .refCfg) (hf : f ∈ regFields r v)
    (hres : f.res = true → f.get w = 0) : f.get ((s.putReg r w).regVal r) = f.get w := by
  have hclean : f.get (cleanWord (regFields r v) w) = f.get w := by
    rw [get_cleanWord hf]
    split
    · next h => exact (hres h).symm
    · rfl
  cases r
  case refCfg => exact absurd rfl hr
  case oppCfg | kwCfg | thermCfg => rfl
  case waitLimit | transBase => simp [State.putReg, State.regVal]
  case relayCfg | relaySite | partCfg | classMap | fabCfg | fabTune => rw [regVal_putReg_eq_cleanWord s _ v w (by simp), hclean]
  all_goals exact absurd hf List.not_mem_nil
end Sys2Proof.Machine
end

section
/-!
PROOF. Accesses to registers (R16, R306, R880) and to event counters (R268, R270).
-/
open Sys2Proof.Claims

namespace Sys2Proof.Machine

/-! ### Reads and writes of registers (R16, R306, R880) -/

/-- Who reaches a place of the map (R306): Nganor where it runs, a program where its cluster and the window's are open. -/
theorem State.reaches_iff (s : State) (who : Option (BitVec 8)) (p : Place) :
    s.reaches (who.map (·.toNat)) p = true ↔ (who = none → s.nganorUp = true) ∧ ∀ c, who = some c →
      s.clocked = true ∧ s.open_ c.toNat = true ∧ ∀ d off, p = .csr d off → s.open_ d = true := by
  cases who with
  | none => simp [State.reaches]
  | some c => cases p <;> simp [State.reaches, and_assoc]

/-- A read by an agent that does not reach the place, or of an offset that nothing lists, changes nothing (R16, R306). -/
theorem execRcRead_ignored {s : State} {who : Option (BitVec 8)} {addr : BitVec 48}
    (h : ¬s.reaches (who.map (·.toNat)) (s.place addr.toNat) = true ∨ (s.place addr.toNat).reg = none) : execRcRead who addr s = .next s := by
  unfold execRcRead
  rcases h with h | h <;> simp [h]

/-- The state that a read of a register leaves beside its answer: its RC fields clear where the reader's reads clear them (R16). -/
def State.afterRead (s : State) (who : Option (BitVec 8)) (r : Reg) : State :=
  if who = none ∨ progClears r = true then s.clearRc r (2 ^ 64 - 1) else s

/-- A read other than a program's claim of a mailbox gives the register's word. -/
theorem State.readReg_eq (s : State) (who : Option (BitVec 8)) (r : Reg) (h : who = none ∨ ∀ m, r ≠ .mbClaim m) :
    s.readReg (who.map (·.toNat)) r (2 ^ 64 - 1) = (s.afterRead who r, s.regVal r) := by
  cases who with
  | none => rfl
  | some c =>
    have hm : ∀ m, r ≠ .mbClaim m := h.resolve_left (by simp)
    cases r
    case mbClaim m => exact absurd rfl (hm m)
    all_goals simp [State.readReg, State.afterRead]

/-- A read returns the register's word and leaves what `afterRead` says. -/
theorem execRcRead_of_reaches {s : State} {who : Option (BitVec 8)} {addr : BitVec 48} {r : Reg}
    (h : s.reaches (who.map (·.toNat)) (s.place addr.toNat) = true) (hr : (s.place addr.toNat).reg = some r)
    (hm : who = none ∨ ∀ m, r ≠ .mbClaim m) : execRcRead who addr s = .next { s.afterRead who r with readout := s.regVal r } := by
  unfold execRcRead
  simp only [h, hr, if_true, s.readReg_eq who r hm]

/-- A read changes counts alone. -/
theorem State.clearRc_frame (s : State) (r : Reg) (mask : Nat) :
    (s.clearRc r mask).mem = s.mem ∧ (s.clearRc r mask).job = s.job ∧ (s.clearRc r mask).units = s.units := by
  unfold State.clearRc
  split <;> exact ⟨rfl, rfl, rfl⟩

/-- A read of a register without RC fields changes nothing. -/
theorem State.clearRc_of_nil (s : State) (r : Reg) (mask : Nat) (h : r.rcFields = []) : s.clearRc r mask = s := by
  cases r
  case podStatus | stackErrors | sliceStatus | laneStatus | ilCounts | ilDiscards | ingestStatus | huddleStatus | stepCounts | ssCounts | pwrCounts
      | slotPwr | oppCounts | clkCounts | thermCounts | rasCounts => simp [Reg.rcFields] at h
  all_goals rfl

/-- A read leaves memory, the job and the unit table. -/
theorem State.afterRead_frame (s : State) (who : Option (BitVec 8)) (r : Reg) :
    (s.afterRead who r).mem = s.mem ∧ (s.afterRead who r).job = s.job ∧ (s.afterRead who r).units = s.units := by
  unfold State.afterRead
  split
  · exact s.clearRc_frame r _
  · exact ⟨rfl, rfl, rfl⟩

/-- A program's read in a block where only Nganor's clear, and a read of a register without RC fields, leave the state as it is. -/
theorem State.afterRead_eq_self (s : State) {who : Option (BitVec 8)} {r : Reg} (h : who ≠ none ∧ progClears r = false ∨ r.rcFields = []) :
    s.afterRead who r = s := by
  unfold State.afterRead
  rcases h with ⟨hwho, hprog⟩ | hnil
  · simp [hwho, hprog]
  · rw [s.clearRc_of_nil r _ hnil, ite_self]

/-- A read that clears makes the RC fields zero, and no other bit. -/
theorem State.regVal_afterRead (s : State) {who : Option (BitVec 8)} {r : Reg} (h : who = none ∨ progClears r = true) (hr : r.rcFields ≠ []) :
    Zeroed r.rcFields (s.regVal r) ((s.afterRead who r).regVal r) := by
  rw [State.afterRead, if_pos h]
  exact regVal_clearRc s r hr

/-- No register reads back what the last read returned. -/
theorem State.regVal_readout (s : State) (r : Reg) (v : Nat) : State.regVal { s with readout := v } r = s.regVal r := by
  cases r <;> rfl

/-- A write that does not reach its place, is not whole and aligned, or names no register changes nothing (R306, R880). -/
theorem execRegisterWrite_ignored {s : State} {who : Option (BitVec 8)} {addr : BitVec 48} {size : Nat} {v : W64}
    (h : ¬s.reaches (who.map (·.toNat)) (s.place addr.toNat) = true ∨ ¬((size = 1 ∨ size = 2 ∨ size = 4 ∨ size = 8) ∧ addr.toNat % size = 0) ∨
      (s.place addr.toNat).reg = none) : execRegisterWrite who addr size v s = .next s := by
  unfold execRegisterWrite
  rcases h with h | h | h
  · simp [h]
  · have hwhole : (decide (size = 1 ∨ size = 2 ∨ size = 4 ∨ size = 8) && decide (addr.toNat % size = 0)) = false := by
      rw [← Bool.decide_and]
      exact decide_eq_false h
    simp only [hwhole, Bool.false_and, Bool.false_eq_true, if_false]
  · simp [h]

/-- Nganor's write reaches the register. -/
theorem execRegisterWrite_nganor {s : State} {addr : BitVec 48} {size : Nat} {v : W64} {r : Reg}
    (h : s.reaches none (s.place addr.toNat) = true) (hw : (size = 1 ∨ size = 2 ∨ size = 4 ∨ size = 8) ∧ addr.toNat % size = 0)
    (hr : (s.place addr.toNat).reg = some r) :
    execRegisterWrite none addr size v s =
      .next (s.hubWrite r (addr.toNat / 8 * 8) (accMask addr.toNat size) (accWord addr.toNat size v.toNat)) := by
  simp [execRegisterWrite, h, hw, hr]

/-- A program's write reaches the register, but for the block that programs do not write (R490). -/
theorem execRegisterWrite_program {s : State} {c : BitVec 8} {addr : BitVec 48} {size : Nat} {v : W64} {r : Reg}
    (h : s.reaches (some c.toNat) (s.place addr.toNat) = true) (hw : (size = 1 ∨ size = 2 ∨ size = 4 ∨ size = 8) ∧ addr.toNat % size = 0)
    (hr : (s.place addr.toNat).reg = some r) (hp : ∀ off, s.place addr.toNat ≠ .cacheCtl off) :
    execRegisterWrite (some c) addr size v s =
      .next (s.progWrite c.toNat r (accMask addr.toNat size) (accWord addr.toNat size v.toNat)) := by
  simp [execRegisterWrite, h, hw, hr]

/-- Programs do not write the cache and regulator control (R490). -/
theorem execRegisterWrite_cacheCtl {s : State} {c : BitVec 8} {addr : BitVec 48} {size : Nat} {v : W64} {off : Nat}
    (hp : s.place addr.toNat = .cacheCtl off) : execRegisterWrite (some c) addr size v s = .next s := by
  simp only [execRegisterWrite, hp]
  cases (Place.cacheCtl off).reg <;> simp

/-- Nganor's write of a register with W1C bits clears those bits. -/
theorem State.hubWrite_of_w1c (s : State) (r : Reg) (a mask w : Nat) (h : r.w1cBits ≠ []) : s.hubWrite r a mask w = s.clearW1c r w := by
  cases r
  case arithFlags | podStatus | accState | pourState | stackStatus | laneStatus | xeStatus | ingestStatus | huddleStatus | tickStatus | relayStatus
      | stepStatus | nwState | ssStatus | pwrStatus | oppStatus | refStatus | thermStatus | coolStatus | rasStatus => rfl
  all_goals exact absurd rfl h

/-- Clearing W1C bits leaves memory and the job. -/
theorem State.clearW1c_frame (s : State) (r : Reg) (w : Nat) : (s.clearW1c r w).mem = s.mem ∧ (s.clearW1c r w).job = s.job := by
  unfold State.clearW1c
  split
  case h_1 => split <;> exact ⟨rfl, rfl⟩
  all_goals exact ⟨rfl, rfl⟩

/-- Nganor's write of a configuration register configures it; the fabric's registers hold still while a job runs. -/
theorem State.hubWrite_of_config (s : State) (r : Reg) (a mask w v : Nat) (h : regFields r v ≠ [])
    (hj : r = .fabCfg ∨ r = .fabTune → s.jobRuns = false) : s.hubWrite r a mask w = s.configure r a (maskedWrite (s.regVal r) mask w) := by
  cases r
  case fabCfg | fabTune => simp [State.hubWrite, hj]
  case waitLimit | transBase | classMap | partCfg | relayCfg | relaySite | oppCfg | kwCfg | refCfg | thermCfg => rfl
  all_goals exact absurd rfl h

/-- A write of all eight bytes replaces the register. -/
theorem maskedWrite_whole (old a v : Nat) (ha : a % 8 = 0) (hv : v < 2 ^ 64) : maskedWrite old (accMask a 8) (accWord a 8 v) = v := by
  have hmask : accMask a 8 = 2 ^ 64 - 1 := by simp [accMask, ha]
  have hword : accWord a 8 v = v := by simp [accWord, ha, Nat.mod_eq_of_lt (show v < 18446744073709551616 from hv)]
  rw [maskedWrite, hmask, hword, Nat.xor_self, Nat.and_zero, Nat.zero_or, Nat.and_two_pow_sub_one_eq_mod, Nat.mod_eq_of_lt hv]

/-- Logging a reserved encoding (R22) changes the log, and nothing else. -/
theorem State.errReserved_log (s : State) (a v : Nat) : ∃ l, l ≠ s.log ∧ s.errReserved a v = { s with log := l } := by
  unfold State.errReserved State.err
  split
  · refine ⟨_, fun h => ?_, rfl⟩
    have := congrArg LogSt.eventSeq h
    simp at this
  · refine ⟨_, fun h => ?_, rfl⟩
    have := congrArg LogSt.droppedNow h
    simp at this

/-- A program's write ignores a register that programs do not write. -/
theorem State.progWrite_of_readOnly (s : State) (c : Nat) (r : Reg) (mask w : Nat)
    (h : r ∈ [Reg.hbmInfo, .tick, .stepStatus, .stepNumber, .committedStep, .pwrStatus, .oppCfg, .relayCfg, .refCfg, .fabCfg, .thermCfg,
      .bootStatus, .rasStatus]) : s.progWrite c r mask w = s := by
  simp only [List.mem_cons, List.not_mem_nil, or_false] at h
  rcases h with rfl | rfl | rfl | rfl | rfl | rfl | rfl | rfl | rfl | rfl | rfl | rfl | rfl <;> rfl

/-! ### Event counters in their windows (R268, R270) -/

/-- A register that is no event counter, or one of the cluster named. -/
def Reg.counterOf (o : Option Nat) : Reg → Bool
  | .eReg c _ | .evAdd c _ => o == some c
  | _ => true

/-- What holds of each register of a table holds of the one that an offset picks. -/
theorem pick_all {l : List Reg} {f : Reg → Bool} (k : Nat) (h : l.all f = true) : (pick l k).all f = true := by
  rw [Option.all_eq_true]
  exact fun r hr => List.all_eq_true.1 h r (List.mem_of_getElem? hr)

/-- The window of a cluster lists counters of that cluster alone. -/
theorem csrReg_all_counterOf (c w : Nat) : (csrReg c w).all (Reg.counterOf (some c)) = true := by
  simp [csrReg, apply_ite (Option.all (Reg.counterOf (some c))), pick_all, Reg.counterOf]

/-- The cache and regulator control lists no event counter. -/
theorem cacheCtlReg_all_counterOf (w : Nat) : (cacheCtlReg w).all (Reg.counterOf none) = true := by
  simp only [cacheCtlReg, apply_ite (Option.all (Reg.counterOf none)), apply_ite (Reg.counterOf none), Option.all_some]
  simp [pick_all, Reg.counterOf]

/-- The fabric and ingest blocks list no event counter. -/
theorem fabricReg_all_counterOf (w : Nat) : (fabricReg w).all (Reg.counterOf none) = true := by
  simp [fabricReg, apply_ite (Option.all (Reg.counterOf none)), pick_all, Reg.counterOf]

/-- The control blocks list no event counter. -/
theorem controlReg_all_counterOf (w : Nat) : (controlReg w).all (Reg.counterOf none) = true := by
  simp only [controlReg]
  split
  case h_2 =>
    simp only [apply_ite (Option.all (Reg.counterOf none)), apply_ite (Reg.counterOf none), Option.all_some]
    simp [pick_all, Reg.counterOf]
  all_goals simp [apply_ite (Option.all (Reg.counterOf none)), pick_all, Reg.counterOf]

/-- An event counter lies in the window of its own cluster. -/
theorem Place.csr_of_counter {p : Place} {r : Reg} {d k : Nat} (h : p.reg = some r) (hr : r = .evAdd d k ∨ r = .eReg d k) :
    ∃ off, p = .csr d off := by
  have hcounter (o : Option Nat) (ho : p.reg.all (Reg.counterOf o) = true) : o = some d := by
    rcases hr with rfl | rfl <;> simpa [h, Reg.counterOf] using ho
  cases p with
  | csr c off => exact ⟨off, by rw [Option.some.inj (hcounter _ (csrReg_all_counterOf c _))]⟩
  | cacheCtl off => exact nomatch hcounter _ (cacheCtlReg_all_counterOf _)
  | fabric off => exact nomatch hcounter _ (fabricReg_all_counterOf _)
  | control off => exact nomatch hcounter _ (controlReg_all_counterOf _)
  | hbm | ls | mailbox | mgmt | unmapped => simp [Place.reg] at h

/-- A counter after a counter was set (R267). -/
theorem Cluster.ev_setEv (x : Cluster) (k v e : Nat) : (x.setEv k v).ev e = if e = k then v % 2 ^ 64 else x.ev e := by
  simp only [Cluster.ev, Cluster.setEv, tabGet_tabPut, eq_comm (a := k)]
  split <;> simp

/-- Setting a counter of one cluster changes that counter and nothing else. -/
theorem State.setCl_setEv (s : State) (d k v : Nat) :
    OnlyCluster d s (s.setCl d ((s.cl d).setEv k v)) ∧
      (s.setCl d ((s.cl d).setEv k v)).cl d = { s.cl d with e := ((s.setCl d ((s.cl d).setEv k v)).cl d).e } ∧
      CounterWritten (s.cl d) ((s.setCl d ((s.cl d).setEv k v)).cl d) k v := by
  refine ⟨⟨rfl, fun c hc => by simp [hc]⟩, by simp [Cluster.setEv], fun e => ?_⟩
  simp [Cluster.ev_setEv]

/-- A program's write to EV_ADD of an open cluster adds (R268). -/
theorem State.progWrite_evAdd (s : State) {c d k mask w : Nat} (hk : k < 63) (hd : s.open_ d = true) :
    s.progWrite c (.evAdd d k) mask w = s.setCl d ((s.cl d).setEv k ((s.cl d).ev k + w)) := by
  simp only [State.open_, Bool.and_eq_true, Bool.not_eq_true'] at hd
  simp [State.progWrite, State.arrive, hd, Nat.ne_of_lt hk]

/-- A program's write to an event counter's register sets the counter (R270). -/
theorem State.progWrite_eReg (s : State) {c d k mask w : Nat} (hk : k < 63) :
    s.progWrite c (.eReg d k) mask w = s.setCl d ((s.cl d).setEv k (maskedWrite (s.regVal (.eReg d k)) mask w)) := by
  simp [State.progWrite, State.modCl, Nat.ne_of_lt hk]

/-! ### A configuration write as a whole -/

/-- A configuration register takes its value without logging, and leaves memory and the job. -/
theorem State.putReg_log_mem_job (s : State) (r : Reg) (w : Nat) :
    (s.putReg r w).log = s.log ∧ (s.putReg r w).mem = s.mem ∧ (s.putReg r w).job = s.job := by
  unfold State.putReg
  split <;> exact ⟨rfl, rfl, rfl⟩

/-- A configuration write takes each field that is not reserved, and logs where one is (R22). -/
theorem State.configure_spec (s : State) {r : Reg} (a : Nat) {v : Nat} (hr : r ≠ .refCfg) :
    (s.configure r a v).mem = s.mem ∧ (s.configure r a v).job = s.job ∧
    ((s.configure r a v).log ≠ s.log ↔ reservedWrite (regFields r v) v = true) ∧
    ∀ f ∈ regFields r v, f.get ((s.configure r a v).regVal r) = f.taken (s.regVal r) v := by
  obtain ⟨l, hl, hlog⟩ := s.errReserved_log a v
  have hconf : s.configure r a v =
      (if reservedWrite (regFields r v) v = true then { s with log := l } else s).putReg r (writeFields (regFields r v) (s.regVal r) v) := by
    unfold State.configure
    rw [hlog]
    cases r
    case refCfg => exact absurd rfl hr
    all_goals rfl
  obtain ⟨hlog', hmem, hjob⟩ := State.putReg_log_mem_job
    (if reservedWrite (regFields r v) v = true then { s with log := l } else s) r (writeFields (regFields r v) (s.regVal r) v)
  rw [hconf, hlog', hmem, hjob]
  refine ⟨by split <;> rfl, by split <;> rfl, by split <;> simp_all, fun f hf => ?_⟩
  have hget := get_writeFields hf (s.regVal r) v
  rw [get_regVal_putReg _ hr hf (fun h => by rw [hget, CfgField.taken, if_pos h]), hget]

/-- When R22 logs a write. -/
theorem reservedWrite_iff (fs : List CfgField) (v : Nat) :
    reservedWrite fs v = true ↔ ∃ f ∈ fs, f.res = false ∧ f.ok (f.get v) = false := by
  simp [reservedWrite]

end Sys2Proof.Machine
end

section
/-!
PROOF. Register accesses by the types of their fields: O56.
-/
open Sys2Proof Sys2Proof.Machine Sys2Proof.Claims

/-- Settles O56: reads by what a read clears, writes by the kind of register. -/
theorem registerAccessesFollowTheFieldTypes : Obligations.RegisterAccessesFollowTheFieldTypes := by
  unfold Obligations.RegisterAccessesFollowTheFieldTypes
  intro s who addr a p may rc byProgram w1c bits
  have hmay : s.reaches (who.map (·.toNat)) p = true ↔ may := s.reaches_iff who p
  refine ⟨fun h => execRcRead_ignored (h.imp_left (mt hmay.1)), fun hm r hr hclaim => ?_, fun size v => ?_⟩
  · obtain ⟨hmem, hjob, hunits⟩ := s.afterRead_frame who r
    refine ⟨_, execRcRead_of_reaches (hmay.2 hm) hr hclaim, rfl, hmem, hjob, hunits, fun h => ?_, fun h hrc b _ => ?_⟩
    · rw [s.afterRead_eq_self h]
    · rw [State.regVal_readout, bitN_eq_testBit, bitN_eq_testBit]
      exact (s.regVal_afterRead h hrc).testBit b
  · intro x whole placed
    refine ⟨fun h => execRegisterWrite_ignored (h.imp_left (mt hmay.1)), fun hm hw r hr => ⟨?_, ?_, ?_, ?_, ?_⟩⟩
    · rintro rfl hw1c
      obtain ⟨hmem, hjob⟩ := s.clearW1c_frame r placed
      refine ⟨_, (execRegisterWrite_nganor (hmay.2 hm) hw hr).trans
        (congrArg _ (s.hubWrite_of_w1c r _ _ _ hw1c)), hmem, hjob, fun b _ => ?_⟩
      rw [bitN_eq_testBit, bitN_eq_testBit]
      exact testBit_regVal_clearW1c s r placed hw1c b
    · rintro rfl rfl hfields href hjobs
      obtain ⟨hmem, hjob, hlog, hget⟩ := s.configure_spec (a / 8 * 8) (v := v.toNat) href
      refine ⟨_, (execRegisterWrite_nganor (hmay.2 hm) hw hr).trans (by
        rw [s.hubWrite_of_config r _ _ _ _ hfields hjobs, maskedWrite_whole _ _ _ hw.2 v.isLt]), hmem, hjob, ?_, hget⟩
      rw [hlog, reservedWrite_iff]
    · rintro c d k rfl rfl - hk
      obtain ⟨off, hp⟩ := Place.csr_of_counter hr (.inl rfl)
      refine ⟨_, execRegisterWrite_program (hmay.2 hm) hw hr (fun o ho => nomatch hp.symm.trans ho), ?_⟩
      obtain ⟨-, -, hwindow⟩ := hm.2 c rfl
      rw [s.progWrite_evAdd hk (hwindow d off hp)]
      exact s.setCl_setEv d k _
    · rintro c d k rfl rfl - hk rfl
      obtain ⟨off, hp⟩ := Place.csr_of_counter hr (.inr rfl)
      refine ⟨_, execRegisterWrite_program (hmay.2 hm) hw hr (fun o ho => nomatch hp.symm.trans ho), ?_⟩
      rw [s.progWrite_eReg hk, maskedWrite_whole _ _ _ hw.2 v.isLt]
      exact s.setCl_setEv d k _
    · intro hwho hro
      obtain ⟨c, rfl⟩ := Option.ne_none_iff_exists'.1 hwho
      by_cases hp : ∃ off, p = .cacheCtl off
      · obtain ⟨off, hp⟩ := hp
        exact execRegisterWrite_cacheCtl hp
      · refine (execRegisterWrite_program (hmay.2 hm) hw hr fun off h => hp ⟨off, h⟩).trans ?_
        rw [s.progWrite_of_readOnly _ r _ _ hro]
end

section
/-!
PROOF. Synchronised counts (R578 to R580) and the effective step in the slot domains (R656): what a count takes, what a change does.
-/
namespace Sys2Proof.Machine

/-! ### The effective step reaches the slot domains (R656, R708) -/

/-- A domain lowers at once; it raises where its voltage and its synthesizer are ready, and is deferred otherwise. -/
theorem SlotPwr.change_fst (now p : Nat) (d : SlotPwr) : (d.change now p).1 =
    if d.freq ≤ p then { d with freq := p, nextFreq := none, volt := p, moving := d.moving || decide (d.volt ≠ p) }
    else if d.volt ≤ p ∧ d.moving = false ∧ d.synthAt + 700 ≤ now then { d with freq := p, nextFreq := none }
    else { d with nextFreq := some p } := by
  unfold SlotPwr.change
  by_cases hlower : d.freq ≤ p
  · rw [if_neg (Nat.not_lt.2 hlower), if_pos hlower]
  · rw [if_pos (Nat.lt_of_not_le hlower), if_neg hlower]
    by_cases hvolt : d.volt ≤ p ∧ d.moving = false
    · obtain ⟨hv, hm⟩ := hvolt
      by_cases hsynth : d.synthAt + 700 ≤ now
      · simp [hv, hm, hsynth, Nat.not_lt.2]
      · simp [hv, hm, hsynth, Nat.not_lt.2, Nat.lt_of_not_le]
    · have hlate : (decide (p < d.volt) || d.moving) = true := by
        rw [Bool.or_eq_true, decide_eq_true_eq]
        rcases Nat.lt_or_ge p d.volt with hbelow | hready
        · exact .inl hbelow
        · exact .inr ((Bool.eq_false_or_eq_true d.moving).resolve_right fun hstill => hvolt ⟨hready, hstill⟩)
      rw [if_pos hlate, if_neg fun h => hvolt ⟨h.1, h.2.1⟩]

/-- One domain's turn as the effective step becomes `p`, its late counts included (R630, R708). -/
def State.changeDomain (p : Nat) (s : State) (e : Nat × SlotPwr) : State :=
  if e.2.mode ≠ .on then s
  else
    let (d, rl, cl) := e.2.change s.now p
    let s := s.setDom e.1 d
    let s := if rl then { s with pwr := { s.pwr with raiseLate := satAdd 0xFFFF s.pwr.raiseLate 1 } } else s
    if cl then { s with clk := { s.clk with changeLate := satAdd 0xFFFF s.clk.changeLate 1 } } else s

/-- An effective step gives each listed domain its turn. -/
theorem State.changeDomains_eq_foldl (s : State) (p : Nat) :
    s.changeDomains p false = s.pwr.slots.foldl (State.changeDomain p) s := by
  simp only [State.changeDomains, Bool.false_eq_true, false_and, or_false]
  rfl

/-- The states differ in the power delivery and in the clocks alone. -/
def OnlyDomains (s t : State) : Prop := t = { s with pwr := t.pwr, clk := t.clk }

theorem OnlyDomains.refl (s : State) : OnlyDomains s s := rfl

theorem OnlyDomains.trans {s t u : State} (hst : OnlyDomains s t) (htu : OnlyDomains t u) : OnlyDomains s u :=
  calc u = { t with pwr := u.pwr, clk := u.clk } := htu
    _ = { s with pwr := u.pwr, clk := u.clk } := by rw [hst]

/-- What such states share, of what an obligation names. -/
theorem OnlyDomains.fields {s t : State} (h : OnlyDomains s t) : t.now = s.now ∧ t.opp = s.opp ∧ t.hud = s.hud ∧
    t.clusters = s.clusters ∧ t.mem = s.mem ∧ t.step = s.step := by
  rw [h]
  exact ⟨rfl, rfl, rfl, rfl, rfl, rfl⟩

/-- A domain's turn stays in the power delivery and the clocks. -/
theorem State.changeDomain_onlyDomains (p : Nat) (s : State) (e : Nat × SlotPwr) : OnlyDomains s (s.changeDomain p e) := by
  unfold State.changeDomain
  split
  · exact .refl s
  · dsimp only
    split <;> split <;> rfl

/-- A domain's turn changes that domain where it is ON, and no other. -/
theorem State.dom_changeDomain (p : Nat) (s : State) (e : Nat × SlotPwr) (k : Nat) :
    (s.changeDomain p e).dom k = if k = e.1 ∧ e.2.mode = .on then (e.2.change s.now p).1 else s.dom k := by
  unfold State.changeDomain
  by_cases hon : e.2.mode = .on
  · simp only [hon, ne_eq, not_true_eq_false, if_false, and_true, ← s.dom_setDom]
    split <;> split <;> rfl
  · rw [if_pos hon, if_neg fun h => hon h.2]

/-- The turns stay in the power delivery and the clocks. -/
theorem foldl_changeDomain_onlyDomains (p : Nat) (l : List (Nat × SlotPwr)) (s : State) :
    OnlyDomains s (l.foldl (State.changeDomain p) s) := by
  induction l generalizing s with
  | nil => exact .refl s
  | cons e l ih => exact (s.changeDomain_onlyDomains p e).trans (ih _)

/-- The turns leave a domain that has none. -/
theorem dom_foldl_changeDomain_of_not_mem (p : Nat) {l : List (Nat × SlotPwr)} {k : Nat} (hk : k ∉ l.map (·.1)) (s : State) :
    (l.foldl (State.changeDomain p) s).dom k = s.dom k := by
  induction l generalizing s with
  | nil => rfl
  | cons e l ih =>
    rw [List.map_cons, List.mem_cons, not_or] at hk
    rw [List.foldl_cons, ih hk.2, State.dom_changeDomain, if_neg fun h => hk.1 h.1]

/-- The turns change a domain that has one by its own turn alone. -/
theorem dom_foldl_changeDomain_of_mem (p : Nat) {l : List (Nat × SlotPwr)} (hnodup : (l.map (·.1)).Nodup) {k : Nat} {d : SlotPwr}
    (hmem : (k, d) ∈ l) {s : State} (hd : s.dom k = d) :
    (l.foldl (State.changeDomain p) s).dom k = if d.mode ≠ .on then d else (d.change s.now p).1 := by
  induction l generalizing s with
  | nil => cases hmem
  | cons e l ih =>
    rw [List.map_cons, List.nodup_cons] at hnodup
    obtain ⟨hfresh, hnodup⟩ := hnodup
    rw [List.foldl_cons]
    rcases List.mem_cons.1 hmem with rfl | htail
    · rw [dom_foldl_changeDomain_of_not_mem p hfresh, State.dom_changeDomain, hd]
      simp [ite_not]
    · have hne : k ≠ e.1 := fun h => hfresh (h ▸ List.mem_map_of_mem htail)
      have hsame : (s.changeDomain p e).dom k = d := by rw [State.dom_changeDomain, if_neg fun h => hne h.1, hd]
      obtain ⟨hnow, -⟩ := (s.changeDomain_onlyDomains p e).fields
      rw [ih hnodup htail hsame, hnow]

/-- A listed key reads as its entry where no key is listed twice. -/
theorem tabGet_of_mem {α : Type} (d : α) {t : Tab α} (hnodup : (t.map (·.1)).Nodup) {k : Nat} {v : α} (hmem : (k, v) ∈ t) :
    tabGet d t k = v := by
  induction t with
  | nil => cases hmem
  | cons e t ih =>
    rw [List.map_cons, List.nodup_cons] at hnodup
    obtain ⟨hfresh, hnodup⟩ := hnodup
    rcases List.mem_cons.1 hmem with rfl | htail
    · exact if_pos rfl
    · have hne : e.1 ≠ k := fun h => hfresh (h ▸ List.mem_map_of_mem htail)
      exact (if_neg hne).trans (ih hnodup htail)

/-- An effective step is recorded and gives each listed domain its turn. -/
theorem State.setEffective_eq_foldl (s : State) (p : Nat) : ∃ o : OppSt, o.effective = p ∧ o.requested = s.opp.requested ∧
    o.oneStep = s.opp.oneStep ∧ s.setEffective p = s.pwr.slots.foldl (State.changeDomain p) { s with opp := o } := by
  refine ⟨_, ?_, ?_, ?_, State.changeDomains_eq_foldl _ p⟩
  all_goals rfl

/-- An effective step changes the operating points, the power delivery and the clocks alone. -/
theorem State.setEffective_frame (s : State) (p : Nat) : ∃ o : OppSt, o.effective = p ∧ o.requested = s.opp.requested ∧
    o.oneStep = s.opp.oneStep ∧ OnlyDomains { s with opp := o } (s.setEffective p) := by
  obtain ⟨o, heffective, hrequested, hone, hfold⟩ := s.setEffective_eq_foldl p
  exact ⟨o, heffective, hrequested, hone, hfold ▸ foldl_changeDomain_onlyDomains p _ _⟩

/-- An effective step gives each listed domain its change (R656, R708). -/
theorem State.dom_setEffective {s : State} (hnodup : (s.pwr.slots.map (·.1)).Nodup) {k : Nat} {d : SlotPwr} (hmem : (k, d) ∈ s.pwr.slots)
    (p : Nat) : (s.setEffective p).dom k = if d.mode ≠ .on then d else (d.change s.now p).1 := by
  obtain ⟨o, -, -, -, hfold⟩ := s.setEffective_eq_foldl p
  have hd : State.dom { s with opp := o } k = d := tabGet_of_mem _ hnodup hmem
  rw [hfold, dom_foldl_changeDomain_of_mem p hnodup hmem hd]

/-! ### What a count takes (R578 to R580) -/

/-- What is due at the count. -/
def State.dueChanges (s : State) : List (Nat × SyncChange) := s.hud.changes.filter fun c => decide (c.1 ≤ s.tick)

/-- The state with what is not yet due alone awaiting its count. -/
def State.dropDue (s : State) : State :=
  { s with hud := { s.hud with changes := s.hud.changes.filter fun c => decide (s.tick < c.1) } }

/-- With nothing due the count has nothing to drop. -/
theorem State.dropDue_eq_self {s : State} (h : s.dueChanges = []) : s.dropDue = s := by
  have hlater : s.hud.changes.filter (fun c => decide (s.tick < c.1)) = s.hud.changes := by
    simpa [State.dueChanges, List.filter_eq_nil_iff, List.filter_eq_self] using h
  rw [State.dropDue, hlater]

/-- With no domain deferred and no return under way step by step, a count makes the changes that are due in the order of the requests. -/
theorem execSyncCount_eq {s t : State} (hclocked : s.clocked = true) (hnone : ∀ e ∈ s.pwr.slots, e.2.nextFreq = none)
    (ht : s.dueChanges.foldl (fun s c => s.applyChange c.2) s.dropDue = t) (hone : t.opp.oneStep = false) : execSyncCount s = .next t := by
  have hlate : s.pwr.slots.filter (fun e => e.2.nextFreq.isSome) = [] := by
    rw [List.filter_eq_nil_iff]
    intro e he
    simp [hnone e he]
  have hfold : (s.hud.changes.filter fun c => decide (c.1 ≤ s.tick)).foldl (fun s c => s.applyChange c.2)
      (s.modHud fun h => { h with changes := h.changes.filter fun c => decide (s.tick < c.1) }) = t := ht
  have hreturn : t.returnOne = t := by simp [State.returnOne, hone]
  simp only [execSyncCount, hclocked, Bool.not_true, Bool.false_eq_true, if_false, hlate, List.isEmpty_nil, if_true, hfold,
    hreturn, ite_self]

/-- Without a clock a count does nothing. -/
theorem execSyncCount_of_not_clocked {s : State} (h : s.clocked = false) : execSyncCount s = .next s := by
  simp [execSyncCount, h]

/-- Outside a phase a new ceiling waits for the next one (R659, R666). -/
theorem State.applyChange_ceil {s : State} (h : 5 ≤ s.step.phase) (q : Nat) :
    s.applyChange (.ceil q) = { s with opp := { s.opp with ceil := q } } := if_neg (Nat.not_lt.2 h)

end Sys2Proof.Machine
end

section
/-!
PROOF. Changes at synchronised counts: O35.
-/
open Sys2Proof Sys2Proof.Machine

/-- Settles O35: what is due is folded in the order of the requests, and an effective step gives each ON domain its own turn. -/
theorem changesTakeEffectAtSynchronisedCounts : Obligations.ChangesTakeEffectAtSynchronisedCounts := by
  unfold Obligations.ChangesTakeEffectAtSynchronisedCounts
  intro s due later
  refine ⟨execSyncCount_of_not_clocked, fun hclocked hone hnone => ?_⟩
  have hcount {t : State} := execSyncCount_eq (t := t) hclocked hnone
  refine ⟨fun hnot => ?_, fun c q hdue hphase => ?_, fun c q q' hdue hphase => ?_, fun c p hdue hnodup => ?_⟩
  · have hdue : s.dueChanges = [] := List.filter_eq_nil_iff.2 fun c hc => by simpa only [decide_eq_true_eq] using hnot c hc
    exact hcount (by rw [hdue, List.foldl_nil, s.dropDue_eq_self hdue]) hone
  · exact hcount (by rw [State.dueChanges, hdue]; exact State.applyChange_ceil (s := s.dropDue) hphase q) hone
  · refine hcount ?_ hone
    rw [State.dueChanges, hdue, List.foldl_cons, List.foldl_cons, List.foldl_nil, State.applyChange_ceil (s := s.dropDue) hphase,
      State.applyChange_ceil]
    · rfl
    · exact hphase
  · obtain ⟨o, heffective, hrequested, hone', hframe⟩ := s.dropDue.setEffective_frame p
    obtain ⟨-, hopp, hhud, hclusters, hmem, hstep⟩ := hframe.fields
    have hnext : exec .syncCount s = .next (s.dropDue.setEffective p) :=
      hcount (by rw [State.dueChanges, hdue]; rfl) (by rw [hopp]; exact hone'.trans hone)
    refine ⟨_, hnext, by rw [hopp]; exact heffective, by rw [hopp]; exact hrequested, by rw [hhud]; rfl, hclusters, hmem, hstep, ?_⟩
    intro k d hlisted
    rw [State.dom_setEffective (s := s.dropDue) hnodup hlisted, SlotPwr.change_fst]
    rfl
end

section
/-!
PROOF. The matrix array at work (R141 to R160, R355): what one advance, one release and one completion leave in a cluster.
-/
namespace Sys2Proof.Machine
open Sys2Proof.Claims

/-! ### Changes of one cluster -/

/-- A cluster put back is the only one that differs. -/
theorem onlyCluster_setCl (s : State) (c : Nat) (k : Cluster) : OnlyCluster c s (s.setCl c k) :=
  ⟨rfl, fun d hd => by rw [State.cl_setCl, if_neg hd]⟩

/-- A cluster put back is read. -/
theorem State.cl_setCl_self (s : State) (c : Nat) (k : Cluster) : (s.setCl c k).cl c = k := by rw [State.cl_setCl, if_pos rfl]

theorem onlyCluster_refl (c : Nat) (s : State) : OnlyCluster c s s := ⟨rfl, fun _ _ => rfl⟩

theorem onlyCluster_trans {c : Nat} {s t u : State} (hst : OnlyCluster c s t) (htu : OnlyCluster c t u) : OnlyCluster c s u := by
  obtain ⟨hs, hscl⟩ := hst
  obtain ⟨ht, htcl⟩ := htu
  exact ⟨by rw [ht, hs], fun d hd => (htcl d hd).trans (hscl d hd)⟩

/-- An arrival changes the counter it names, where it is asked for and the cluster takes it, and nothing else (R268). -/
theorem State.arriveIf_spec (s : State) (en : Bool) (c e : Nat) : OnlyCluster c s (s.arriveIf en c e) ∧
    (s.arriveIf en c e).cl c = { s.cl c with e := ((s.arriveIf en c e).cl c).e } ∧ Arrived s (s.arriveIf en c e) c e en := by
  by_cases htaken : en = true ∧ s.absent c = false ∧ (s.cl c).fenced = false
  · obtain ⟨hen, habsent, hfenced⟩ := htaken
    have harrives : s.arriveIf en c e = s.setCl c ((s.cl c).setEv e ((s.cl c).ev e + 1)) := by
      simp [State.arriveIf, State.arrive, hen, habsent, hfenced]
    rw [harrives, Arrived, if_pos ⟨hen, habsent, hfenced⟩]
    exact s.setCl_setEv c e _
  · have hnot : s.arriveIf en c e = s := by
      unfold State.arriveIf State.arrive
      split
      · next hen =>
        refine if_pos ?_
        cases hfenced : (s.cl c).fenced with
        | true => rfl
        | false =>
          cases habsent : s.absent c with
          | true => rfl
          | false => exact absurd ⟨hen, habsent, hfenced⟩ htaken
      · rfl
    rw [hnot, Arrived, if_neg htaken]
    refine ⟨onlyCluster_refl c s, rfl, fun d => ?_⟩
    split
    · next hd =>
      rw [hd, Nat.add_zero]
      exact (Nat.mod_eq_of_lt (tabGet 0#64 (s.cl c).e e).isLt).symm
    · rfl

/-- No step start is awaited: none is made. -/
theorem State.tryStep_of_not_stepStart {s : State} {c : Nat} (h : (s.cl c).stepStart = false) : s.tryStep c = s := by
  simp [State.tryStep, h]

/-! ### MMAs in their places -/

/-- The MMAs after one was put back. -/
theorem Cluster.mmas_putMma (k : Cluster) (r : MmaRun) :
    (k.putMma r).mmas = k.mmas.map fun x => if x.seq = r.seq then r else x := by
  simp [Cluster.mmas, Cluster.putMma, Option.toList_map]

/-- An MMA put back is found in its place. -/
theorem Cluster.findMma_putMma {k : Cluster} {m r : MmaRun} (h : k.findMma r.seq = some m) : (k.putMma r).findMma r.seq = some r := by
  have hseq : m.seq = r.seq := by simpa using List.find?_some h
  have hsame : ((fun x : MmaRun => decide (x.seq = r.seq)) ∘ fun x : MmaRun => if x.seq = r.seq then r else x) =
      fun x => decide (x.seq = r.seq) := by
    funext x
    by_cases hx : x.seq = r.seq <;> simp [hx]
  rw [Cluster.findMma] at h
  rw [Cluster.findMma, Cluster.mmas_putMma, List.find?_map, hsame, h, Option.map_some, if_pos hseq]

/-- The first MMA is found by its place in the issue order. -/
theorem Cluster.findMma_of_mma0 {k : Cluster} {m : MmaRun} (h : k.mma0 = some m) : k.findMma m.seq = some m := by
  simp [Cluster.findMma, Cluster.mmas, h]

/-- The first MMA put back changes the first place alone. -/
theorem Cluster.putMma_of_mma0 {k : Cluster} {m r : MmaRun} (h0 : k.mma0 = some m) (h1 : ∀ n, k.mma1 = some n → n.seq ≠ m.seq)
    (hseq : r.seq = m.seq) : k.putMma r = { k with mma0 := some r } := by
  have hsecond : (k.mma1.map fun x => if x.seq = r.seq then r else x) = k.mma1 := by
    cases hn : k.mma1 with
    | none => rfl
    | some n => rw [Option.map_some, if_neg fun h => h1 n hn (h.trans hseq)]
  rw [Cluster.putMma, hsecond, h0, Option.map_some, if_pos hseq.symm]

/-- The first MMA gone, the second takes its place. -/
theorem Cluster.dropMma_of_mma0 {k : Cluster} {m : MmaRun} (h0 : k.mma0 = some m) (h1 : ∀ n, k.mma1 = some n → n.seq ≠ m.seq) :
    k.dropMma m.seq = { k with mma0 := k.mma1, mma1 := none } := by
  cases hn : k.mma1 with
  | none => simp [Cluster.dropMma, Cluster.mmas, h0, hn]
  | some n => simp [Cluster.dropMma, Cluster.mmas, h0, hn, h1 n hn]

/-- A set after a set was replaced. -/
theorem Cluster.acc_setAcc (k : Cluster) (n : Nat) (a : AccSet) : (k.setAcc n a).acc n = a := by
  by_cases hn : n = 0 <;> simp [Cluster.acc, Cluster.setAcc, hn]

/-! ### What the array writes back -/

/-- The clusters differ in what the array works on alone: its MMAs, the sets and the arithmetic flags. -/
def ArrayWorked (k j : Cluster) : Prop :=
  j = { k with mma0 := j.mma0, mma1 := j.mma1, a0 := j.a0, a1 := j.a1, arith := j.arith }

theorem ArrayWorked.trans {k j i : Cluster} (hkj : ArrayWorked k j) (hji : ArrayWorked j i) : ArrayWorked k i :=
  calc i = { j with mma0 := i.mma0, mma1 := i.mma1, a0 := i.a0, a1 := i.a1, arith := i.arith } := hji
    _ = { k with mma0 := i.mma0, mma1 := i.mma1, a0 := i.a0, a1 := i.a1, arith := i.arith } := by rw [hkj]

/-- The array's one write: a set, an MMA in its place, and the flags of the arithmetic. -/
def Cluster.putWork (k : Cluster) (n : Nat) (a : AccSet) (r : MmaRun) (fl : Flags) : Cluster :=
  { (k.setAcc n a).putMma r with arith := k.arith ||| fl }

theorem arrayWorked_putMma (k : Cluster) (r : MmaRun) : ArrayWorked k (k.putMma r) := rfl

theorem arrayWorked_putWork (k : Cluster) (n : Nat) (a : AccSet) (r : MmaRun) (fl : Flags) : ArrayWorked k (k.putWork n a r fl) := by
  unfold ArrayWorked Cluster.putWork Cluster.setAcc
  split <;> rfl

/-- The MMAs after the array's write are those after the MMA was put back. -/
theorem Cluster.mmas_putWork (k : Cluster) (n : Nat) (a : AccSet) (r : MmaRun) (fl : Flags) :
    (k.putWork n a r fl).mma0 = (k.putMma r).mma0 ∧ (k.putWork n a r fl).mma1 = (k.putMma r).mma1 := by
  unfold Cluster.putWork Cluster.setAcc
  split <;> exact ⟨rfl, rfl⟩

/-- The MMA written back is found in its place. -/
theorem Cluster.findMma_putWork {k : Cluster} {m r : MmaRun} (h : k.findMma r.seq = some m) (n : Nat) (a : AccSet) (fl : Flags) :
    (k.putWork n a r fl).findMma r.seq = some r := by
  obtain ⟨h0, h1⟩ := k.mmas_putWork n a r fl
  rw [← Cluster.findMma_putMma h, Cluster.findMma, Cluster.findMma, Cluster.mmas, Cluster.mmas, h0, h1]

/-- The first MMA written back changes the first place alone. -/
theorem Cluster.putWork_of_mma0 {k : Cluster} {m r : MmaRun} (h0 : k.mma0 = some m) (h1 : ∀ n, k.mma1 = some n → n.seq ≠ m.seq)
    (hseq : r.seq = m.seq) (n : Nat) (a : AccSet) (fl : Flags) :
    (k.putWork n a r fl).mma0 = some r ∧ (k.putWork n a r fl).mma1 = k.mma1 := by
  obtain ⟨hfirst, hsecond⟩ := k.mmas_putWork n a r fl
  rw [Cluster.putMma_of_mma0 h0 h1 hseq] at hfirst hsecond
  exact ⟨hfirst, hsecond⟩

/-- The set written back. -/
theorem Cluster.acc_putWork (k : Cluster) (n : Nat) (a : AccSet) (r : MmaRun) (fl : Flags) : (k.putWork n a r fl).acc n = a :=
  k.acc_setAcc n a

/-- The array's work on cluster `c`: no other cluster differs, and of this one only what the array works on. -/
def ArrayStep (c : Nat) (s t : State) : Prop := OnlyCluster c s t ∧ ArrayWorked (s.cl c) (t.cl c)

theorem ArrayStep.trans {c : Nat} {s t u : State} (hst : ArrayStep c s t) (htu : ArrayStep c t u) : ArrayStep c s u :=
  ⟨onlyCluster_trans hst.1 htu.1, hst.2.trans htu.2⟩

theorem arrayStep_setCl {s : State} {c : Nat} {k : Cluster} (h : ArrayWorked (s.cl c) k) : ArrayStep c s (s.setCl c k) :=
  ⟨onlyCluster_setCl s c k, by rwa [State.cl_setCl_self]⟩

/-- The array's write on cluster `c`: the work stays in the array, the MMA is found in its place, and the set is the one written. -/
theorem arrayStep_putWork {s : State} {c : Nat} {m r : MmaRun} (hfind : (s.cl c).findMma m.seq = some m) (hseq : r.seq = m.seq) (n : Nat)
    (a : AccSet) (fl : Flags) : ArrayStep c s (s.setCl c ((s.cl c).putWork n a r fl)) ∧
      ((s.setCl c ((s.cl c).putWork n a r fl)).cl c).findMma m.seq = some r ∧
      ((s.setCl c ((s.cl c).putWork n a r fl)).cl c).acc n = a := by
  refine ⟨arrayStep_setCl (arrayWorked_putWork _ n a r fl), ?_, ?_⟩ <;> rw [State.cl_setCl_self]
  · rw [← hseq] at hfind ⊢
    exact Cluster.findMma_putWork hfind n a fl
  · exact Cluster.acc_putWork _ n a r fl

/-! ### K-steps of one MMA -/

/-- The runs differ in their sums, shifts and hold alone. -/
def MmaRun.Summed (m r : MmaRun) : Prop := ∃ narrow shift held, r = { m with narrow := narrow, shift := shift, held := held }

/-- What such runs share, of what tells the array's progress. -/
theorem MmaRun.Summed.fields {m r : MmaRun} (h : m.Summed r) : r.seq = m.seq ∧ r.w = m.w ∧ r.k = m.k ∧ r.started = m.started := by
  obtain ⟨narrow, shift, held, rfl⟩ := h
  exact ⟨rfl, rfl, rfl, rfl⟩

theorem MmaRun.Summed.trans {m r q : MmaRun} (hmr : m.Summed r) (hrq : r.Summed q) : m.Summed q := by
  obtain ⟨_, _, _, rfl⟩ := hmr
  obtain ⟨narrow, shift, held, rfl⟩ := hrq
  exact ⟨narrow, shift, held, rfl⟩

/-- An MMA held or no longer held (R155). -/
theorem summed_held (m : MmaRun) (held : Bool) : m.Summed { m with held := held } := ⟨_, _, _, rfl⟩

/-- A promotion (R141, R144) leaves the MMA's progress. -/
theorem summed_mmaPromote (m : MmaRun) (a : AccSet) : m.Summed (mmaPromote m a).1 := ⟨_, _, _, rfl⟩

/-- The K-steps of a slab are counted. -/
theorem summed_mmaSlab (k : Cluster) (m : MmaRun) (a : AccSet) (interval n : Nat) :
    MmaRun.Summed { m with k := m.k + n } (mmaSlab k m a interval n).1 := ⟨_, _, _, rfl⟩

/-- An advance that has made its K-steps ends. -/
theorem mmaAdvance_of_made {k : Cluster} {target : Nat} {st : MmaStep} (h : target ≤ st.run.k) (fuel : Nat) :
    mmaAdvance k target fuel st = st := by
  cases fuel with
  | zero => rfl
  | succ fuel => exact if_pos h

/-- One K-step where the registers pass their check (R353). -/
theorem mmaAdvance_one {k : Cluster} {m : MmaRun} {a : AccSet} (hgood : mmaBadReg k m = none) (fuel : Nat) :
    (mmaAdvance k (m.k + 1) (fuel + 1) { run := m, acc := a }).bad = none ∧
      MmaRun.Summed { m with k := m.k + 1 } (mmaAdvance k (m.k + 1) (fuel + 1) { run := m, acc := a }).run := by
  have hone : min (m.k + 1) (128 * (m.k / 128 + 1)) - m.k = 1 := by omega
  have hslab := summed_mmaSlab k m a (pairInterval (mmaFmts m.w).1 (mmaFmts m.w).2) 1
  obtain ⟨-, -, hk, -⟩ := hslab.fields
  rw [mmaAdvance]
  simp only [Nat.not_succ_le_self, if_false, hgood, hone]
  rw [mmaAdvance_of_made (Nat.le_of_eq hk.symm)]
  exact ⟨rfl, hslab⟩

/-- An MMA that has made the K-steps asked for makes none. -/
theorem State.advanceMma_of_made (s : State) (c : Nat) {m : MmaRun} {target : Nat} (h : target ≤ m.k) (force : Bool) :
    s.advanceMma c m target force = s :=
  if_pos (by rw [decide_eq_true (Nat.le_trans (Nat.min_le_left _ _) h), Bool.or_true])

/-- What an advance writes back: with the MMA's last K-step come its final promotions (R141). -/
def MmaStep.finish (st : MmaStep) (w : Nat) : MmaRun × AccSet × Flags :=
  if st.bad.isNone && decide (st.run.k = mmaK w) then
    let (r, a, f) := mmaPromote st.run st.acc
    (r, a, st.flags ||| f)
  else (st.run, st.acc, st.flags)

/-- The final promotions leave the MMA's progress. -/
theorem MmaStep.summed_finish (st : MmaStep) (w : Nat) : st.run.Summed (st.finish w).1 := by
  unfold MmaStep.finish
  split
  · exact summed_mmaPromote st.run st.acc
  · exact ⟨_, _, _, rfl⟩

/-- An advance in which every register passed its check is one write of the array. -/
theorem State.advanceMma_eq {s : State} {c : Nat} {m : MmaRun} {target : Nat} {force : Bool} {st : MmaStep}
    (hfree : (!m.started || m.held || m.stopped || decide (min target ((s.cl c).mmaLimit m force) ≤ m.k)) = false)
    (hst : mmaAdvance (s.cl c) (min target ((s.cl c).mmaLimit m force))
      ((min target ((s.cl c).mmaLimit m force) - m.k) / 128 + 2) { run := m, acc := (s.cl c).acc m.set } = st)
    (hbad : st.bad = none) : s.advanceMma c m target force =
      s.setCl c ((s.cl c).putWork m.set (st.finish m.w).2.1 (st.finish m.w).1 (st.finish m.w).2.2) := by
  obtain ⟨run, acc, flags, bad⟩ := st
  obtain rfl : bad = none := hbad
  refine (if_neg (Bool.not_eq_true _ ▸ hfree)).trans ?_
  rw [hst]
  rfl

/-- One K-step of an MMA that nothing holds. -/
theorem State.advanceMma_one {s : State} {c : Nat} {m : MmaRun} {force : Bool} (hstarted : m.started = true) (hheld : m.held = false)
    (hstopped : m.stopped = false) (hlimit : m.k < (s.cl c).mmaLimit m force) (hgood : mmaBadReg (s.cl c) m = none) :
    ∃ a r fl, s.advanceMma c m (m.k + 1) force = s.setCl c ((s.cl c).putWork m.set a r fl) ∧ MmaRun.Summed { m with k := m.k + 1 } r := by
  have ht : min (m.k + 1) ((s.cl c).mmaLimit m force) = m.k + 1 := Nat.min_eq_left hlimit
  obtain ⟨hbad, hrun⟩ := mmaAdvance_one (a := (s.cl c).acc m.set) hgood ((m.k + 1 - m.k) / 128 + 1)
  exact ⟨_, _, _, State.advanceMma_eq (by simp [ht, hstarted, hheld, hstopped]) (by rw [ht]) hbad, hrun.trans (MmaStep.summed_finish _ m.w)⟩

/-- An MMA whose entered registers have been corrected is corrected no further. -/
theorem State.correctTo_of_made {s : State} {c : Nat} {m : MmaRun} {n : Nat} (hm : (s.cl c).findMma m.seq = some m) (h : n ≤ m.corr)
    (fuel : Nat) : s.correctTo c m.seq n fuel = s := by
  cases fuel with
  | zero => rfl
  | succ fuel => simp only [State.correctTo, hm, if_pos h]

/-- The correction cycles of a register that the MMA has entered (R149 to R151). -/
theorem State.correctOne_eq {s : State} {c : Nat} {m : MmaRun} (hheld : m.held = false) (hentered : m.corr < enteredCount m.w m.k) :
    s.correctOne c m = s.setCl c ((s.cl c).putWork m.set
      (correctEntry (s.cl c) m.w m.corr (s.listItems c (s.cl c)) ((s.cl c).acc m.set)).1 { m with corr := m.corr + 1 }
      (correctEntry (s.cl c) m.w m.corr (s.listItems c (s.cl c)) ((s.cl c).acc m.set)).2) :=
  if_neg (by simp [hheld, hentered])

/-! ### The start of an MMA (R155) -/

/-- One MMA's turn as the sets that became free are released (R155). -/
def State.releaseOne (c : Nat) (s : State) (m : MmaRun) : State :=
  let k := s.cl c
  if m.started && m.held && !k.setBusy m then
    let a := m.base (k.acc m.set)
    let a := { a with poison := a.poison || m.poison }
    let (fa, fb) := mmaFmts m.w
    let (r, a, fl) := if m.k % pairInterval fa fb = 0 ∨ m.k = mmaK m.w then mmaPromote m a else (m, a, noFlags)
    s.setCl c (k.putWork m.set a { r with held := false } fl)
  else s

/-- A release gives each MMA its turn. -/
theorem State.release_eq_foldl (s : State) (c : Nat) : s.release c = (s.cl c).mmas.foldl (State.releaseOne c) s := rfl

/-- An MMA that has not started has nothing to release. -/
theorem State.releaseOne_of_not_started {s : State} {c : Nat} {m : MmaRun} (h : m.started = false) : s.releaseOne c m = s :=
  if_neg (by simp [h])

/-- Where the second MMA has not started, a release is the first one's turn. -/
theorem State.release_of_mma0 {s : State} {c : Nat} {m : MmaRun} (h0 : (s.cl c).mma0 = some m)
    (h1 : ∀ n, (s.cl c).mma1 = some n → n.started = false) : s.release c = s.releaseOne c m := by
  rw [State.release_eq_foldl, Cluster.mmas, h0]
  cases hn : (s.cl c).mma1 with
  | none => rfl
  | some n => exact State.releaseOne_of_not_started (h1 n hn)

/-- A turn leaves the state, or writes the MMA's set and the MMA with its progress as it was. -/
theorem State.releaseOne_cases (s : State) (c : Nat) (m : MmaRun) : s.releaseOne c m = s ∨
    ∃ a r fl, s.releaseOne c m = s.setCl c ((s.cl c).putWork m.set a r fl) ∧ m.Summed r := by
  unfold State.releaseOne
  dsimp only
  split
  · refine .inr ?_
    split
    · exact ⟨_, _, _, rfl, (summed_mmaPromote m _).trans (summed_held _ _)⟩
    · exact ⟨_, _, _, rfl, summed_held m _⟩
  · exact .inl rfl

/-- An MMA with its first K-steps made, its set still held (R155). -/
def Cluster.startedRun (k : Cluster) (m : MmaRun) : MmaRun :=
  let (r, a, _) := mmaSlab k m { (m.base (k.acc m.set)) with poison := false } 0 m.early
  { r with started := true, held := true, poison := a.poison }

theorem Cluster.startedRun_fields (k : Cluster) (m : MmaRun) : (k.startedRun m).seq = m.seq ∧ (k.startedRun m).w = m.w ∧
    (k.startedRun m).k = m.k + m.early ∧ (k.startedRun m).started = true := ⟨rfl, rfl, rfl, rfl⟩

/-- Where nothing holds the first K-steps back, they are made, and the sets that are free are released (R155). -/
theorem State.startMma_eq {s : State} {c : Nat} {m : MmaRun} (hlimit : (s.cl c).mmaLimit m false ≠ 0)
    (hgood : mmaBadReg (s.cl c) m = none) : s.startMma c m = (s.setCl c ((s.cl c).putMma ((s.cl c).startedRun m))).release c := by
  refine (if_neg hlimit).trans ?_
  rw [hgood]
  rfl

/-- A start at a refill visit, or at a register still to be written, waits. -/
theorem State.startMma_waits {s : State} {c : Nat} {m : MmaRun} (hlimit : (s.cl c).mmaLimit m false = 0) : s.startMma c m = s :=
  if_pos hlimit

/-- The first MMA's start: its first K-steps are made, and the second MMA stays as it was. -/
theorem State.startMma_of_mma0 {s : State} {c : Nat} {m : MmaRun} (h0 : (s.cl c).mma0 = some m)
    (h1 : ∀ n, (s.cl c).mma1 = some n → n.seq ≠ m.seq ∧ n.started = false) (hlimit : (s.cl c).mmaLimit m false ≠ 0)
    (hgood : mmaBadReg (s.cl c) m = none) : ∃ r, ArrayStep c s (s.startMma c m) ∧ ((s.startMma c m).cl c).mma0 = some r ∧
      r.started = true ∧ r.k = m.k + m.early ∧ r.w = m.w ∧ ((s.startMma c m).cl c).mma1 = (s.cl c).mma1 := by
  obtain ⟨hseq, hw, hk, hstarted⟩ := (s.cl c).startedRun_fields m
  have hbegin := State.startMma_eq hlimit hgood
  generalize (s.cl c).startedRun m = r at *
  have hcl : (s.setCl c ((s.cl c).putMma r)).cl c = { s.cl c with mma0 := some r } := by
    rw [State.cl_setCl_self, Cluster.putMma_of_mma0 h0 (fun n hn => (h1 n hn).1) hseq]
  have hbegun : ArrayStep c s (s.setCl c ((s.cl c).putMma r)) := arrayStep_setCl (arrayWorked_putMma _ r)
  generalize s.setCl c ((s.cl c).putMma r) = t at *
  have hfirst : (t.cl c).mma0 = some r := by rw [hcl]
  have hsecond : (t.cl c).mma1 = (s.cl c).mma1 := by rw [hcl]
  rw [State.release_of_mma0 hfirst fun n hn => (h1 n (hsecond ▸ hn)).2] at hbegin
  rw [hbegin]
  rcases t.releaseOne_cases c r with hheld | ⟨a, q, fl, hfreed, hq⟩
  · rw [hheld]
    exact ⟨r, hbegun, hfirst, hstarted, hk, hw, hsecond⟩
  · obtain ⟨hqseq, hqw, hqk, hqstarted⟩ := hq.fields
    obtain ⟨hfirst', hsecond'⟩ :=
      Cluster.putWork_of_mma0 hfirst (fun n hn => hseq ▸ (h1 n (hsecond ▸ hn)).1) hqseq r.set a fl
    rw [hfreed]
    refine ⟨q, hbegun.trans (arrayStep_setCl (arrayWorked_putWork _ _ _ _ _)), ?_, hqstarted.trans hstarted, hqk.trans hk,
      hqw.trans hw, ?_⟩ <;> rw [State.cl_setCl_self]
    · exact hfirst'
    · exact hsecond'.trans hsecond

/-! ### The commands of the array -/

/-- The array works on while its cluster is RUNNING or HALTING (R299). -/
theorem Cluster.arrayRuns_iff (k : Cluster) : k.arrayRuns = true ↔ k.st = .running ∨ k.st = .halting := by simp [Cluster.arrayRuns]

/-- The MMA that makes K-steps has started. -/
theorem Cluster.started_of_current {k : Cluster} {m : MmaRun} (h : k.current = some m) : m.started = true := by
  have hprops := List.find?_some (show k.mmas.find? (fun m => m.started && decide (m.k < mmaK m.w)) = some m from h)
  exact (Bool.and_eq_true_iff.1 hprops).1

/-- MMA_START of the first MMA (R155, R357). -/
theorem execMmaStart_of_mma0 {s : State} {c : BitVec 8} {m : MmaRun} (hclocked : s.clocked = true) (hrun : (s.cl c.toNat).st = .running)
    (hopen : (s.cl c.toNat).fenced = false) (h0 : (s.cl c.toNat).mma0 = some m) (hstarted : m.started = false) :
    execMmaStart c s = .next (s.startMma c.toNat m) := by
  simp [execMmaStart, hclocked, hrun, hopen, h0, hstarted]

/-- REFILL_VISIT at the current MMA's next visit: it is passed once its writes are complete (R355). -/
theorem execRefillVisit_eq {s : State} {c : BitVec 8} {m : MmaRun} {r : Refill} (hclocked : s.clocked = true)
    (hruns : (s.cl c.toNat).arrayRuns = true) (hcurrent : (s.cl c.toNat).current = some m)
    (hvisit : m.refills.find? (fun r => decide (m.k ≤ r.start)) = some r) :
    execRefillVisit c s = .next (if r.ok then s.advanceMma c.toNat m (r.start + 1) false else s) := by
  simp [execRefillVisit, hcurrent, hvisit, hruns, hclocked]

/-- CORRECTION_CYCLES of a register that the MMA has entered (R149 to R151). -/
theorem execCorrectionCycles_eq {s : State} {c : BitVec 8} {m : MmaRun} {e : Nat × Nat} (hclocked : s.clocked = true)
    (hruns : (s.cl c.toNat).arrayRuns = true)
    (hnext : (s.cl c.toNat).mmas.find? (fun m => m.started && decide (m.corr < (mmaEntries m.w).length)) = some m)
    (hfind : (s.cl c.toNat).findMma m.seq = some m) (hentry : (mmaEntries m.w)[m.corr]? = some e) (hmade : e.1 < m.k) :
    execCorrectionCycles c s = .next ((s.correctOne c.toNat m).tryStep c.toNat) := by
  simp [execCorrectionCycles, hclocked, hruns, hnext, hentry, State.advanceMma_of_made s c.toNat hmade, hfind]

/-- MMA_COMPLETE of the first MMA with all its K-steps and corrections made (R159): it leaves the array, then arrives. -/
theorem execMmaComplete_of_made {s : State} {c : BitVec 8} {m : MmaRun} (hclocked : s.clocked = true) (hrun : (s.cl c.toNat).st = .running)
    (h0 : (s.cl c.toNat).mma0 = some m) (h1 : ∀ n, (s.cl c.toNat).mma1 = some n → n.seq ≠ m.seq) (hstarted : m.started = true)
    (hheld : m.held = false) (hk : m.k = mmaK m.w) (hcorr : m.corr = (mmaEntries m.w).length) : execMmaComplete c s =
      .next (((s.setCl c.toNat { s.cl c.toNat with mma0 := (s.cl c.toNat).mma1, mma1 := none }).arriveIf (bitN m.w 12) c.toNat
        (fld m.w 45 40)).tryStep c.toNat) := by
  have hfind := Cluster.findMma_of_mma0 h0
  have hdrop : (s.modCl c.toNat fun k => k.dropMma m.seq) =
      s.setCl c.toNat { s.cl c.toNat with mma0 := (s.cl c.toNat).mma1, mma1 := none } := by
    rw [State.modCl, Cluster.dropMma_of_mma0 h0 h1]
  rw [← hdrop]
  simp [execMmaComplete, h0, hrun, State.advanceMma_of_made s c.toNat (Nat.le_of_eq hk.symm), hfind, Cluster.arrayRuns, hclocked, hstarted,
    hheld, hk, State.correctTo_of_made hfind (Nat.le_of_eq hcorr.symm)]

/-- No refill visit lies between an MMA and the K-step that it has made. -/
theorem State.refillHalt_self (s : State) (c : Nat) (m : MmaRun) : s.refillHalt c m m.k = s := by
  have hnone : m.refills.find? (fun r => decide (m.k ≤ r.start ∧ r.start < m.k) && r.unissued) = none := by
    rw [List.find?_eq_none]
    intro r _
    simp only [Bool.and_eq_true, decide_eq_true_eq]
    omega
  rw [State.refillHalt, hnone]

/-- MMA_PROGRESS_STOP at the progress point that the first MMA has reached (R160). -/
theorem execMmaProgressStop_of_made {s : State} {c : BitVec 8} {kp : BitVec 24} {m : MmaRun} (hclocked : s.clocked = true)
    (hhalting : (s.cl c.toNat).st = .halting) (h0 : (s.cl c.toNat).mma0 = some m)
    (h1 : ∀ n, (s.cl c.toNat).mma1 = some n → n.seq ≠ m.seq) (hstarted : m.started = true) (hstopped : m.stopped = false)
    (hheld : m.held = false) (hkp : kp.toNat = m.k) (hpos : 0 < m.k) (hlast : m.k < mmaK m.w) (hbound : m.k ≤ m.haltBound)
    (hpoint : m.k % progressUnit (mmaFmts m.w).1 (mmaFmts m.w).2 = 0) (hcorr : enteredCount m.w m.k ≤ m.corr) :
    execMmaProgressStop c kp s = .next (s.setCl c.toNat
      { s.cl c.toNat with mma0 := some { m with stopped := true }, kDone := m.k, mmaPc := m.pc }) := by
  have hfind := Cluster.findMma_of_mma0 h0
  have hgo : (!(decide ((s.cl c.toNat).st = .halting) && s.clocked && m.started && !m.stopped) ||
      m.k % progressUnit (mmaFmts m.w).1 (mmaFmts m.w).2 != 0 ||
      decide (m.k = 0 ∨ m.k < m.k ∨ mmaK m.w ≤ m.k ∨ m.haltBound < m.k)) = false := by
    have hrange : ¬(m.k = 0 ∨ m.k < m.k ∨ mmaK m.w ≤ m.k ∨ m.haltBound < m.k) := by omega
    rw [decide_eq_false hrange]
    simp [hhalting, hclocked, hstarted, hstopped, hpoint]
  have hput : (s.cl c.toNat).putMma { m with stopped := true } = { s.cl c.toNat with mma0 := some { m with stopped := true } } :=
    Cluster.putMma_of_mma0 h0 h1 rfl
  simp only [execMmaProgressStop, h0, hkp, hgo, Bool.false_eq_true, if_false, State.advanceMma_of_made s c.toNat (Nat.le_refl m.k), hfind,
    if_neg (show ¬(m.k ≠ m.k ∨ m.held = true) by simp [hheld]), State.refillHalt_self, State.correctTo_of_made hfind hcorr, State.modCl, hput]

end Sys2Proof.Machine
end

section
/-!
PROOF. The matrix array of a cluster at work: O15.
-/
open Sys2Proof Sys2Proof.Machine Sys2Proof.Claims

/-- Settles O15: each command by what it writes back, the K-steps already made being made no second time. -/
theorem theArrayStartsAdvancesCorrectsAndCompletes : Obligations.TheArrayStartsAdvancesCorrectsAndCompletes := by
  unfold Obligations.TheArrayStartsAdvancesCorrectsAndCompletes
  intro s c k kept hclocked
  have hruns := k.arrayRuns_iff.2
  refine ⟨?start, ?refill, ?correct, ?complete, ?stop⟩
  case start =>
    intro m h0 h1 hstarted hrun hopen
    have hexec := execMmaStart_of_mma0 hclocked hrun hopen h0 hstarted
    refine ⟨fun hwaits => hexec.trans (by rw [State.startMma_waits hwaits]), fun hlimit hgood => ?_⟩
    obtain ⟨r, hstep, hfirst, hr⟩ := State.startMma_of_mma0 h0 h1 hlimit hgood
    exact ⟨_, r, hexec, hstep, hfirst, hr⟩
  case refill =>
    intro m r hcurrent hfind hvisit hst
    have hexec := execRefillVisit_eq hclocked (hruns hst) hcurrent hvisit
    refine ⟨fun hok => hexec.trans (by simp [hok]), fun hok hat hheld hstopped hlimit hgood => ?_⟩
    obtain ⟨a, q, fl, hone, hq⟩ :=
      State.advanceMma_one (Cluster.started_of_current hcurrent) hheld hstopped (hat ▸ hlimit) hgood
    obtain ⟨hseq, hw, hk, -⟩ := hq.fields
    obtain ⟨hstep, hfound, -⟩ := arrayStep_putWork hfind hseq m.set a fl
    rw [if_pos hok, ← hat, hone] at hexec
    exact ⟨_, q, hexec, hstep, hfound, hat ▸ hk, hw⟩
  case correct =>
    intro m e hnext hfind hentry hmade hentered hheld hst hnostep
    have hexec := execCorrectionCycles_eq hclocked (hruns hst) hnext hfind hentry hmade
    obtain ⟨hstep, hfound, hset⟩ := arrayStep_putWork (r := { m with corr := m.corr + 1 }) hfind rfl m.set
      (correctEntry k m.w m.corr (s.listItems c.toNat k) (k.acc m.set)).1
      (correctEntry k m.w m.corr (s.listItems c.toNat k) (k.acc m.set)).2
    rw [State.correctOne_eq hheld hentered, State.tryStep_of_not_stepStart ((congrArg Cluster.stepStart hstep.2).trans hnostep)] at hexec
    exact ⟨_, _, hexec, hstep, hfound, rfl, rfl, hset⟩
  case complete =>
    intro m h0 h1 hstarted hheld hk hcorr hrun hnostep
    have hexec := execMmaComplete_of_made hclocked hrun h0 h1 hstarted hheld hk hcorr
    obtain ⟨honly, hcl, harrived⟩ := (s.setCl c.toNat { k with mma0 := k.mma1, mma1 := none }).arriveIf_spec (bitN m.w 12) c.toNat
      (fld m.w 45 40)
    rw [Arrived, State.cl_setCl_self] at harrived
    rw [State.cl_setCl_self] at hcl
    rw [State.tryStep_of_not_stepStart ((congrArg Cluster.stepStart hcl).trans hnostep)] at hexec
    exact ⟨_, hexec, onlyCluster_trans (onlyCluster_setCl _ _ _) honly, hcl, harrived⟩
  case stop =>
    intro m kp h0 h1 hstarted hstopped hheld hhalting hkp hpos hlast hbound hpoint hcorr
    exact ⟨_, execMmaProgressStop_of_made hclocked hhalting h0 h1 hstarted hstopped hheld hkp hpos hlast hbound hpoint hcorr,
      onlyCluster_setCl _ _ _, State.cl_setCl_self _ _ _⟩
end

section
/-!
PROOF. Dense tables and bytes written: what a read gives; what a store leaves unchanged.
-/
namespace Sys2Proof.Machine

/-- A key's value in the table of a function on the keys of a list. -/
theorem tabGet_filterMap {α : Type} [DecidableEq α] (d : α) (f : Nat → α) (l : List Nat) (k : Nat) :
    tabGet d (l.filterMap fun j => let v := f j; if v = d then none else some (j, v)) k = if k ∈ l then f k else d := by
  induction l with
  | nil => rfl
  | cons j l ih =>
    by_cases hj : f j = d
    · rw [List.filterMap_cons_none (by simp [hj]), ih]
      by_cases hkj : k = j
      · simp [hkj, hj]
      · simp [hkj]
    · rw [List.filterMap_cons_some (b := (j, f j)) (by simp [hj]), tabGet, ih]
      by_cases hkj : k = j
      · simp [hkj]
      · simp [hkj, Ne.symm hkj]

/-- A key below the bound reads as the function's value. -/
theorem tabGet_tabOf {α : Type} [DecidableEq α] (d : α) (f : Nat → α) {n k : Nat} (h : k < n) : tabGet d (tabOf d n f) k = f k := by
  rw [tabOf, tabGet_filterMap, if_pos (List.mem_range.2 h)]

theorem length_tabDense {α : Type} (d : α) (n i : Nat) (t : Tab α) : (tabDense d n i t).length = n := by
  induction n generalizing i t with
  | zero => rfl
  | succ n ih =>
    cases t with
    | nil => simp [tabDense, ih]
    | cons e t => by_cases he : e.1 = i <;> simp [tabDense, he, ih]

/-- A byte read after bytes were written. -/
theorem getByte_putBytes (m : List Host.Cell) (a b : Nat) (bs : List Byte) :
    tabGet 0#8 (putBytes m a bs) b = if a ≤ b ∧ b < a + bs.length then bs.getD (b - a) 0#8 else tabGet 0#8 m b := by
  by_cases hb : a ≤ b ∧ b < a + bs.length
  · obtain ⟨i, rfl⟩ := Nat.exists_eq_add_of_le hb.1
    have hi : i < bs.length := by omega
    rw [if_pos hb, getByte_putBytes_at hi, Nat.add_sub_cancel_left, List.getD_eq_getElem?_getD,
      List.getElem?_eq_getElem hi, Option.getD_some]
  · rw [if_neg hb, getByte_putBytes_other (by omega)]

/-- A byte among the bytes of a cluster's local store. -/
theorem State.getD_lsBytes (s : State) (c off : Nat) {n i : Nat} (h : i < n) :
    (s.lsBytes c off n).getD i 0#8 = s.byte (lsBase c + off + i) := by
  simp [State.lsBytes, State.bytes, h]

/-- The states differ in the memory system alone. -/
def OnlyMemsys (s t : State) : Prop := t = { s with memsys := t.memsys }

theorem OnlyMemsys.trans {s t u : State} (hst : OnlyMemsys s t) (htu : OnlyMemsys t u) : OnlyMemsys s u :=
  calc u = { t with memsys := u.memsys } := htu
    _ = { s with memsys := u.memsys } := by rw [hst]

/-- Sectors that pass their home slices change the memory system alone. -/
theorem foldl_touchSector_onlyMemsys (write : Bool) (cls : Nat) (l : List Nat) (s : State) :
    OnlyMemsys s (l.foldl (fun s b => s.touchSector b write cls) s) := by
  induction l generalizing s with
  | nil => rfl
  | cons b l ih => exact OnlyMemsys.trans (t := s.touchSector b write cls) rfl (ih _)

/-- An access changes, beside its bytes, the memory system alone. -/
theorem State.touch_onlyMemsys (s : State) (a n : Nat) (write : Bool) (cls : Nat) : OnlyMemsys s (s.touch a n write cls) := by
  unfold State.touch
  split
  · exact OnlyMemsys.trans (t := s.charge a (unitsOf a n).length cls) rfl (foldl_touchSector_onlyMemsys write cls _ _)
  · rfl

/-- A store changes memory, its poison and the memory system alone. -/
theorem State.store_frame (s : State) (a : Nat) (bs : List Byte) (p : Bool) (cls : Nat) :
    s.store a bs p cls = { s with mem := putBytes s.mem a bs, poison := (s.store a bs p cls).poison, memsys := (s.store a bs p cls).memsys } := by
  have h := s.touch_onlyMemsys a bs.length true cls
  unfold State.store
  generalize s.touch a bs.length true cls = u at *
  rw [h]
end Sys2Proof.Machine
end

section
/-!
PROOF. Pours and the load unit at work (R169 to R217, R265, R340 to R349, R485): what one start and one completion leave.
-/
namespace Sys2Proof.Machine
open Sys2Proof.Claims

/-! ### Changes of one cluster, arrivals -/

/-- Of two writes of a key the later one stands. -/
theorem tabSet_tabSet {α : Type} (t : Tab α) (k : Nat) (v w : α) : tabSet (tabSet t k v) k w = tabSet t k w := by
  induction t with
  | nil => simp [tabSet]
  | cons e t ih =>
    by_cases he : e.1 = k
    · simp [tabSet, he]
    · by_cases hlt : k < e.1
      · simp [tabSet, he, hlt]
      · simp [tabSet, he, hlt, ih]

/-- A cluster put back, then changed. -/
theorem State.modCl_setCl (s : State) (c : Nat) (k : Cluster) (f : Cluster → Cluster) : (s.setCl c k).modCl c f = s.setCl c (f k) := by
  rw [State.modCl, State.cl_setCl_self, State.setCl, State.setCl, State.setCl, tabSet_tabSet]

/-- An arrival at a state whose counters, fence and units are those of `s` is one at `s`. -/
theorem arrived_of_same {s u t : State} {c e : Nat} {en : Bool} (he : (u.cl c).e = (s.cl c).e) (hfenced : (u.cl c).fenced = (s.cl c).fenced)
    (hunits : u.units = s.units) (h : Arrived u t c e en) : Arrived s t c e en := by
  have habsent : u.absent c = s.absent c := by rw [State.absent, State.absent, State.slotOf, State.slotOf, hunits]
  have hev (d : Nat) : (u.cl c).ev d = (s.cl c).ev d := by rw [Cluster.ev, Cluster.ev, he]
  unfold Arrived CounterWritten at h ⊢
  simpa only [hev, hfenced, habsent] using h

/-- A register after one register was written. -/
theorem Cluster.tile_of_tabSet {k j : Cluster} {d : Nat} {x : TileReg} (h : j.tiles = tabSet k.tiles d x) (r : Nat) :
    j.tile r = if r = d then x else k.tile r := by
  rw [Cluster.tile, h, tabGet_tabSet]
  simp only [eq_comm (a := d), Cluster.tile]

/-! ### The start of a Pour (R169 to R203, R214, R217) -/

/-- A Pour to a tile register takes nothing of a side list. -/
theorem pourRun_sideFull {e : PourEnv} (h : e.dst < 0x18) (gens : List W64) (sl : Slot) : (pourRun e gens sl).sideFull = [] := by
  have hreg : decide (0x18 ≤ e.dst) = false := decide_eq_false (Nat.not_le.2 h)
  unfold pourRun
  simp only [hreg]
  split <;> rfl

/-- What the first Pour in cluster `c` computes. -/
def State.pourResult (s : State) (c : Nat) (p : PourRun) : PourResult :=
  pourRun { c := s.cl c, ls := s.lsBytes c, src := fld p.w 20 16, dst := fld p.w 28 24, transpose := bitN p.w 8, chain := p.chain }
    ((List.range 128).map (s.genOf c)) ((s.cl c).slot (fld p.w 28 24 - 0x10))

/-- The cluster with the first Pour's results known: its output, the generators it drew from and its events. -/
def State.pourStarted (s : State) (c : Nat) (p : PourRun) : Cluster :=
  { s.cl c with
    pour0 := some { p with out := some { (s.pourResult c p).out with poison := s.pourPoison c p } }
    gens := (List.range 128).map fun l => (l, (s.pourResult c p).gens.getD l 0#64)
    arith := (s.cl c).arith ||| (s.pourResult c p).flags }

/-- The states differ in one cluster and in the log alone, and of the cluster in what the array works on and in the state of its
correction lists. -/
def StartStep (c : Nat) (s t : State) : Prop :=
  t = { s with clusters := t.clusters, log := t.log } ∧ (∀ d, d ≠ c → t.cl d = s.cl d) ∧
    t.cl c = { s.cl c with
      mma0 := (t.cl c).mma0, mma1 := (t.cl c).mma1, a0 := (t.cl c).a0, a1 := (t.cl c).a1, arith := (t.cl c).arith,
      clFull := (t.cl c).clFull, clLogged := (t.cl c).clLogged }

theorem startStep_refl (c : Nat) (s : State) : StartStep c s s := ⟨rfl, fun _ _ => rfl, rfl⟩

theorem StartStep.trans {c : Nat} {s t u : State} (hst : StartStep c s t) (htu : StartStep c t u) : StartStep c s u := by
  obtain ⟨hs, hsd, hsc⟩ := hst
  obtain ⟨ht, htd, htc⟩ := htu
  exact ⟨by rw [ht, hs], fun d hd => (htd d hd).trans (hsd d hd), by rw [htc, hsc]⟩

/-- The array's work is such a step. -/
theorem ArrayStep.startStep {c : Nat} {s t : State} (h : ArrayStep c s t) : StartStep c s t := by
  obtain ⟨⟨hs, hd⟩, hc⟩ := h
  exact ⟨by rw [hs], hd, by rw [hc]⟩

/-- An error record changes the log alone. -/
theorem State.err_startStep (s : State) (c source code : Nat) (e : ErrInfo) : StartStep c s (s.err source code e) := by
  unfold State.err
  split <;> exact ⟨rfl, fun _ _ => rfl, rfl⟩

/-- Dropped correction items are noted in the cluster and in the log (R148, R203). -/
theorem State.clDropped_startStep (s : State) (c reg cap : Nat) : StartStep c s (s.clDropped c reg cap) := by
  have hnoted : StartStep c s (s.setCl c { s.cl c with clFull := true, clLogged := true }) := by
    obtain ⟨hs, hd⟩ := onlyCluster_setCl s c { s.cl c with clFull := true, clLogged := true }
    exact ⟨hs, hd, by rw [State.cl_setCl_self]⟩
  unfold State.clDropped
  dsimp only
  split
  · exact hnoted
  · exact hnoted.trans (State.err_startStep _ _ _ _ _)

/-- Sets that become free stay in the array (R155). -/
theorem State.release_startStep (s : State) (c : Nat) : StartStep c s (s.release c) := by
  rw [State.release_eq_foldl]
  generalize (s.cl c).mmas = l
  induction l generalizing s with
  | nil => exact startStep_refl c s
  | cons m l ih =>
    refine StartStep.trans ?_ (ih (s.releaseOne c m))
    rcases s.releaseOne_cases c m with hheld | ⟨a, r, fl, hfreed, -⟩
    · rw [hheld]
      exact startStep_refl c s
    · rw [hfreed]
      exact (arrayStep_setCl (arrayWorked_putWork _ _ a r fl)).startStep

/-- POUR_START of a Pour to a tile register that waits for no step start, no table load and no reload: its results are known, and sets that
become free are released. -/
theorem execPourStart_spec {s : State} {c : BitVec 8} {p : PourRun} (hclocked : s.clocked = true) (h0 : (s.cl c.toNat).pour0 = some p)
    (hout : p.out = none) (hlate : p.late = false) (hdst : fld p.w 28 24 < 0x18) (hreload : (s.cl c.toNat).rtInv = 0#4)
    (hloads : ∀ l ∈ (s.cl c.toNat).loads, l.op.isTable = false) (grid : Option (List Byte)) :
    ∃ t, execPourStart c grid s = .next t ∧ StartStep c.toNat (s.setCl c.toNat (s.pourStarted c.toNat p)) t := by
  have hgo : (p.out.isSome || p.late || !s.clocked || ((s.cl c.toNat).loads.any fun l => decide (l.seq < p.seq) && l.op.isTable) ||
      ((List.range 4).any fun n => (s.cl c.toNat).reloadWaits n p.seq)) = false := by
    have hfree : ((s.cl c.toNat).loads.any fun l => decide (l.seq < p.seq) && l.op.isTable) = false :=
      List.any_eq_false.2 fun l hl => by simp [hloads l hl]
    have hnone : ((List.range 4).any fun n => (s.cl c.toNat).reloadWaits n p.seq) = false :=
      List.any_eq_false.2 fun n _ => by simp [Cluster.reloadWaits, hreload]
    rw [hfree, hnone, hout, hlate, hclocked]
    rfl
  have hside : (s.pourResult c.toNat p).sideFull = [] := pourRun_sideFull hdst _ _
  have hexec : execPourStart c grid s = .next (State.release (if (s.pourResult c.toNat p).clFull then
      (s.setCl c.toNat (s.pourStarted c.toNat p)).clDropped c.toNat (fld p.w 28 24) (((chainPack p.chain).map fun g => g.aux / 4).getD 0)
      else s.setCl c.toNat (s.pourStarted c.toNat p)) c.toNat) := by
    simp only [execPourStart, h0, hgo, Bool.false_eq_true, if_false, if_neg (Nat.not_le.2 hdst)]
    rw [← State.pourResult, hside, List.foldl_nil, State.pourStarted]
  refine ⟨_, hexec, StartStep.trans ?_ (State.release_startStep _ _)⟩
  split
  · exact State.clDropped_startStep _ _ _ _
  · exact startStep_refl _ _

/-! ### The completion of a Pour (R173, R214, R268) -/

/-- No reload is awaited: none is made. -/
theorem State.tryReload_of_none {s : State} {c : Nat} (h : (s.cl c).rtInv = 0#4) : s.tryReload c = s := by
  unfold State.tryReload
  refine List.foldlRecOn (motive := fun t => t = s) _ _ rfl fun t ht n _ => ?_
  rw [ht]
  simp [h]

/-- The cluster with the first Pour's results written and the Pour gone. -/
def Cluster.pourDone (k : Cluster) (p : PourRun) (o : PourOut) : Cluster :=
  let k := ((k.putPourRegs p o).putPourItems o).markFills p.fills .done (pourSlab p.w p.chain)
  { k with pour0 := k.pour1, pour1 := none }

/-- A result of one register and no item for a slot writes that register, and marks the refill visits that it serves. -/
theorem Cluster.pourDone_of_one {k : Cluster} {p : PourRun} {o : PourOut} {d : Nat} {x : TileReg} (hregs : o.regs = [(d, x)])
    (hslot : o.slot = 0) : k.pourDone p o = { k with
      tiles := tabSet k.tiles d { x with poison := o.poison || (pourSlab p.w p.chain == 2 && (k.tile d).poison) }
      mma0 := (k.markFills p.fills .done (pourSlab p.w p.chain)).mma0, mma1 := (k.markFills p.fills .done (pourSlab p.w p.chain)).mma1
      pour0 := k.pour1, pour1 := none } := by
  have hitems (j : Cluster) : j.putPourItems o = j := if_pos hslot
  rw [Cluster.pourDone, hitems, Cluster.putPourRegs, hregs]
  rfl

/-- POUR_COMPLETE of such a Pour that leaves nothing in local store, where neither a step start nor a reload is awaited: its register is
written, the next Pour takes its place, and the arrival is made. -/
theorem execPourComplete_spec {s : State} {c : BitVec 8} {p : PourRun} {o : PourOut} {d : Nat} {x : TileReg} (hclocked : s.clocked = true)
    (h0 : (s.cl c.toNat).pour0 = some p) (hout : p.out = some o) (hregs : o.regs = [(d, x)]) (hslot : o.slot = 0) (hlists : o.lists = [])
    (hvecs : o.vecs = []) (hnostep : (s.cl c.toNat).stepStart = false) (hreload : (s.cl c.toNat).rtInv = 0#4) :
    ∃ t, execPourComplete c s = .next t ∧ OnlyCluster c.toNat s t ∧
      (t.cl c.toNat).tiles = tabSet (s.cl c.toNat).tiles d
        { x with poison := o.poison || (pourSlab p.w p.chain == 2 && ((s.cl c.toNat).tile d).poison) } ∧
      (t.cl c.toNat).pour0 = (s.cl c.toNat).pour1 ∧ (t.cl c.toNat).pour1 = none ∧ (t.cl c.toNat).s = (s.cl c.toNat).s ∧
      (t.cl c.toNat).pc = (s.cl c.toNat).pc ∧ Arrived s t c.toNat (fld p.w 69 64) (bitN p.w 9) := by
  have hexec : execPourComplete c s = .next ((((s.setCl c.toNat ((s.cl c.toNat).pourDone p o)).arriveIf (bitN p.w 9) c.toNat
      (fld p.w 69 64)).tryStep c.toNat).tryReload c.toNat) := by
    simp only [execPourComplete, h0, hout, hclocked, hlists, hvecs, List.foldl_nil, Bool.not_true, Bool.false_eq_true, if_false]
    rfl
  have hdone := (s.cl_setCl_self c.toNat ((s.cl c.toNat).pourDone p o)).trans (Cluster.pourDone_of_one hregs hslot)
  have honly := onlyCluster_setCl s c.toNat ((s.cl c.toNat).pourDone p o)
  generalize s.setCl c.toNat ((s.cl c.toNat).pourDone p o) = u at *
  obtain ⟨hu, hcl, harrived⟩ := u.arriveIf_spec (bitN p.w 9) c.toNat (fld p.w 69 64)
  generalize u.arriveIf (bitN p.w 9) c.toNat (fld p.w 69 64) = t at *
  have harrived' : Arrived s t c.toNat (fld p.w 69 64) (bitN p.w 9) :=
    arrived_of_same (by rw [hdone]) (by rw [hdone]) (by rw [honly.1]) harrived
  rw [hdone] at hcl
  rw [State.tryStep_of_not_stepStart ((congrArg Cluster.stepStart hcl).trans hnostep),
    State.tryReload_of_none ((congrArg Cluster.rtInv hcl).trans hreload)] at hexec
  refine ⟨t, hexec, onlyCluster_trans honly hu, ?_, ?_, ?_, ?_, ?_, harrived'⟩ <;> rw [hcl]

/-! ### Completion in the load unit (R265, R340 to R349) -/

/-- The cluster with its first load-unit instruction gone and the refill visits marked that it served. -/
def Cluster.loadDone (k : Cluster) (l : LoadRun) : Cluster := (k.markFills l.fills .done 0).popLoad

/-- What the completion of load-unit instruction `l` leaves: the next one in its place, the sequencer and the other clusters as they
were, and the arrival. -/
def LoadLeft (c : Nat) (l : LoadRun) (s t : State) : Prop :=
  (t.cl c).load0 = (s.cl c).load1 ∧ (t.cl c).load1 = none ∧ (t.cl c).s = (s.cl c).s ∧ (t.cl c).pc = (s.cl c).pc ∧
    (∀ d, d ≠ c → t.cl d = s.cl d) ∧ Arrived s t c (fld l.w 29 24) (bitN l.w 12)

/-- The clusters differ in their registers, tables and events of the arithmetic alone. -/
def Loaded (k j : Cluster) : Prop := j = { k with tiles := j.tiles, luts := j.luts, rts := j.rts, arith := j.arith }

/-- Cluster `c` put back, with memory, its poison and the memory system. -/
def State.setClMem (s : State) (c : Nat) (j : Cluster) (m : List Host.Cell) (q : Tab Bool) (y : MemSt) : State :=
  { s.setCl c j with mem := m, poison := q, memsys := y }

/-- TILE_LOAD_COMPLETE of an instruction that waits for no Pour: its effect on the cluster and on memory, then the arrival. -/
theorem execTileLoadComplete_spec {s : State} {c : BitVec 8} {side : Tab (List Byte)} {l : LoadRun} {j : Cluster} {m : List Host.Cell}
    {q : Tab Bool} {y : MemSt} (hclocked : s.clocked = true) (h0 : (s.cl c.toNat).load0 = some l)
    (hwait : (s.cl c.toNat).tableWaits l = false)
    (hfinish : (s.setCl c.toNat ((s.cl c.toNat).loadDone l)).finishLoad c.toNat side l.op = s.setClMem c.toNat j m q y)
    (hj : Loaded ((s.cl c.toNat).loadDone l) j) : ∃ t, execTileLoadComplete c side s = .next t ∧ LoadLeft c.toNat l s t ∧ t.mem = m ∧
      (t.cl c.toNat).tiles = j.tiles ∧ (t.cl c.toNat).luts = j.luts ∧ (t.cl c.toNat).rts = j.rts := by
  have hexec : execTileLoadComplete c side s =
      .next ((s.setClMem c.toNat j m q y).arriveIf (bitN l.w 12) c.toNat (fld l.w 29 24)) := by
    rw [← hfinish]
    simp only [execTileLoadComplete, h0, hclocked, hwait, Bool.not_true, Bool.or_self, Bool.false_eq_true, if_false]
    rfl
  have hcl : (s.setClMem c.toNat j m q y).cl c.toNat = j := s.cl_setCl_self c.toNat j
  have hothers : ∀ d, d ≠ c.toNat → (s.setClMem c.toNat j m q y).cl d = s.cl d := (onlyCluster_setCl s c.toNat j).2
  obtain ⟨⟨ht, htd⟩, htc, harrived⟩ := (s.setClMem c.toNat j m q y).arriveIf_spec (bitN l.w 12) c.toNat (fld l.w 29 24)
  generalize (s.setClMem c.toNat j m q y).arriveIf (bitN l.w 12) c.toNat (fld l.w 29 24) = t at *
  have hmade : Arrived s t c.toNat (fld l.w 29 24) (bitN l.w 12) :=
    arrived_of_same (u := s.setClMem c.toNat j m q y) (by rw [hcl, hj]; rfl) (by rw [hcl, hj]; rfl) rfl harrived
  rw [hcl] at htc
  refine ⟨t, hexec, ⟨?_, ?_, ?_, ?_, fun d hne => (htd d hne).trans (hothers d hne), hmade⟩, by rw [ht]; rfl, by rw [htc], by rw [htc],
    by rw [htc]⟩
  all_goals rw [htc, hj]; rfl

/-- An instruction that loads no table waits for no Pour (R217, R241). -/
theorem Cluster.tableWaits_of_not_table {k : Cluster} {l : LoadRun} (h : l.op.isTable = false) : k.tableWaits l = false := by
  rw [Cluster.tableWaits, h, Bool.false_and]

/-- A table load waits for no Pour that was issued after it (R217, R241). -/
theorem Cluster.tableWaits_of_later {k : Cluster} {l : LoadRun} (h : ∀ p ∈ k.pours, l.seq ≤ p.seq) : k.tableWaits l = false := by
  rw [Cluster.tableWaits, List.any_eq_false.2 fun p hp => by simpa using h p hp, Bool.and_false]

/-- The register that a TLM fills from local store (R347). -/
def State.tlmReg (s : State) (c off : Nat) : TileReg :=
  { bytes := tabOf 0#8 16384 fun q => (s.lsBytes c off 16384).toArray.getD q 0#8, poison := s.poisoned (lsBase c + off) 16384 }

/-- A byte of the register that a TLM fills. -/
theorem State.byte_tlmReg (s : State) (c off : Nat) {b : Nat} (h : b < 16384) :
    tabGet 0#8 (s.tlmReg c off).bytes b = s.byte (lsBase c + off + b) := by
  rw [State.tlmReg, tabGet_tabOf _ _ h, ← s.getD_lsBytes c off h, List.getD_eq_getElem?_getD, Array.getD_eq_getD_getElem?,
    List.getElem?_toArray]

/-- The lookup table that a record in local store holds, with the events of its differences (R204). -/
def State.lutAt (s : State) (c off : Nat) : Lut × Flags := lutOf (s.lsBytes c off 1056) (s.poisoned (lsBase c + off) 1056)

/-- An entry of that table. -/
theorem State.entry_lutAt (s : State) (c off : Nat) {i : Nat} (h : i < 256) :
    tabGet 0 (s.lutAt c off).1.t i = leAt (s.lsBytes c off 1056) (0x20 + 4 * i) 4 := by
  rw [State.lutAt, lutOf]
  dsimp only
  rw [tabGet_tabOf _ _ h]

/-- The table that a rescale record fills (R238). -/
def State.rtAt (s : State) (c off ch : Nat) : Rt :=
  { channels := ch, addr := off, ent := tabOf 0 ch fun i => leAt (s.bytes (lsBase c + off + 32 + 8 * i) 8) 0 8
    poison := s.poisoned (lsBase c + off) (32 + 8 * ch) }

/-- TLM: the register is filled. -/
theorem State.finishLoad_tlm (s : State) (c : Nat) (k : Cluster) (side : Tab (List Byte)) (td off : Nat) :
    (s.setCl c k).finishLoad c side (.tlm td off) = s.setCl c { k with tiles := tabSet k.tiles td (s.tlmReg c off) } := by
  rw [State.finishLoad]
  exact s.modCl_setCl c k _

/-- TST to local store: the register's bytes are stored. -/
theorem State.finishLoad_tst (s : State) (c : Nat) (k : Cluster) (side : Tab (List Byte)) (tn off : Nat) : ∃ q y,
    (s.setCl c k).finishLoad c side (.tst tn off) =
      s.setClMem c k (putBytes s.mem (lsBase c + off) (tabDense 0#8 16384 0 (k.tile tn).bytes)) q y := by
  rw [State.finishLoad, State.cl_setCl_self]
  exact ⟨_, _, State.store_frame _ _ _ _ _⟩

/-- LUTLD: the table is written, and the events of its differences. -/
theorem State.finishLoad_lut (s : State) (c : Nat) (k : Cluster) (side : Tab (List Byte)) (n off : Nat) :
    (s.setCl c k).finishLoad c side (.lut n off) =
      s.setCl c { k with luts := tabSet k.luts n (s.lutAt c off).1, arith := k.arith ||| (s.lutAt c off).2 } := by
  have hbytes : (s.setCl c k).lsBytes c off 1056 = s.lsBytes c off 1056 := rfl
  have hpoison : (s.setCl c k).poisoned (lsBase c + off) 1056 = s.poisoned (lsBase c + off) 1056 := rfl
  rw [State.finishLoad, hbytes, hpoison, ← State.lutAt]
  obtain ⟨t, f⟩ := s.lutAt c off
  dsimp only [State.flagCl]
  rw [State.modCl_setCl, State.modCl_setCl]

/-- RTLD: the table is written. -/
theorem State.finishLoad_rt (s : State) (c : Nat) (k : Cluster) (side : Tab (List Byte)) (n off ch : Nat) :
    (s.setCl c k).finishLoad c side (.rt n off ch) = s.setCl c { k with rts := tabSet k.rts n (s.rtAt c off ch) } := by
  rw [State.finishLoad, State.fillRt]
  exact s.modCl_setCl c k _
end Sys2Proof.Machine
end

section
/-!
PROOF. Pours and tile loads: O16.
-/
open Sys2Proof Sys2Proof.Machine Sys2Proof.Claims

/-- Settles O16: a Pour's start and its completion by what each leaves in the cluster, a load by its own effect before the arrival. -/
theorem poursAndTileLoadsComplete : Obligations.PoursAndTileLoadsComplete := by
  unfold Obligations.PoursAndTileLoadsComplete
  intro s c hclocked k
  refine ⟨?start, ?complete, ?load⟩
  case start =>
    intro p grid h0 hout hlate hdst hreload hloads r
    obtain ⟨t, hexec, ht, hd, hc⟩ := execPourStart_spec hclocked h0 hout hlate hdst hreload hloads grid
    rw [State.cl_setCl_self] at hc
    refine ⟨t, hexec, ?pour, by rw [ht]; rfl, by rw [hc]; rfl, by rw [hc]; rfl, by rw [hc]; rfl, fun d hne => ?others⟩
    case pour => rw [hc]; rfl
    case others => rw [hd d hne, State.cl_setCl, if_neg hne]
  case complete =>
    intro p o d x h0 hout hregs hslot hlists hvecs hnostep hreload
    obtain ⟨t, hexec, honly, htiles, hfirst, hsecond, hs, hpc, harrived⟩ :=
      execPourComplete_spec hclocked h0 hout hregs hslot hlists hvecs hnostep hreload
    exact ⟨t, hexec, honly, Cluster.tile_of_tabSet htiles, hfirst, hsecond, hs, hpc, harrived⟩
  case load =>
    intro l side h0 done
    refine ⟨fun td off hop => ?tlm, fun tn off hop => ?tst, fun n off hop hlater => ?lut, fun n off ch hop hlater => ?rt⟩
    case tlm =>
      have hu := (congrArg (State.finishLoad _ _ side) hop).trans (s.finishLoad_tlm c.toNat (k.loadDone l) side td off)
      obtain ⟨t, hexec, hleft, hmem, htiles, -, -⟩ :=
        execTileLoadComplete_spec hclocked h0 (Cluster.tableWaits_of_not_table (by rw [hop]; rfl)) hu rfl
      have htile := Cluster.tile_of_tabSet (k := k) htiles
      refine ⟨t, hexec, hleft, hmem, ?_, ?_, fun b hb => ?_, fun r hr => ?_⟩
      · rw [htile, if_pos rfl]; rfl
      · rw [htile, if_pos rfl]; rfl
      · rw [htile, if_pos rfl, s.byte_tlmReg c.toNat off hb]
      · rw [htile, if_neg hr]
    case tst =>
      obtain ⟨q, y, hst⟩ := s.finishLoad_tst c.toNat (k.loadDone l) side tn off
      have hu := (congrArg (State.finishLoad _ _ side) hop).trans hst
      obtain ⟨t, hexec, hleft, hmem, htiles, -, -⟩ :=
        execTileLoadComplete_spec hclocked h0 (Cluster.tableWaits_of_not_table (by rw [hop]; rfl)) hu rfl
      refine ⟨t, hexec, hleft, htiles, fun b => ?_⟩
      rw [State.byte, hmem, getByte_putBytes, length_tabDense]
      rfl
    case lut =>
      have hu := (congrArg (State.finishLoad _ _ side) hop).trans (s.finishLoad_lut c.toNat (k.loadDone l) side n off)
      obtain ⟨t, hexec, hleft, hmem, htiles, hluts, -⟩ :=
        execTileLoadComplete_spec hclocked h0 (Cluster.tableWaits_of_later hlater) hu rfl
      refine ⟨t, hexec, hleft, hmem, htiles, fun i hi => ?_, fun m hm => ?_⟩
      · rw [hluts, tabGet_tabSet, if_pos rfl, s.entry_lutAt c.toNat off hi]
      · rw [hluts, tabGet_tabSet, if_neg hm.symm]; rfl
    case rt =>
      have hu := (congrArg (State.finishLoad _ _ side) hop).trans (s.finishLoad_rt c.toNat (k.loadDone l) side n off ch)
      obtain ⟨t, hexec, hleft, hmem, htiles, -, hrts⟩ :=
        execTileLoadComplete_spec hclocked h0 (Cluster.tableWaits_of_later hlater) hu rfl
      have hrt : tabGet {} (t.cl c.toNat).rts n = s.rtAt c.toNat off ch := by rw [hrts, tabGet_tabSet, if_pos rfl]
      refine ⟨t, hexec, hleft, hmem, by rw [hrt]; rfl, by rw [hrt]; rfl, fun i hi => ?_, fun m hm => ?_⟩
      · rw [hrt, State.rtAt, tabGet_tabOf _ _ hi]
      · rw [hrts, tabGet_tabSet, if_neg hm.symm]; rfl
end

section
/-!
PROOF. Rereads of translation entries, rescale tables and grids (R252 to R255, R282 to R284): what one entry, one table and one request
leave.
-/
namespace Sys2Proof.Machine
open Sys2Proof.Claims

/-! ### Reads, errors and requests beside one cluster -/

/-- The states differ alone in what accesses and errors leave behind: the memory system without the top of HBM, and the log. -/
def OnlyTraces (s t : State) : Prop := t = { s with memsys := { t.memsys with hbmTop := s.memsys.hbmTop }, log := t.log }

theorem OnlyTraces.trans {s t u : State} (hst : OnlyTraces s t) (htu : OnlyTraces t u) : OnlyTraces s u := by
  unfold OnlyTraces at hst htu ⊢
  rw [htu, hst]

theorem State.err_onlyTraces (s : State) (source code : Nat) (e : ErrInfo) : OnlyTraces s (s.err source code e) := by
  unfold State.err
  split <;> rfl

/-- An access leaves traces in its home slices and its stack. -/
theorem State.touch_onlyTraces (s : State) (a n : Nat) (write : Bool) (cls : Nat) : OnlyTraces s (s.touch a n write cls) := by
  unfold State.touch
  split
  · exact List.foldlRecOn (motive := OnlyTraces s) _ _ rfl fun t ht b _ => ht.trans (u := t.touchSector b write cls) rfl
  · rfl

/-- Poison found is noted in the memory system and in the log. -/
theorem State.notice_onlyTraces (s : State) (a n : Nat) : OnlyTraces s (s.notice a n) := by
  refine List.foldlRecOn (motive := OnlyTraces s) _ _ rfl fun t ht b _ => ?_
  have hnoted : OnlyTraces s { t with memsys := { t.memsys with logged := b :: t.memsys.logged } } := ht.trans rfl
  split
  · dsimp only
    split <;> exact hnoted.trans (State.err_onlyTraces _ _ _ _)
  · exact ht

theorem State.load_onlyTraces (s : State) (a n cls : Nat) : OnlyTraces s (s.load a n cls).1 :=
  (s.touch_onlyTraces a n false cls).trans (State.notice_onlyTraces _ a n)

/-- The states hold the same memory with the same poison, the same top of HBM and the same clusters beside `c`. -/
def SameBeside (c : Nat) (s t : State) : Prop :=
  t.mem = s.mem ∧ t.poison = s.poison ∧ t.memsys.hbmTop = s.memsys.hbmTop ∧ ∀ d, d ≠ c → t.cl d = s.cl d

theorem sameBeside_refl (c : Nat) (s : State) : SameBeside c s s := ⟨rfl, rfl, rfl, fun _ _ => rfl⟩

theorem SameBeside.trans {c : Nat} {s t u : State} (hst : SameBeside c s t) (htu : SameBeside c t u) : SameBeside c s u := by
  obtain ⟨hsmem, hspoison, hstop, hscl⟩ := hst
  obtain ⟨htmem, htpoison, httop, htcl⟩ := htu
  exact ⟨htmem.trans hsmem, htpoison.trans hspoison, httop.trans hstop, fun d hd => (htcl d hd).trans (hscl d hd)⟩

theorem sameBeside_setCl (s : State) (c : Nat) (k : Cluster) : SameBeside c s (s.setCl c k) :=
  ⟨rfl, rfl, rfl, (onlyCluster_setCl s c k).2⟩

theorem OnlyTraces.cl_eq {s t : State} (h : OnlyTraces s t) (d : Nat) : t.cl d = s.cl d := by rw [h]; rfl

theorem OnlyTraces.sameBeside {s t : State} (h : OnlyTraces s t) (c : Nat) : SameBeside c s t :=
  ⟨by rw [h], by rw [h], by rw [h], fun d _ => h.cl_eq d⟩

theorem SameBeside.bytes_eq {c : Nat} {s t : State} (h : SameBeside c s t) (a n : Nat) : t.bytes a n = s.bytes a n := by
  obtain ⟨hmem, -⟩ := h
  simp only [State.bytes, State.byte, hmem]

theorem SameBeside.poisoned_eq {c : Nat} {s t : State} (h : SameBeside c s t) (a n : Nat) : t.poisoned a n = s.poisoned a n := by
  obtain ⟨-, hpoison, -⟩ := h
  simp only [State.poisoned, hpoison]

theorem SameBeside.hbmTop_eq {c : Nat} {s t : State} (h : SameBeside c s t) : t.memsys.hbmTop = s.memsys.hbmTop := by
  obtain ⟨-, -, htop, -⟩ := h
  exact htop

/-- A program's request reaches a present cluster that is not fenced (R306). -/
theorem State.open_iff (s : State) (c : Nat) : s.open_ c = true ↔ s.absent c = false ∧ (s.cl c).fenced = false := by
  simp [State.open_]

/-! ### One translation entry (R282, R283) -/

/-- The word that memory holds for entry `i` of a cluster's translation table. -/
def State.transWord (s : State) (c i : Nat) : Nat := leAt (s.bytes ((s.cl c).transBase + 16 * i) 16) 0 16

/-- Entry `i` cannot be taken: outside HBM, poisoned, or with a reserved bit set (R283). -/
def State.transRefused (s : State) (c i : Nat) : Bool :=
  let a := (s.cl c).transBase + 16 * i
  decide (s.memsys.hbmTop < a + 16) || s.poisoned a 16 || fld (s.transWord c i) 63 48 != 0 || fld (s.transWord c i) 127 125 != 0

/-- What entry `i` holds after a reread; a refused one is not VALID. -/
def State.transReread (s : State) (c i : Nat) : Nat := if s.transRefused c i then 0 else s.transWord c i

theorem State.transRefused_iff (s : State) (c i : Nat) : s.transRefused c i = true ↔
    s.memsys.hbmTop < (s.cl c).transBase + 16 * i + 16 ∨ s.poisoned ((s.cl c).transBase + 16 * i) 16 = true ∨
      fld (s.transWord c i) 63 48 ≠ 0 ∨ fld (s.transWord c i) 127 125 ≠ 0 := by
  simp [State.transRefused, or_assoc]

/-- The entries of `l` are reread: beside them only TRANS_BAD of the cluster may differ. -/
def Reread (c : Nat) (l : List Nat) (s t : State) : Prop :=
  SameBeside c s t ∧
    t.cl c = { s.cl c with trans := (t.cl c).trans, transBad := (s.cl c).transBad || l.any (s.transRefused c) } ∧
    ∀ j, tabGet 0 (t.cl c).trans j = if j ∈ l then s.transReread c j else tabGet 0 (s.cl c).trans j

/-- The state after the access to entry `i`; outside HBM there is none. -/
def State.transLoaded (s : State) (c i : Nat) : State :=
  let a := (s.cl c).transBase + 16 * i
  if s.isHbm a 16 then (s.load a 16 0).1 else s

theorem State.transLoaded_onlyTraces (s : State) (c i : Nat) : OnlyTraces s (s.transLoaded c i) := by
  unfold State.transLoaded
  dsimp only
  split
  · exact s.load_onlyTraces _ _ _
  · rfl

/-- A refused entry is cleared, sets TRANS_BAD and is logged. -/
theorem State.rereadEntry_of_refused {s : State} {c i : Nat} (h : s.transRefused c i = true) : ∃ e, s.rereadEntry c i =
    ((s.transLoaded c i).modCl c fun k => { k with trans := tabDel k.trans i, transBad := true }).err 1 0xFFFF e := by
  by_cases hhere : s.isHbm ((s.cl c).transBase + 16 * i) 16 = true
  · have hin : ¬s.memsys.hbmTop < (s.cl c).transBase + 16 * i + 16 := Nat.not_lt.2 (of_decide_eq_true hhere)
    have hbad : (!true || s.poisoned ((s.cl c).transBase + 16 * i) 16 || fld (s.transWord c i) 63 48 != 0 ||
        fld (s.transWord c i) 127 125 != 0) = true := by
      simpa [State.transRefused, hin] using h
    simp only [State.rereadEntry, State.transLoaded, hhere, if_true]
    exact ⟨_, if_pos hbad⟩
  · simp only [State.rereadEntry, State.transLoaded, hhere, Bool.false_eq_true, if_false]
    exact ⟨_, rfl⟩

/-- A sound entry takes its word. -/
theorem State.rereadEntry_of_sound {s : State} {c i : Nat} (h : s.transRefused c i = false) : s.rereadEntry c i =
    (s.transLoaded c i).modCl c fun k => { k with trans := tabPut 0 k.trans i (s.transWord c i) } := by
  have hall : ¬(s.transRefused c i = true) := by simp [h]
  rw [State.transRefused_iff, not_or, not_or, not_or] at hall
  obtain ⟨hin, hpoison, hlow, hhigh⟩ := hall
  have hhere : s.isHbm ((s.cl c).transBase + 16 * i) 16 = true := decide_eq_true (Nat.not_lt.1 hin)
  have hgood : ¬((!true || s.poisoned ((s.cl c).transBase + 16 * i) 16 || fld (s.transWord c i) 63 48 != 0 ||
      fld (s.transWord c i) 127 125 != 0) = true) := by
    simp [hpoison, hlow, hhigh]
  simp only [State.rereadEntry, State.transLoaded, hhere, if_true]
  exact if_neg hgood

/-- One entry is reread. -/
theorem State.rereadEntry_spec (s : State) (c i : Nat) : Reread c [i] s (s.rereadEntry c i) := by
  have hload := s.transLoaded_onlyTraces c i
  cases h : s.transRefused c i with
  | true =>
    obtain ⟨e, heq⟩ := State.rereadEntry_of_refused h
    have herr := State.err_onlyTraces ((s.transLoaded c i).modCl c fun k => { k with trans := tabDel k.trans i, transBad := true }) 1 0xFFFF e
    rw [← heq] at herr
    have hcl : (s.rereadEntry c i).cl c = { s.cl c with trans := tabDel (s.cl c).trans i, transBad := true } := by
      rw [herr.cl_eq, State.modCl, State.cl_setCl_self, hload.cl_eq]
    refine ⟨((hload.sameBeside c).trans (sameBeside_setCl _ c _)).trans (herr.sameBeside c), ?_, fun j => ?_⟩
    · rw [hcl]; simp [h]
    · rw [hcl]; simp only [tabGet_tabDel, State.transReread, List.mem_singleton, eq_comm (a := i)]
      split <;> simp_all
  | false =>
    have heq := State.rereadEntry_of_sound h
    have hcl : (s.rereadEntry c i).cl c = { s.cl c with trans := tabPut 0 (s.cl c).trans i (s.transWord c i) } := by
      rw [heq, State.modCl, State.cl_setCl_self, hload.cl_eq]
    refine ⟨(hload.sameBeside c).trans (heq ▸ sameBeside_setCl _ c _), ?_, fun j => ?_⟩
    · rw [hcl]; simp [h]
    · rw [hcl]; simp only [tabGet_tabPut, State.transReread, List.mem_singleton, eq_comm (a := i)]
      split <;> simp_all

/-- A reread of other entries leaves what decides about an entry. -/
theorem Reread.refused_reread {c : Nat} {l : List Nat} {s t : State} (h : Reread c l s t) :
    t.transRefused c = s.transRefused c ∧ t.transReread c = s.transReread c := by
  obtain ⟨hsame, hcl, -⟩ := h
  have hbase : (t.cl c).transBase = (s.cl c).transBase := by rw [hcl]
  have hword : t.transWord c = s.transWord c := funext fun i => by rw [State.transWord, State.transWord, hbase, hsame.bytes_eq]
  have hrefused : t.transRefused c = s.transRefused c := funext fun i => by
    rw [State.transRefused, State.transRefused, hbase, hword, hsame.poisoned_eq, hsame.hbmTop_eq]
  exact ⟨hrefused, funext fun i => by rw [State.transReread, State.transReread, hrefused, hword]⟩

/-- The entries of a list are reread one after the other. -/
theorem State.foldl_rereadEntry_spec (c : Nat) (l : List Nat) (s : State) : Reread c l s (l.foldl (fun s i => s.rereadEntry c i) s) := by
  induction l generalizing s with
  | nil => exact ⟨sameBeside_refl c s, by simp, fun j => by simp⟩
  | cons i l ih =>
    have hone := s.rereadEntry_spec c i
    obtain ⟨hrefused, hreread⟩ := hone.refused_reread
    obtain ⟨hsame, hcl, htrans⟩ := hone
    obtain ⟨hsame', hcl', htrans'⟩ := ih (s.rereadEntry c i)
    rw [List.foldl_cons]
    refine ⟨hsame.trans hsame', ?_, fun j => ?_⟩
    · rw [hcl', hrefused, hcl]
      simp [Bool.or_assoc]
    · rw [htrans', htrans, hreread]
      by_cases hj : j = i
      · simp [hj]
      · simp [hj]

/-- TRANSLATION_REREAD_COMPLETE of a reread that waits for no step start: entries 1 to 63 are reread and the request is gone. -/
theorem execTranslationRereadComplete_spec {s : State} {c : BitVec 8} (hasked : (s.cl c.toNat).transInv = true)
    (hnostep : (s.cl c.toNat).stepStart = false) : ∃ u, Reread c.toNat ((List.range 63).map (· + 1)) s u ∧
      execTranslationRereadComplete c s = .next (u.setCl c.toNat { u.cl c.toNat with transInv := false }) := by
  refine ⟨_, State.foldl_rereadEntry_spec _ _ s, ?_⟩
  simp only [execTranslationRereadComplete, hasked, hnostep, List.foldl_map]
  rfl

/-! ### One rescale table (R238 to R240, R253 to R255) -/

/-- The table that the record at an offset of local store fills, where the record is sound. -/
def State.rtRecord (s : State) (c off : Nat) : Option Rt :=
  (rtHeader (s.lsBytes c off 32)).bind fun ch => if off + 32 + 8 * ch ≤ 0x200000 then some (s.rtAt c off ch) else none

/-- The header of a rescale record has a CHANNELS in range and zeroes after it (R238, R240). -/
def HeaderSound (hdr : List Byte) : Prop :=
  1 ≤ leAt hdr 0 2 ∧ leAt hdr 0 2 ≤ 4096 ∧ (slice hdr 2 30).all (· == 0#8) = true

/-- The record at an offset of local store has a sound header and ends within local store. -/
def State.RtSound (s : State) (c off : Nat) : Prop :=
  HeaderSound (s.lsBytes c off 32) ∧ off + 32 + 8 * leAt (s.lsBytes c off 32) 0 2 ≤ 0x200000

theorem rtHeader_of_sound {hdr : List Byte} (h : HeaderSound hdr) : rtHeader hdr = some (leAt hdr 0 2) := by
  obtain ⟨hlow, hhigh, hzero⟩ := h
  rw [rtHeader, decide_eq_true ⟨hlow, hhigh⟩, hzero]
  rfl

theorem rtHeader_of_not_sound {hdr : List Byte} (h : ¬HeaderSound hdr) : rtHeader hdr = none :=
  if_neg fun hsound => h (by simpa only [HeaderSound, Bool.and_eq_true, decide_eq_true_eq, and_assoc] using hsound)

theorem State.rtRecord_of_sound {s : State} {c off : Nat} (h : s.RtSound c off) :
    s.rtRecord c off = some (s.rtAt c off (leAt (s.lsBytes c off 32) 0 2)) := by
  obtain ⟨hhdr, hfits⟩ := h
  rw [State.rtRecord, rtHeader_of_sound hhdr, Option.bind_some, if_pos hfits]

theorem State.rtRecord_of_not_sound {s : State} {c off : Nat} (h : ¬s.RtSound c off) : s.rtRecord c off = none := by
  by_cases hhdr : HeaderSound (s.lsBytes c off 32)
  · rw [State.rtRecord, rtHeader_of_sound hhdr, Option.bind_some, if_neg fun hfits => h ⟨hhdr, hfits⟩]
  · rw [State.rtRecord, rtHeader_of_not_sound hhdr, Option.bind_none]

theorem SameBeside.rtRecord_eq {c : Nat} {s t : State} (h : SameBeside c s t) (off : Nat) : t.rtRecord c off = s.rtRecord c off := by
  simp only [State.rtRecord, State.lsBytes, State.rtAt, h.bytes_eq, h.poisoned_eq]

/-- Bit `m` of the mask of table `n`. -/
theorem getLsbD_tableBit (n m : Nat) : (BitVec.ofNat 4 (2 ^ n)).getLsbD m = (decide (m < 4) && decide (n = m)) := by
  rw [BitVec.getLsbD_ofNat, Nat.testBit_two_pow]

/-- A sound record fills its table. -/
theorem State.reloadRt_of_record {s : State} {c n : Nat} {x : Rt} (h : s.rtRecord c (tabGet {} (s.cl c).rts n).addr = some x) :
    s.reloadRt c n = s.setCl c { s.cl c with rts := tabSet (s.cl c).rts n x } := by
  obtain ⟨ch, hhdr, hfits⟩ := Option.bind_eq_some_iff.1 h
  split at hfits
  · next hle =>
    obtain rfl := Option.some.inj hfits
    simp only [State.reloadRt, hhdr, if_pos hle]
    rfl
  · cases hfits

/-- A record that is not sound leaves the tables and sets RT_STALE; it may be logged. -/
theorem State.reloadRt_of_none {s : State} {c n : Nat} (h : s.rtRecord c (tabGet {} (s.cl c).rts n).addr = none) :
    OnlyTraces (s.setCl c { s.cl c with rtStale := (s.cl c).rtStale ||| BitVec.ofNat 4 (2 ^ n), rtLogged := true }) (s.reloadRt c n) := by
  have hstale : s.reloadRt c n = State.reloadRt.stale s c n := by
    unfold State.rtRecord at h
    unfold State.reloadRt
    dsimp only
    cases hhdr : rtHeader (s.lsBytes c (tabGet {} (s.cl c).rts n).addr 32) with
    | none => rfl
    | some ch =>
      rw [hhdr, Option.bind_some] at h
      split at h
      · cases h
      · next hle => exact if_neg hle
  rw [hstale, State.reloadRt.stale]
  dsimp only
  split
  · rfl
  · exact State.err_onlyTraces _ _ _ _

/-- Table `n` is to be reloaded: RT_INV names it and it holds a record. -/
def Cluster.reloads (k : Cluster) (n : Nat) : Bool := k.rtInv.getLsbD n && k.rtLoaded n

/-- What the record of table `n`, read again, leaves in it. -/
def State.rtReread (s : State) (c n : Nat) : Rt := (s.rtRecord c (tabGet {} (s.cl c).rts n).addr).getD (tabGet {} (s.cl c).rts n)

/-- The record of table `n` is not sound. -/
def State.rtRefused (s : State) (c n : Nat) : Bool := (s.rtRecord c (tabGet {} (s.cl c).rts n).addr).isNone

/-- A reload of one table changes it, or its RT_STALE. -/
theorem State.reloadRt_spec (s : State) (c n : Nat) : SameBeside c s (s.reloadRt c n) ∧ ∃ rts stale logged,
    (s.reloadRt c n).cl c = { s.cl c with rts := rts, rtStale := stale, rtLogged := logged } ∧
    ∀ m, tabGet {} rts m = (if m = n then s.rtReread c n else tabGet {} (s.cl c).rts m) ∧
      stale.getLsbD m = ((s.cl c).rtStale.getLsbD m || decide (m < 4) && decide (n = m) && s.rtRefused c n) := by
  cases h : s.rtRecord c (tabGet {} (s.cl c).rts n).addr with
  | some x =>
    rw [State.reloadRt_of_record h]
    refine ⟨sameBeside_setCl s c _, _, _, _, State.cl_setCl_self s c _, fun m => ⟨?_, ?_⟩⟩
    · simp only [State.rtReread, h, tabGet_tabSet, eq_comm (a := n), Option.getD_some]
    · simp [State.rtRefused, h]
  | none =>
    have htraces := State.reloadRt_of_none h
    refine ⟨(sameBeside_setCl s c _).trans (htraces.sameBeside c), _, _, _, (htraces.cl_eq c).trans (State.cl_setCl_self s c _),
      fun m => ⟨?_, ?_⟩⟩
    · simp only [State.rtReread, h, Option.getD_none]
      split <;> simp_all
    · rw [BitVec.getLsbD_or, getLsbD_tableBit]
      simp [State.rtRefused, h]

/-- The tables of `l` that are to be reloaded are: RT_INV no longer names a table of `l`, and an unsound record sets its RT_STALE. -/
def Reloaded (c : Nat) (l : List Nat) (s t : State) : Prop :=
  SameBeside c s t ∧
    t.cl c = { s.cl c with
      rts := (t.cl c).rts, rtInv := (t.cl c).rtInv, rtStale := (t.cl c).rtStale, rtLogged := (t.cl c).rtLogged } ∧
    ∀ m, (t.cl c).rtInv.getLsbD m = ((s.cl c).rtInv.getLsbD m && !decide (m ∈ l)) ∧
      tabGet {} (t.cl c).rts m = (if m ∈ l ∧ (s.cl c).reloads m = true then s.rtReread c m else tabGet {} (s.cl c).rts m) ∧
      (t.cl c).rtStale.getLsbD m = ((s.cl c).rtStale.getLsbD m || decide (m ∈ l) && (s.cl c).reloads m && s.rtRefused c m)

/-- One table's part of the reload. -/
def State.reloadTable (c : Nat) (s : State) (n : Nat) : State :=
  if !(s.cl c).rtInv.getLsbD n || ((s.cl c).pours.any fun p => decide (p.seq < tabGet 0 (s.cl c).rtInvAt n)) then s
  else (if (s.cl c).rtLoaded n then s.reloadRt c n else s).modCl c fun k => { k with rtInv := k.rtInv &&& ~~~(BitVec.ofNat 4 (2 ^ n)) }

theorem State.tryReload_eq_foldl (s : State) (c : Nat) : s.tryReload c = (List.range 4).foldl (State.reloadTable c) s := rfl

/-- A mask without table `n`. -/
theorem getLsbD_clearTable (x : BitVec 4) (n m : Nat) :
    (x &&& ~~~(BitVec.ofNat 4 (2 ^ n))).getLsbD m = (x.getLsbD m && !decide (m ∈ [n])) := by
  rw [BitVec.getLsbD_and, BitVec.getLsbD_not, getLsbD_tableBit]
  by_cases hm : m < 4
  · simp [hm, eq_comm (a := n)]
  · simp [BitVec.getLsbD_of_ge x m (Nat.le_of_not_lt hm)]

/-- With no Pour outstanding, one table's part of the reload is done. -/
theorem State.reloadTable_spec {s : State} {c : Nat} (hpours : (s.cl c).pours = []) (n : Nat) : Reloaded c [n] s (s.reloadTable c n) := by
  have hwait : ((s.cl c).pours.any fun p => decide (p.seq < tabGet 0 (s.cl c).rtInvAt n)) = false := by rw [hpours]; rfl
  cases hnamed : (s.cl c).rtInv.getLsbD n with
  | false =>
    have hself : State.reloadTable c s n = s := if_pos (by simp [hnamed])
    have hnot : (s.cl c).reloads n = false := by simp [Cluster.reloads, hnamed]
    rw [hself]
    refine ⟨sameBeside_refl c s, rfl, fun m => ⟨?_, ?_, ?_⟩⟩ <;> by_cases hm : m = n <;> simp [hm, hnamed, hnot]
  | true =>
    have hn : n < 4 := BitVec.lt_of_getLsbD hnamed
    cases hloaded : (s.cl c).rtLoaded n with
    | false =>
      have hself : State.reloadTable c s n = s.modCl c fun k => { k with rtInv := k.rtInv &&& ~~~(BitVec.ofNat 4 (2 ^ n)) } := by
        simp [State.reloadTable, hwait, hnamed, hloaded]
      have hnot : (s.cl c).reloads n = false := by simp [Cluster.reloads, hloaded]
      rw [hself, State.modCl]
      refine ⟨sameBeside_setCl s c _, by rw [State.cl_setCl_self], fun m => ?_⟩
      rw [State.cl_setCl_self]
      refine ⟨getLsbD_clearTable _ n m, ?_, ?_⟩ <;> by_cases hm : m = n <;> simp [hm, hnot]
    | true =>
      have hself : State.reloadTable c s n =
          (s.reloadRt c n).modCl c fun k => { k with rtInv := k.rtInv &&& ~~~(BitVec.ofNat 4 (2 ^ n)) } := by
        simp [State.reloadTable, hwait, hnamed, hloaded]
      have hyes : (s.cl c).reloads n = true := by simp [Cluster.reloads, hnamed, hloaded]
      obtain ⟨hsame, rts, stale, logged, hcl, htables⟩ := s.reloadRt_spec c n
      rw [hself, State.modCl]
      refine ⟨hsame.trans (sameBeside_setCl _ c _), by rw [State.cl_setCl_self, hcl], fun m => ?_⟩
      obtain ⟨hrt, hstale⟩ := htables m
      rw [State.cl_setCl_self, hcl]
      refine ⟨getLsbD_clearTable _ n m, ?_, ?_⟩
      · rw [hrt]; by_cases hm : m = n <;> simp [hm, hyes]
      · rw [hstale]; by_cases hm : m = n <;> simp [hm, hyes, hn, eq_comm (a := n)]

/-- The tables of a list are reloaded one after the other. -/
theorem State.foldl_reloadTable_spec {c : Nat} (l : List Nat) {s : State} (hpours : (s.cl c).pours = []) :
    Reloaded c l s (l.foldl (State.reloadTable c) s) := by
  induction l generalizing s with
  | nil => exact ⟨sameBeside_refl c s, rfl, fun m => by simp⟩
  | cons n l ih =>
    obtain ⟨hsame, hcl, hone⟩ := State.reloadTable_spec hpours n
    rw [List.foldl_cons]
    generalize State.reloadTable c s n = t at *
    have htpours : (t.cl c).pours = [] := by rw [hcl]; exact hpours
    obtain ⟨hsame', hcl', hrest⟩ := ih htpours
    generalize l.foldl (State.reloadTable c) t = u at *
    refine ⟨hsame.trans hsame', by rw [hcl', hcl], fun m => ?_⟩
    obtain ⟨hinv, hrt, hstale⟩ := hone m
    obtain ⟨hinv', hrt', hstale'⟩ := hrest m
    rw [hinv', hrt', hstale', hinv, hstale]
    by_cases hm : m = n
    · have hdone : (t.cl c).reloads m = false := by rw [Cluster.reloads, hinv]; simp [hm]
      simp only [hdone, hrt]
      simp [hm]
    · have hkept : tabGet {} (t.cl c).rts m = tabGet {} (s.cl c).rts m := by rw [hrt, if_neg]; simp [hm]
      have hreloads : (t.cl c).reloads m = (s.cl c).reloads m := by
        simp only [Cluster.reloads, Cluster.rtLoaded, hinv, hkept]; simp [hm]
      simp only [hreloads, State.rtReread, State.rtRefused, hkept, hsame.rtRecord_eq]
      simp [hm]

/-! ### The requests (R252, R254, R306) -/

/-- A mask after the bits of a list of tables were set. -/
theorem getLsbD_foldl_tableBit (l : List Nat) (x : BitVec 4) {n : Nat} (hn : n < 4) :
    (l.foldl (fun m n => m ||| BitVec.ofNat 4 (2 ^ n)) x).getLsbD n = (x.getLsbD n || decide (n ∈ l)) := by
  induction l generalizing x with
  | nil => simp
  | cons j l ih =>
    rw [List.foldl_cons, ih, BitVec.getLsbD_or, getLsbD_tableBit]
    simp [hn, eq_comm (a := j), Bool.or_assoc]

/-- A table after one value was put at the keys of a list. -/
theorem tabGet_foldl_tabSet {α : Type} (d : α) (l : List Nat) (t : Tab α) (v : α) (n : Nat) :
    tabGet d (l.foldl (fun t n => tabSet t n v) t) n = if n ∈ l then v else tabGet d t n := by
  induction l generalizing t with
  | nil => simp
  | cons j l ih =>
    rw [List.foldl_cons, ih, tabGet_tabSet]
    by_cases hn : n = j
    · simp [hn]
    · simp [hn, Ne.symm hn]

/-- RT_INV on a cluster that has no reload to do: the loaded tables of the mask are named, at this place of the issue order. -/
theorem Cluster.askReload_spec {k : Cluster} (h : k.rtInv = 0#4) (mask : BitVec 4) {n : Nat} (hn : n < 4) :
    (k.askReload mask).rtInv.getLsbD n = (mask.getLsbD n && k.rtLoaded n) ∧
      ((k.askReload mask).rtInv.getLsbD n = true → tabGet 0 (k.askReload mask).rtInvAt n = k.issued) := by
  have hnamed : (k.askReload mask).rtInv.getLsbD n = (mask.getLsbD n && k.rtLoaded n) := by
    rw [Cluster.askReload]
    dsimp only
    rw [getLsbD_foldl_tableBit _ _ hn]
    simp [h, hn]
  refine ⟨hnamed, fun hset => ?_⟩
  rw [hnamed] at hset
  rw [Cluster.askReload]
  dsimp only
  rw [tabGet_foldl_tabSet, if_pos]
  simpa [h, hn] using hset

/-- A Pour issued before every reload that is asked for holds them all up. -/
theorem State.tryReload_of_pour {s : State} {c : Nat} {p : PourRun} (hp : p ∈ (s.cl c).pours)
    (hbefore : ∀ n, n < 4 → (s.cl c).rtInv.getLsbD n = true → p.seq < tabGet 0 (s.cl c).rtInvAt n) : s.tryReload c = s := by
  rw [State.tryReload_eq_foldl]
  refine List.foldlRecOn (motive := fun t => t = s) _ _ rfl fun t ht n hn => ?_
  rw [ht]
  refine if_pos ?_
  cases hnamed : (s.cl c).rtInv.getLsbD n with
  | false => rfl
  | true => exact List.any_eq_true.2 ⟨p, hp, decide_eq_true (hbefore n (List.mem_range.1 hn) hnamed)⟩

/-- RT_INV on an open cluster names its tables, then reloads what need not wait. -/
theorem execRtInv_of_open {s : State} {c : BitVec 8} (h : s.open_ c.toNat = true) (mask : BitVec 4) :
    execRtInv c mask s = .next ((s.setCl c.toNat ((s.cl c.toNat).askReload mask)).tryReload c.toNat) := by
  rw [execRtInv, if_pos h]
  rfl

/-- RT_INV behind a Pour: the tables are named and wait. -/
theorem execRtInv_behind_pour {s : State} {c : BitVec 8} {p : PourRun} (h : s.open_ c.toNat = true) (hinv : (s.cl c.toNat).rtInv = 0#4)
    (hp : p ∈ (s.cl c.toNat).pours) (hseq : p.seq < (s.cl c.toNat).issued) (mask : BitVec 4) :
    execRtInv c mask s = .next (s.setCl c.toNat ((s.cl c.toNat).askReload mask)) := by
  rw [execRtInv_of_open h, State.tryReload_of_pour (p := p)]
  · rw [State.cl_setCl_self]; exact hp
  · rw [State.cl_setCl_self]
    intro n hn hnamed
    rw [(Cluster.askReload_spec hinv mask hn).2 hnamed]
    exact hseq

/-- RT_INV with no Pour outstanding: the loaded tables of the mask are reloaded at once, and no reload is left to do. -/
theorem execRtInv_reloads {s : State} {c : BitVec 8} (h : s.open_ c.toNat = true) (hinv : (s.cl c.toNat).rtInv = 0#4)
    (hpours : (s.cl c.toNat).pours = []) (mask : BitVec 4) : ∃ t, execRtInv c mask s = .next t ∧ SameBeside c.toNat s t ∧
      t.cl c.toNat = { s.cl c.toNat with
        rts := (t.cl c.toNat).rts, rtInvAt := (t.cl c.toNat).rtInvAt, rtStale := (t.cl c.toNat).rtStale,
        rtLogged := (t.cl c.toNat).rtLogged } ∧
      ∀ n, n < 4 → let named := mask.getLsbD n && (s.cl c.toNat).rtLoaded n
        tabGet {} (t.cl c.toNat).rts n = (if named then s.rtReread c.toNat n else tabGet {} (s.cl c.toNat).rts n) ∧
        (named = true → s.rtRefused c.toNat n = true → (t.cl c.toNat).rtStale.getLsbD n = true) := by
  have hasked : ((s.setCl c.toNat ((s.cl c.toNat).askReload mask)).cl c.toNat).pours = [] := by rw [State.cl_setCl_self]; exact hpours
  obtain ⟨hsame, hcl, htables⟩ := State.foldl_reloadTable_spec (List.range 4) hasked
  rw [State.cl_setCl_self] at hcl htables
  rw [execRtInv_of_open h, State.tryReload_eq_foldl]
  refine ⟨_, rfl, (sameBeside_setCl s _ _).trans hsame, ?_, fun n hn => ?_⟩
  · have hnone : (((List.range 4).foldl (State.reloadTable c.toNat) (s.setCl c.toNat ((s.cl c.toNat).askReload mask))).cl c.toNat).rtInv =
        (s.cl c.toNat).rtInv := by
      rw [hinv]
      refine BitVec.eq_of_getLsbD_eq fun m hm => ?_
      rw [(htables m).1]
      simp [hm]
    rw [hcl, hnone]
    rfl
  · intro named
    have hreloads : ((s.cl c.toNat).askReload mask).reloads n = named := by
      rw [Cluster.reloads, (Cluster.askReload_spec hinv mask hn).1, Bool.and_assoc]
      exact congrArg _ (Bool.and_self _)
    have hrecord : (s.setCl c.toNat ((s.cl c.toNat).askReload mask)).rtReread c.toNat n = s.rtReread c.toNat n ∧
        (s.setCl c.toNat ((s.cl c.toNat).askReload mask)).rtRefused c.toNat n = s.rtRefused c.toNat n := by
      simp only [State.rtReread, State.rtRefused, State.cl_setCl_self, (sameBeside_setCl s c.toNat _).rtRecord_eq]
      exact ⟨rfl, rfl⟩
    obtain ⟨hreread, hrefused⟩ := hrecord
    obtain ⟨-, hrt, hstale⟩ := htables n
    rw [hreloads, hreread] at hrt
    rw [hreloads, hrefused] at hstale
    refine ⟨hrt.trans (ite_congr (by simp [hn]) (fun _ => rfl) fun _ => rfl), fun hnamed hbad => ?_⟩
    rw [hstale, hnamed, hbad]
    simp [hn]

/-- Every slot after GRID_INV: one that packs G4 must reread its grid. -/
theorem Cluster.slot_askGrids (k : Cluster) (q : Nat) :
    k.askGrids.slot q = if (k.slot q).packsG4 then { k.slot q with gridStale := true } else k.slot q := by
  have hmap (l : Tab Slot) : tabGet {} (l.map fun p => (p.1, if p.2.packsG4 then { p.2 with gridStale := true } else p.2)) q =
      if (tabGet {} l q).packsG4 then { tabGet {} l q with gridStale := true } else tabGet {} l q := by
    induction l with
    | nil => rfl
    | cons e l ih =>
      rw [List.map_cons, tabGet, tabGet, ih]
      by_cases hq : e.1 = q <;> simp [hq]
  exact hmap k.slots

/-- A request to a cluster that is not open does nothing. -/
theorem requests_of_not_open {s : State} {c : BitVec 8} (h : s.open_ c.toNat = false) (mask : BitVec 4) :
    execTransInv c s = .next s ∧ execRtInv c mask s = .next s ∧ execGridInv c s = .next s := by
  simp [execTransInv, execRtInv, execGridInv, h]

end Sys2Proof.Machine
end

section
/-!
PROOF. Rereads of tables and translations: O18.
-/
open Sys2Proof Sys2Proof.Machine Sys2Proof.Claims

/-- Settles O18: each request by what it leaves in its cluster; the rereads by inductions over the entries and over the tables. -/
theorem tablesAndTranslationsAreReread : Obligations.TablesAndTranslationsAreReread := by
  unfold Obligations.TablesAndTranslationsAreReread
  intro s c k open_
  have hopen : s.open_ c.toNat = true ↔ open_ := s.open_iff c.toNat
  refine ⟨?transInv, ?closed, ?reread, ?rtInv, ?gridInv⟩
  case transInv =>
    intro h
    have hexec : exec (.transInv c) s = .next (s.setCl c.toNat { k with transInv := true }) := congrArg _ (if_pos (hopen.2 h))
    exact ⟨_, hexec, onlyCluster_setCl s _ _, State.cl_setCl_self s _ _⟩
  case closed =>
    intro h mask
    exact requests_of_not_open (Bool.eq_false_iff.2 (mt hopen.1 h)) mask
  case reread =>
    intro at_ word bad hasked hnostep
    have hbad (i : Nat) : s.transRefused c.toNat i = true ↔ bad i := s.transRefused_iff c.toNat i
    obtain ⟨u, ⟨⟨hmem, -, -, hd⟩, hcl, htrans⟩, hexec⟩ := execTranslationRereadComplete_spec hasked hnostep
    refine ⟨_, hexec, fun d hne => ?_, hmem, ?_⟩
    · rw [State.cl_setCl, if_neg hne, hd d hne]
    · rw [State.cl_setCl_self]
      have hentry (i : Nat) : i ∈ (List.range 63).map (· + 1) ↔ 1 ≤ i ∧ i ≤ 63 := by
        simp only [List.mem_map, List.mem_range]
        exact ⟨by rintro ⟨j, hj, rfl⟩; omega, fun hi => ⟨i - 1, by omega, by omega⟩⟩
      refine ⟨by rw [hcl], ?flag, fun i hlow hhigh => ?entry⟩
      case flag =>
        have hflag := congrArg Cluster.transBad hcl
        simp only [hflag, Bool.or_eq_true, List.any_eq_true, hentry, hbad, and_assoc]
        rfl
      case entry =>
        have hword := htrans i
        rw [if_pos ((hentry i).2 ⟨hlow, hhigh⟩), State.transReread] at hword
        exact ⟨fun h => hword.trans (if_pos ((hbad i).2 h)), fun h => hword.trans (if_neg (mt (hbad i).1 h))⟩
  case rtInv =>
    intro h hinv mask
    refine ⟨fun p hp hseq => ?behind, fun h0 h1 => ?reload⟩
    case behind =>
      have hmem : p ∈ k.pours := by simp [Cluster.pours, hp]
      refine ⟨_, execRtInv_behind_pour (hopen.2 h) hinv hmem hseq mask, onlyCluster_setCl s _ _, ?_, fun n hn => ?_⟩
      · rw [State.cl_setCl_self]; rfl
      · rw [State.cl_setCl_self]
        exact (Cluster.askReload_spec hinv mask hn).1
    case reload =>
      have hpours : k.pours = [] := by rw [Cluster.pours, h0, h1]; rfl
      obtain ⟨t, hexec, ⟨hmem, -, -, hd⟩, hcl, htables⟩ := execRtInv_reloads (hopen.2 h) hinv hpours mask
      refine ⟨t, hexec, hmem, hd, hcl, fun n hn => ?_⟩
      intro old new ch sound
      have hsound : s.RtSound c.toNat old.addr ↔ sound := by simp only [State.RtSound, HeaderSound, and_assoc]; rfl
      obtain ⟨hrt, hstale⟩ := htables n hn
      refine ⟨fun hnot => ?unnamed, fun hmask hloaded hbad => ?unsound, fun hmask hloaded hgood => ?filled⟩
      case unnamed =>
        refine hrt.trans (if_neg fun hnamed => ?_)
        obtain ⟨hmask, hloaded⟩ := Bool.and_eq_true_iff.1 hnamed
        rcases hnot with hm | hl
        · exact Bool.false_ne_true (hm.symm.trans hmask)
        · exact Bool.false_ne_true (hl.symm.trans hloaded)
      case unsound =>
        have hnamed := Bool.and_eq_true_iff.2 ⟨hmask, hloaded⟩
        have hnone : s.rtRecord c.toNat old.addr = none := State.rtRecord_of_not_sound (mt hsound.1 hbad)
        exact ⟨(hrt.trans (if_pos hnamed)).trans (congrArg (·.getD old) hnone), hstale hnamed (congrArg (·.isNone) hnone)⟩
      case filled =>
        have hnew : new = s.rtAt c.toNat old.addr ch := (hrt.trans (if_pos (Bool.and_eq_true_iff.2 ⟨hmask, hloaded⟩))).trans
          (congrArg (·.getD old) (State.rtRecord_of_sound (hsound.2 hgood)))
        rw [hnew]
        exact ⟨rfl, rfl, fun i hi => tabGet_tabOf _ _ hi⟩
  case gridInv =>
    intro h
    have hexec : exec (.gridInv c) s = .next (s.setCl c.toNat k.askGrids) := congrArg _ (if_pos (hopen.2 h))
    refine ⟨_, hexec, onlyCluster_setCl s _ _, ?_, fun q => ?_⟩
    · rw [State.cl_setCl_self]; rfl
    · rw [State.cl_setCl_self, Cluster.slot_askGrids]
end

section
/-!
PROOF. Payloads and the twin's side (R421, R426 to R431, R433, R436, R783): the range that a payload spells, what a store and an exclusive
or leave, and what each record does to the binding that it reaches.
-/
namespace Sys2Proof.Machine

/-! ### The range of a payload (R421) -/

theorem length_slice (l : List Byte) (off n : Nat) : (slice l off n).length = n := by
  simp only [slice, List.length_append, List.length_take, List.length_drop, List.length_replicate]
  omega

/-- Every flag of a map stands for one sector. -/
theorem length_fillSectors (fs : List Bool) (bs : List Byte) : (fillSectors fs bs).length = 32 * fs.length := by
  induction fs generalizing bs with
  | nil => rfl
  | cons f fs ih => cases f <;> simp only [fillSectors, List.length_append, List.length_cons, List.length_replicate, length_slice, ih] <;> omega

/-- A payload spells as many bytes as whole sectors cover. -/
theorem length_decodeSectors {n : Nat} (h : n % 32 = 0) (payload : List Byte) : (decodeSectors n payload).length = n := by
  rw [decodeSectors, length_fillSectors, List.length_map, List.length_range]
  omega

theorem State.length_bytes (s : State) (a n : Nat) : (s.bytes a n).length = n := by simp [State.bytes]

theorem length_xorBytes (x y : List Byte) : (xorBytes x y).length = min x.length y.length := List.length_zipWith

/-- A byte of memory XORed with bytes of its range. -/
theorem State.getD_xorBytes_bytes (s : State) (a : Nat) {n i : Nat} {d : List Byte} (hd : d.length = n) (hi : i < n) :
    (xorBytes (s.bytes a n) d).getD i 0#8 = s.byte (a + i) ^^^ d.getD i 0#8 := by
  subst hd
  simp [xorBytes, State.bytes, List.getD_eq_getElem?_getD, hi]

/-! ### Writes of the backup (R426, R436) -/

/-- A byte read after a store. -/
theorem State.byte_store (s : State) (a : Nat) (bs : List Byte) (p : Bool) (cls x : Nat) :
    (s.store a bs p cls).byte x = if a ≤ x ∧ x < a + bs.length then bs.getD (x - a) 0#8 else s.byte x := by
  rw [s.store_frame a bs p cls]
  exact getByte_putBytes s.mem a x bs

/-- A store changes memory, its poison and the memory system alone. -/
theorem State.store_changes (s : State) (a : Nat) (bs : List Byte) (p : Bool) (cls : Nat) : s.store a bs p cls =
    { s with mem := (s.store a bs p cls).mem, poison := (s.store a bs p cls).poison, memsys := (s.store a bs p cls).memsys } := by
  rw [s.store_frame a bs p cls]

/-- What a record's difference makes of its range of the backup. -/
def State.xoredRange (s : State) (b : Binding) (r : Record) : List Byte :=
  xorBytes (s.bytes (b.base + r.boff) r.length) (decodeSectors r.length r.payload)

theorem State.length_xoredRange (s : State) (b : Binding) {r : Record} (h : r.length % 32 = 0) : (s.xoredRange b r).length = r.length := by
  rw [State.xoredRange, length_xorBytes, s.length_bytes, length_decodeSectors h, Nat.min_self]

/-- XORing a record into the backup changes memory, its poison and the memory system alone. -/
theorem State.xorBackup_frame (s : State) (b : Binding) (r : Record) : s.xorBackup b r =
    { s with mem := (s.xorBackup b r).mem, poison := (s.xorBackup b r).poison, memsys := (s.xorBackup b r).memsys } :=
  s.store_changes _ _ _ _

/-- A byte read after a record was XORed into the backup. -/
theorem State.byte_xorBackup (s : State) (b : Binding) {r : Record} (h : r.length % 32 = 0) (x : Nat) : (s.xorBackup b r).byte x =
    if b.base + r.boff ≤ x ∧ x < b.base + r.boff + r.length then (s.xoredRange b r).getD (x - (b.base + r.boff)) 0#8 else s.byte x := by
  refine (s.byte_store _ (s.xoredRange b r) _ _ x).trans ?_
  rw [s.length_xoredRange b h]

/-! ### The binding -/

section
variable {s : State} {b : Binding} {r : Record} (hbind : s.ss.binding = some b)
include hbind

theorem State.boundTo_of_type (hsource : b.source = r.origin) {type : Nat} (htype : r.type = type) : s.boundTo type r = some b := by
  simp [State.boundTo, hbind, hsource, htype]

theorem State.modBinding_of_some (f : Binding → Binding) :
    s.modBinding f = { s with ss := { s.ss with binding := some (f b) } } := by
  rw [State.modBinding, hbind, Option.map_some]

/-- Nothing is answered while no END waits. -/
theorem State.tryStepAck_of_not_waiting (hwait : b.endWait = none) : s.tryStepAck = s := by
  simp only [State.tryStepAck, hbind, hwait]

/-- END is answered once every record that it counts is applied (R427). -/
theorem State.tryStepAck_of_applied {e : Record} (hwait : b.endWait = some e) (h : ∀ i, i < e.length → e.offset + i ∈ b.applied) :
    s.tryStepAck = { s with ss := { s.ss with
      binding := some { b with endWait := none, applied := b.applied.filter fun q => decide (e.offset + e.length ≤ q) }
      msgs := s.ss.msgs ++ [(b.source, { type := recAck, step := e.step, origin := s.me })] } } := by
  have hall : ((List.range e.length).all fun i => b.applied.contains (e.offset + i)) = true := by simpa using h
  simp only [State.tryStepAck, hbind, hwait, hall, if_true, State.modBinding_of_some hbind]
  rfl

/-- END waits while a record that it counts is not applied (R427). -/
theorem State.tryStepAck_of_missing {e : Record} (hwait : b.endWait = some e) (h : ∃ i, i < e.length ∧ e.offset + i ∉ b.applied) :
    s.tryStepAck = s := by
  have hall : ((List.range e.length).all fun i => b.applied.contains (e.offset + i)) = false := by simpa using h
  simp only [State.tryStepAck, hbind, hwait, hall, Bool.false_eq_true, if_false]

/-- An applied record is logged (R431); without an END that waits that is all. -/
theorem State.logRecord_of_not_waiting (hwait : b.endWait = none) : s.logRecord r =
    { s with ss := { s.ss with binding := some { b with log := b.log ++ [r], applied := r.seq :: b.applied } } } := by
  rw [State.logRecord, State.modBinding_of_some hbind]
  exact State.tryStepAck_of_not_waiting rfl hwait

/-- The backup returns to a step past the whole log: only an END that waits is dropped (R436). -/
theorem State.revertBackup_of_none {c : Nat} (h : b.log.filter (fun x => decide (c < x.step)) = []) : s.revertBackup c =
    { s with ss := { s.ss with binding := some { b with log := b.log.filter fun x => decide (x.step ≤ c), endWait := none } } } := by
  simp only [State.revertBackup, hbind, h, List.reverse_nil, List.foldl_nil]
  exact State.modBinding_of_some hbind _

/-- The backup returns to a step that one logged record follows: the record is XORed out (R436). -/
theorem State.revertBackup_of_one {c : Nat} {x : Record} (h : b.log.filter (fun x => decide (c < x.step)) = [x]) : s.revertBackup c =
    { s.xorBackup b x with ss := { s.ss with
        binding := some { b with log := b.log.filter fun x => decide (x.step ≤ c), endWait := none } } } := by
  have hss : (s.xorBackup b x).ss = s.ss := by rw [s.xorBackup_frame]
  simp only [State.revertBackup, hbind, h, List.reverse_singleton, List.foldl_cons, List.foldl_nil]
  rw [State.modBinding_of_some (hss ▸ hbind), hss]

end

/-! ### The records of an origin -/

section
variable {s : State} {b : Binding} {r : Record} (hbind : s.ss.binding = some b) (hsource : b.source = r.origin)
include hbind hsource

section
variable (htype : r.type = recDelta) (hcovers : b.covers r = true) (hseq : r.seq ∉ b.applied)
include htype hcovers hseq

/-- A DELTA whose old digest does not agree is refused (R426). -/
theorem execDeltaRecord_of_old_differs
    (hold : rangeDigest r.shard r.region r.offset (s.bytes (b.base + r.boff) r.length) ≠ r.oldDig) : execDeltaRecord r s =
    .next (s.sendRecord b.source { type := recNakOld, step := r.step, seq := r.seq, origin := s.me }) := by
  simp [execDeltaRecord, State.boundTo_of_type hbind hsource htype, hcovers, hseq, hold]

variable (hold : rangeDigest r.shard r.region r.offset (s.bytes (b.base + r.boff) r.length) = r.oldDig)
  (hpoison : s.poisoned (b.base + r.boff) r.length = false)
include hold hpoison

/-- A DELTA whose new digest does not agree is refused (R426). -/
theorem execDeltaRecord_of_new_differs (hnew : rangeDigest r.shard r.region r.offset (s.xoredRange b r) ≠ r.newDig) : execDeltaRecord r s =
    .next (s.sendRecord b.source { type := recNakNew, step := r.step, seq := r.seq, origin := s.me }) := by
  rw [State.xoredRange] at hnew
  simp [execDeltaRecord, State.boundTo_of_type hbind hsource htype, hcovers, hseq, hold, hpoison, hnew]

/-- A DELTA whose digests agree is XORed into the backup and logged (R426). -/
theorem execDeltaRecord_of_agrees (hnew : rangeDigest r.shard r.region r.offset (s.xoredRange b r) = r.newDig) :
    execDeltaRecord r s = .next ((s.xorBackup b r).logRecord r) := by
  rw [State.xoredRange] at hnew
  simp [execDeltaRecord, State.boundTo_of_type hbind hsource htype, hcovers, hseq, hold, hpoison, hnew]

end

/-- A DELTA past the backup loses the twin (R783). -/
theorem execDeltaRecord_of_not_covered (htype : r.type = recDelta) (hcovers : b.covers r = false) :
    execDeltaRecord r s = .next s.twinLost := by
  simp [execDeltaRecord, State.boundTo_of_type hbind hsource htype, hcovers]

/-- A FULL record past the backup loses the twin (R783). -/
theorem execFullRecord_of_not_covered (htype : r.type = recFull) (hcovers : b.covers r = false) :
    execFullRecord r s = .next s.twinLost := by
  simp [execFullRecord, State.boundTo_of_type hbind hsource htype, hcovers]

/-- A FULL record of a resync, its digest agreeing, replaces its range (R441). -/
theorem execFullRecord_of_resync (htype : r.type = recFull) (hcovers : b.covers r = true) (hdiff : r.diff = [])
    (hnew : rangeDigest r.shard r.region r.offset (decodeSectors r.length r.payload) = r.newDig) :
    execFullRecord r s = .next (s.store (b.base + r.boff) (decodeSectors r.length r.payload) false stateCls) := by
  simp [execFullRecord, State.boundTo_of_type hbind hsource htype, hcovers, hdiff, hnew]

theorem execEndRecord_eq (htype : r.type = recEnd) : execEndRecord r s =
    .next (State.tryStepAck { s with ss := { s.ss with binding := some { b with endWait := some r } } }) := by
  simp only [execEndRecord, State.boundTo_of_type hbind hsource htype, Option.isSome_some, if_true, State.modBinding_of_some hbind]

theorem execCommitRecord_eq (htype : r.type = recCommit) : execCommitRecord r s = .next { s with ss := { s.ss with
    binding := some { b with log := b.log.filter (fun x => decide (r.step < x.step)), committed := max b.committed r.step } } } := by
  simp only [execCommitRecord, State.boundTo_of_type hbind hsource htype, Option.isSome_some, if_true, State.modBinding_of_some hbind]

theorem execRollbackRecord_eq (htype : r.type = recRollback) : execRollbackRecord r s =
    .next ((s.revertBackup r.step).sendRecord b.source { type := recAck, step := r.step, origin := s.me }) := by
  simp only [execRollbackRecord, State.boundTo_of_type hbind hsource htype]

end

end Sys2Proof.Machine
end

section
/-!
PROOF. The twin's side of the state stream: O21.
-/
open Sys2Proof Sys2Proof.Machine

/-- Settles O21: each record by what it makes of the binding that it reaches, the backup by the store that the record makes. -/
theorem theTwinAppliesRecords : Obligations.TheTwinAppliesRecords := by
  unfold Obligations.TheTwinAppliesRecords
  intro s b r hbind hsource a old new inRange
  refine ⟨?delta, ?full, ?past, ?endOfStep, ?commit, ?rollback⟩
  case delta =>
    intro htype hrange hseq
    have hcovers : b.covers r = true := decide_eq_true hrange
    refine ⟨fun hold => ?oldDiffers, fun hold hpoison hnew => ?newDiffers, fun hold hpoison hnew hwait hlen => ?applied⟩
    case oldDiffers => exact ⟨_, execDeltaRecord_of_old_differs hbind hsource htype hcovers hseq hold, rfl⟩
    case newDiffers => exact ⟨_, execDeltaRecord_of_new_differs hbind hsource htype hcovers hseq hold hpoison hnew, rfl⟩
    case applied =>
      have hss : (s.xorBackup b r).ss = s.ss := by rw [s.xorBackup_frame]
      have hlog := State.logRecord_of_not_waiting (r := r) (hss ▸ hbind) hwait
      rw [hss] at hlog
      refine ⟨_, (execDeltaRecord_of_agrees hbind hsource htype hcovers hseq hold hpoison hnew).trans (congrArg _ hlog), ?_, fun x => ?_⟩
      · rw [s.xorBackup_frame]
      · have hbyte := s.byte_xorBackup b hlen x
        exact ⟨fun hx => hbyte.trans (if_pos hx), fun hx => hbyte.trans (if_neg hx)⟩
  case full =>
    intro htype hrange hdiff hlen hnew
    refine ⟨_, execFullRecord_of_resync hbind hsource htype (decide_eq_true hrange) hdiff hnew, ?_, fun x => ?_⟩
    · rw [State.store_frame]
    · have hbyte := s.byte_store a (decodeSectors r.length r.payload) false stateCls x
      rw [length_decodeSectors hlen] at hbyte
      exact ⟨fun hx => hbyte.trans (if_pos hx), fun hx => hbyte.trans (if_neg hx)⟩
  case past =>
    intro htype hrange
    have hcovers : b.covers r = false := decide_eq_false (Nat.not_le.2 hrange)
    rcases htype with htype | htype
    · exact ⟨_, (congrArg (exec · s) (if_pos htype)).trans (execDeltaRecord_of_not_covered hbind hsource htype hcovers), rfl⟩
    · have hne : r.type ≠ 1 := by omega
      exact ⟨_, (congrArg (exec · s) (if_neg hne)).trans (execFullRecord_of_not_covered hbind hsource htype hcovers), rfl⟩
  case endOfStep =>
    intro htype
    have hexec := execEndRecord_eq hbind hsource htype
    exact ⟨fun h => ⟨_, hexec.trans (congrArg _ (State.tryStepAck_of_applied (b := { b with endWait := some r }) rfl rfl h)), rfl⟩,
      fun h => hexec.trans (congrArg _ (State.tryStepAck_of_missing (b := { b with endWait := some r }) rfl rfl h))⟩
  case commit => exact execCommitRecord_eq hbind hsource
  case rollback =>
    intro htype x hlater hlen
    have hexec := execRollbackRecord_eq hbind hsource htype
    rw [State.revertBackup_of_one hbind hlater] at hexec
    refine ⟨_, hexec, ?_, fun y => ?_⟩
    · rw [s.xorBackup_frame]; rfl
    · refine (s.byte_xorBackup b hlen y).trans (ite_congr rfl (fun hy => ?_) fun _ => rfl)
      rw [State.xoredRange, s.getD_xorBytes_bytes _ (length_decodeSectors hlen _) (by omega), Nat.add_sub_cancel' hy.1]
end

section
/-!
PROOF. The origin's side of the state stream (R413, R425, R427, R428, R441, R447): what an answer of the twin, its loss, and a restore
from this device's backup leave.
-/
namespace Sys2Proof.Machine

/-! ### Log entries -/

/-- An error record, logged or dropped, changes the log alone. -/
theorem State.err_log (s : State) (source code : Nat) (e : ErrInfo) : s.err source code e = { s with log := (s.err source code e).log } := by
  unfold State.err
  split <;> rfl

/-! ### The twin and its answers (R413, R427) -/

/-- The twin is there: bound or resyncing. -/
theorem State.twinGone_eq_false_iff (s : State) : s.twinGone = false ↔ s.ss.twin ≠ 0 ∧ s.ss.twin ≠ 3 := by simp [State.twinGone]

theorem State.fromTwin_iff (s : State) (type : Nat) (r : Record) :
    s.fromTwin type r = true ↔ r.type = type ∧ r.origin = s.ss.twinDev ∧ s.ss.twin ≠ 0 ∧ s.ss.twin ≠ 3 := by
  rw [State.fromTwin, Bool.and_eq_true, Bool.not_eq_true', s.twinGone_eq_false_iff, decide_eq_true_iff, and_assoc]

/-- An answer that is not the twin's has no effect. -/
theorem execAnswer_of_not_twin {s : State} {r : Record} (h : ¬(r.origin = s.ss.twinDev ∧ s.ss.twin ≠ 0 ∧ s.ss.twin ≠ 3)) :
    execStepAck r s = .next s ∧ execNakNew r s = .next s ∧ execNakOld r s = .next s := by
  have hfrom (type : Nat) : s.fromTwin type r = false := Bool.eq_false_iff.2 fun ht => h ((s.fromTwin_iff type r).1 ht).2
  simp [execStepAck, execNakNew, execNakOld, hfrom]

theorem State.releaseFormed_of_nil {s : State} (h : s.ss.formed = []) : s.releaseFormed = s := by simp only [State.releaseFormed, h]

theorem State.tryBarrier_of_not_barrier {s : State} (h : s.step.phase ≠ 6) : s.tryBarrier = s := by simp [State.tryBarrier, h]

theorem State.tryEnded_of_none {s : State} (h : s.step.endAfter = none) : s.tryEnded = s := by simp only [State.tryEnded, h]

/-- With no barrier and no end to go on to, the acknowledgement of what is outstanding is all that follows (R427). -/
theorem State.ackIdle_tryBarrier_tryEnded {s : State} (hphase : s.step.phase ≠ 6) (hend : s.step.endAfter = none) :
    s.ackIdle.tryBarrier.tryEnded = s.ackIdle := by
  have hstep : s.ackIdle.step = s.step := by
    unfold State.ackIdle
    split <;> rfl
  rw [State.tryBarrier_of_not_barrier (hstep ▸ hphase), State.tryEnded_of_none (hstep ▸ hend)]

/-- With nothing left to send, what was sent alone is outstanding (R427). -/
theorem State.ackIdle_of_unsent_nil {s : State} (hformed : s.ss.formed = []) (hunsent : s.ss.unsent = []) :
    s.ackIdle = { s with ss := { s.ss with acked := if s.ss.sent = [] then max s.ss.acked s.ss.ended else s.ss.acked } } := by
  have hout : s.ss.outstanding = s.ss.sent := by simp [StreamSt.outstanding, hformed, hunsent]
  simp only [State.ackIdle, hout, List.isEmpty_iff]
  split <;> rfl

/-- The state once STEP_ACK has retired the records of its step and of those before (R427). -/
def State.stepAcked (s : State) (r : Record) : State :=
  { s with ss := { s.ss with acked := r.step, sent := s.ss.sent.filter (fun x => decide (r.step < x.step)), nakCount := [] } }

theorem execStepAck_of_twin {s : State} {r : Record} (hfrom : s.fromTwin recAck r = true) :
    execStepAck r s = .next (s.stepAcked r).releaseFormed.ackIdle.tryBarrier.tryEnded := by
  simp only [execStepAck, hfrom, Bool.not_true, Bool.false_eq_true, if_false]
  rfl

/-- With no later records to send, STEP_ACK leaves ACKED_STEP where the records sent end it (R427). -/
theorem execStepAck_eq {s : State} {r : Record} (hfrom : s.fromTwin recAck r = true) (hformed : s.ss.formed = [])
    (hphase : s.step.phase ≠ 6) (hend : s.step.endAfter = none) : execStepAck r s = .next (s.stepAcked r).ackIdle := by
  rw [execStepAck_of_twin hfrom, State.releaseFormed_of_nil (s := s.stepAcked r) hformed,
    State.ackIdle_tryBarrier_tryEnded (s := s.stepAcked r) hphase hend]

/-! ### Refused records (R428) -/

/-- The FULL record that replaces a DELTA keeps its place: its SEQ, its step and its range. -/
theorem State.fullFor_fields (s : State) (d : Record) :
    (s.fullFor d).type = recFull ∧ (s.fullFor d).seq = d.seq ∧ (s.fullFor d).step = d.step ∧ (s.fullFor d).boff = d.boff := by
  unfold State.fullFor
  split <;> exact ⟨rfl, rfl, rfl, rfl⟩

theorem State.resend_of_sent (s : State) {seq : Nat} {d : Record} (h : s.ss.sent.find? (fun x => decide (x.seq = seq)) = some d)
    (f : Record → Record) : s.resend seq f = { s with ss := { s.ss with
      sent := s.ss.sent.filter fun x => decide (x.seq ≠ seq), unsent := f d :: s.ss.unsent } } := by
  simp only [State.resend, h]

/-- The state once a NAK NEW is counted. -/
def State.nakNewCounted (s : State) (r : Record) : State :=
  State.total { s with ss := { s.ss with
    nakNew := satAdd 0xFFFF s.ss.nakNew 1, nakCount := tabSet s.ss.nakCount r.seq (tabGet 0 s.ss.nakCount r.seq + 1) } } 4 1

/-- The state once a NAK OLD is counted. -/
def State.nakOldCounted (s : State) : State := State.total { s with ss := { s.ss with nakOld := satAdd 0xFFFF s.ss.nakOld 1 } } 5 1

theorem execNakNew_eq {s : State} {r : Record} (hfrom : s.fromTwin recNakNew r = true) : execNakNew r s =
    .next ((s.nakNewCounted r).resend r.seq fun d =>
      if 2 ≤ tabGet 0 s.ss.nakCount r.seq + 1 then (s.nakNewCounted r).fullFor d else d) := by
  simp only [execNakNew, hfrom, Bool.not_true, Bool.false_eq_true, if_false]
  rfl

theorem execNakOld_eq {s : State} {r : Record} (hfrom : s.fromTwin recNakOld r = true) :
    execNakOld r s = .next (s.nakOldCounted.resend r.seq s.nakOldCounted.fullFor) := by
  simp only [execNakOld, hfrom, Bool.not_true, Bool.false_eq_true, if_false]
  rfl

/-! ### The twin lost, the copy to the snapshot endpoint stopped (R413, R447) -/

theorem State.foldl_exportRecord_of_off {s : State} (h : s.ss.exportOn = false) (rs : List Record) : rs.foldl State.exportRecord s = s := by
  induction rs with
  | nil => rfl
  | cons r rs ih =>
    have hr : s.exportRecord r = s := by simp [State.exportRecord, h]
    rw [List.foldl_cons, hr, ih]

/-- The latest step of a number and of records. -/
def topStep (m : Nat) (rs : List Record) : Nat := rs.foldl (fun m r => max m r.step) m

/-- The latest step is no earlier than the number and than each record's. -/
theorem le_topStep (rs : List Record) (m : Nat) : m ≤ topStep m rs ∧ ∀ x ∈ rs, x.step ≤ topStep m rs := by
  induction rs generalizing m with
  | nil => exact ⟨Nat.le_refl m, nofun⟩
  | cons r rs ih =>
    obtain ⟨hm, hrs⟩ := ih (max m r.step)
    exact ⟨Nat.le_trans (Nat.le_max_left m r.step) hm, List.forall_mem_cons.2 ⟨Nat.le_trans (Nat.le_max_right m r.step) hm, hrs⟩⟩

/-- Under PAUSE, or with no job, nothing else changes when the twin is lost (R413). -/
theorem State.runTwinless_of_waiting {s : State} (h : s.ss.twinless = 0 ∨ s.jobRuns = false) : s.runTwinless = s := by
  rcases h with h | h <;> simp [State.runTwinless, h]

/-- Under CONTINUE what is outstanding counts as acknowledged (R413). -/
theorem State.runTwinless_of_continuing {s : State} (hpolicy : s.ss.twinless = 1) (hruns : s.jobRuns = true) (hexport : s.ss.exportOn = false)
    (hphase : s.step.phase ≠ 6) (hend : s.step.endAfter = none) :
    s.runTwinless = { s with ss := { s.ss with
      formed := [], unsent := [], sent := [], twinlessRun := true, acked := max (topStep s.ss.acked s.ss.outstanding) s.ss.ended } } := by
  simp only [State.runTwinless, hpolicy, hruns, decide_true, Bool.and_self, if_true, State.foldl_exportRecord_of_off hexport]
  exact State.ackIdle_tryBarrier_tryEnded hphase hend

theorem execTwinless_eq {s : State} (h : s.twinGone = false) : execTwinless s = .next s.twinLost.runTwinless := by
  simp only [execTwinless, h, Bool.false_eq_true, if_false]

/-- A copy to the snapshot endpoint that lags stops, which the log shows (R447). -/
theorem execExportLag_of_on {s : State} (h : s.ss.exportOn = true) : ∃ l,
    execExportLag s = .next { s with ss := { s.ss with exportOn := false, exportLag := true }, log := l } := by
  simp only [execExportLag, h, if_true]
  rw [State.err_log]
  exact ⟨_, rfl⟩

theorem execExportLag_of_off {s : State} (h : s.ss.exportOn = false) : execExportLag s = .next s := by
  simp [execExportLag, h]

/-! ### The source of a restore (R441) -/

theorem length_numberFrom (n : Nat) (rs : List Record) : (numberFrom n rs).length = rs.length := by
  induction rs generalizing n with
  | nil => rfl
  | cons r rs ih => rw [numberFrom, List.length_cons, List.length_cons, ih]

/-- Numbered records are the records with other SEQ. -/
theorem exists_of_mem_numberFrom {n : Nat} {rs : List Record} {x : Record} (h : x ∈ numberFrom n rs) : ∃ r ∈ rs, ∃ k, x = { r with seq := k } := by
  induction rs generalizing n with
  | nil => exact absurd h List.not_mem_nil
  | cons r rs ih =>
    rcases List.mem_cons.1 h with rfl | h
    · exact ⟨r, List.mem_cons_self, n, rfl⟩
    · obtain ⟨y, hy, hx⟩ := ih h
      exact ⟨y, List.mem_cons_of_mem r hy, hx⟩

/-- The backup is streamed in ranges of 1 MiB. -/
theorem State.length_backupRecords (s : State) (b : Binding) (step : Nat) :
    (s.backupRecords b step).length = (b.bytes + 1048575) / 1048576 := by
  simp [State.backupRecords, length_numberFrom, rangesOf]

theorem State.fields_of_mem_backupRecords {s : State} {b : Binding} {step : Nat} {x : Record} (h : x ∈ s.backupRecords b step) :
    x.type = recFull ∧ x.step = step := by
  obtain ⟨r, hr, k, rfl⟩ := exists_of_mem_numberFrom h
  obtain ⟨range, -, rfl⟩ := List.mem_map.1 hr
  exact ⟨rfl, rfl⟩

theorem State.foldl_sendRecord (s : State) (dev : DevId) (rs : List Record) :
    rs.foldl (fun s r => s.sendRecord dev r) s = { s with ss := { s.ss with msgs := s.ss.msgs ++ rs.map fun r => (dev, r) } } := by
  induction rs generalizing s with
  | nil => simp
  | cons r rs ih => rw [List.foldl_cons, ih, List.map_cons, List.append_cons]; rfl

section
variable {s : State} {b : Binding} (hbind : s.ss.binding = some b) {failed replacement target : Nat}
include hbind

/-- A request for another device's backup, or for a step that the log no longer reaches, has no effect. -/
theorem execSourceRestoreRequest_of_unfit (h : b.source ≠ failed ∨ target < b.committed) :
    execSourceRestoreRequest failed replacement target s = .next s := by
  simp only [execSourceRestoreRequest, hbind, if_pos h]

/-- SOURCE streams its reverted backup to the replacement and unbinds (R441). -/
theorem execSourceRestoreRequest_of_fit (hsource : b.source = failed) (hreach : b.committed ≤ target) :
    execSourceRestoreRequest failed replacement target s =
      .next (State.event { s.revertBackup target with ss := { (s.revertBackup target).ss with
        msgs := (s.revertBackup target).ss.msgs ++ ((s.revertBackup target).backupRecords b target).map fun r => (replacement, r)
        binding := none, twin := 0 } } 7 1 0 (s.revertBackup target).ss.twinDev) := by
  have hfit : ¬(b.source ≠ failed ∨ target < b.committed) := by simp [hsource, Nat.not_lt.2 hreach]
  simp only [execSourceRestoreRequest, hbind, if_neg hfit, State.foldl_sendRecord]

end

end Sys2Proof.Machine
end

section
/-!
PROOF. The origin's side of the state stream: O22.
-/
open Sys2Proof Sys2Proof.Machine

/-- Settles O22: each answer by what it does to the records sent, the loss of the twin by the policy, the restore by the records streamed. -/
theorem theOriginFollowsItsTwin : Obligations.TheOriginFollowsItsTwin := by
  unfold Obligations.TheOriginFollowsItsTwin
  intro s r listens
  refine ⟨execAnswer_of_not_twin, ?stepAck, ?nak, ?twinless, ?lags, execExportLag_of_off, ?source⟩
  case stepAck =>
    intro hlistens htype hformed hunsent hphase hend
    have hexec := execStepAck_eq ((s.fromTwin_iff recAck r).2 ⟨htype, hlistens⟩) hformed hphase hend
    exact hexec.trans (congrArg _ (State.ackIdle_of_unsent_nil hformed hunsent))
  case nak =>
    intro hlistens htype d hsent n full
    by_cases hnew : r.type = 0x11
    · have hold : r.type ≠ 0x12 := by omega
      have hexec := execNakNew_eq ((s.fromTwin_iff recNakNew r).2 ⟨hnew, hlistens⟩)
      rw [(s.nakNewCounted r).resend_of_sent hsent] at hexec
      obtain ⟨hfull, hfields⟩ := (s.nakNewCounted r).fullFor_fields d
      refine ⟨_, (congrArg (exec · s) (if_pos hnew)).trans hexec, rfl, (if_pos hnew).symm, (if_neg hold).symm, rfl, _, rfl, ?_⟩
      by_cases hn : 2 ≤ n
      · rw [if_pos hn]
        exact ⟨hfields.1, hfields.2.1, hfields.2.2, fun h => absurd (.inr hn) h, fun _ => hfull⟩
      · rw [if_neg hn]
        exact ⟨rfl, rfl, rfl, fun _ => rfl, fun h => absurd h (by simp [full, hold, hn])⟩
    · have hold : r.type = 0x12 := htype.resolve_left hnew
      have hexec := execNakOld_eq ((s.fromTwin_iff recNakOld r).2 ⟨hold, hlistens⟩)
      rw [s.nakOldCounted.resend_of_sent hsent] at hexec
      obtain ⟨hfull, hseq, hstep, hboff⟩ := s.nakOldCounted.fullFor_fields d
      exact ⟨_, (congrArg (exec · s) (if_neg hnew)).trans hexec, rfl, (if_neg hnew).symm, (if_pos hold).symm, rfl, _, rfl,
        hseq, hstep, hboff, fun h => absurd (.inl hold) h, fun _ => hfull⟩
  case twinless =>
    intro hbound hthere
    have hexec := execTwinless_eq (s.twinGone_eq_false_iff.2 ⟨hbound, hthere⟩)
    refine ⟨fun h => ?waits, fun hpolicy hruns hexport hphase hend => ?continues⟩
    case waits =>
      rw [State.runTwinless_of_waiting (s := s.twinLost) h] at hexec
      exact ⟨_, hexec, rfl⟩
    case continues =>
      rw [State.runTwinless_of_continuing (s := s.twinLost) hpolicy hruns hexport hphase hend] at hexec
      obtain ⟨hacked, hsteps⟩ := le_topStep s.ss.outstanding s.ss.acked
      exact ⟨_, hexec, rfl, rfl, rfl, rfl, rfl, rfl, rfl, Nat.le_trans hacked (Nat.le_max_left _ _),
        fun x hx => Nat.le_trans (hsteps x hx) (Nat.le_max_left _ _)⟩
  case lags =>
    intro hon
    obtain ⟨l, hexec⟩ := execExportLag_of_on hon
    exact ⟨_, hexec, rfl⟩
  case source =>
    intro failed replacement target b hbind
    refine ⟨execSourceRestoreRequest_of_unfit hbind, fun hsource hreach hlog => ?streams⟩
    have hlater : b.log.filter (fun x => decide (target < x.step)) = [] := by simpa using hlog
    have hexec := execSourceRestoreRequest_of_fit (replacement := replacement) hbind hsource hreach
    rw [State.revertBackup_of_none hbind hlater] at hexec
    refine ⟨_, hexec, rfl, rfl, rfl, ?length, fun m hm => ?record⟩
    case length => exact List.length_append.trans (congrArg _ ((List.length_map _).trans (State.length_backupRecords _ b target)))
    case record =>
      obtain ⟨x, hx, rfl⟩ := List.mem_map.1 (List.drop_left ▸ hm :)
      exact ⟨rfl, State.fields_of_mem_backupRecords hx⟩
end
